-- ==== Sys2Proof/Word.lean ====
section
/-! DEFINITION. Bytes, little-endian numbers (R5), bit ranges (R4) and the one keyed map every indexed part of the
state is held in. -/
namespace Sys2Proof

/-- One byte. -/
abbrev Byte := BitVec 8

/-- A finite map from keys to values, as a list with strictly rising keys. -/
abbrev SMap (α : Type) := List (Nat × α)

/-- Bits [lo + n - 1 : lo] of `w` (R4). -/
def bits (w lo n : Nat) : Nat := (w / 2 ^ lo) % 2 ^ n

/-- Bit `n` of `w` (R4). -/
def bit (w n : Nat) : Bool := w.testBit n

/-- The `n` bytes of `v`, byte 0 least significant (R5). -/
def toLE : Nat → Nat → List Byte
  | 0, _ => []
  | n + 1, v => BitVec.ofNat 8 v :: toLE n (v / 256)

/-- The number whose bytes are given, byte 0 least significant (R5). -/
def ofLE : List Byte → Nat
  | [] => 0
  | b :: bs => b.toNat + 256 * ofLE bs

/-- Bytes `lo` to `lo + n - 1` of `bs`, read little-endian (R5). -/
def fieldLE (bs : List Byte) (lo n : Nat) : Nat := ofLE ((bs.drop lo).take n)

/-- A counter of `w` bits that saturates. -/
def satAdd (w a b : Nat) : Nat := min (a + b) (2 ^ w - 1)

/-- `v` as a two's complement number of `w` bits. -/
def sint (w v : Nat) : Int := if bit v (w - 1) then (v % 2 ^ w : Nat) - (2 : Int) ^ w else (v % 2 ^ w : Nat)

/-- The low `w` bits of an integer in two's complement. -/
def ofSint (w : Nat) (v : Int) : Nat := (v % (2 : Int) ^ w).toNat

/-- The quotient rounded up. -/
def ceilDiv (a b : Nat) : Nat := if b = 0 then 0 else (a + b - 1) / b

/-- A Boolean as a register bit. -/
def b2n (b : Bool) : Nat := if b then 1 else 0

end Sys2Proof
end

