-- ==== Sys2Proof/Types.lean ====
section
/-! DEFINITION. The plain data that commands carry and the state holds: tufts, cells, slot-table entries,
messages between members, block images, measured facts of the surroundings. -/
namespace Sys2Proof

/-- A tuft: 256-byte payload and its trailer (R234, table Tuft trailer). -/
structure Tuft where
  payload  : List Byte := []
  stream   : Nat := 0
  poison   : Bool := false
  late     : Bool := false
  replayed : Bool := false
  fan      : Bool := false
  last     : Bool := false
  watch    : Bool := false
  fuller   : Bool := false
  seq      : Nat := 0
  step     : Nat := 0
  check    : Nat := 0
  deriving DecidableEq, Repr

/-- A link cell as it arrives (R254): its KIND, sequence number, sync mark and tuft, and whether FEC and LCRC passed. -/
structure Cell where
  lsn   : Nat := 0
  kind  : Nat := 0
  mark  : Bool := false
  tuft  : Tuft := {}
  lcrc  : Nat := 0
  fecCorrected : Bool := false
  uncorrectable : Bool := false
  deriving DecidableEq, Repr

/-- The fields of a slot-table entry (R240). `resv` says that a reserved bit is set. -/
structure Entry where
  offset : Nat := 0
  inp    : Nat := 0
  out    : Nat := 0
  stream : Nat := 0
  seq    : Nat := 0
  sinc   : Nat := 0
  bind   : Nat := 0
  valid  : Bool := true
  resv   : Bool := false
  deriving DecidableEq, Repr

/-- The fields of a memory binding (R306). -/
structure MemBind where
  ubase : Nat := 0
  limit : Nat := 0
  tag   : Nat := 0
  rd    : Bool := false
  wr    : Bool := false
  deriving DecidableEq, Repr

/-- One bank of one slice of a node, its records read (R239, R241). -/
structure Bank where
  flen    : Nat := 0
  act     : Nat := 0
  entries : List Entry := []
  binds   : SMap MemBind := []
  deriving DecidableEq, Repr

/-- An issue record (R179). START and LEN are in schedule slots. -/
structure IssueRec where
  step   : Nat := 0
  dir    : Nat := 0
  settle : Nat := 0
  start  : Nat := 0
  len    : Nat := 0
  deriving DecidableEq, Repr

/-- What the surroundings did while a panel ran one operation, or one pace edge of a MOVE at a seam: cycles stretched (R142), droop
depth samples (R147), a lane upset, a shadow-lane disagreement (R582), ECC errors met in panel memory or operand stores (R96):
(space 0 panel memory or 1 operand store, word index, bits in error). -/
structure EdgeFacts where
  stretched : Nat := 0
  droops    : List Nat := []
  upset     : List (Nat × Int) := []
  shadowBad : Bool := false
  ecc       : List (Nat × Nat × Nat) := []
  deriving DecidableEq, Repr

/-- The surroundings of one operation. `pair`, of a MOVE's write edge at a seam, says that the receiver's read edge falls at the same
instant, and what that edge met: the two edges are then judged together (R778). -/
structure OpFacts extends EdgeFacts where
  pair : Option EdgeFacts := none
  deriving DecidableEq, Repr

/-- The payload of a LAUNCH control packet (R529), with the partition header's PART and the sender. -/
structure LaunchMsg where
  part     : Nat := 0
  src      : Nat := 0
  dil      : Nat := 0
  record   : Bool := false
  replay   : Bool := false
  allowMix : Bool := false
  refuse   : Nat := 0
  dclass   : Nat := 0
  l        : Nat := 0
  seed     : Nat := 0
  ckpt     : Nat := 0
  image    : Nat := 0
  ref      : Nat := 0
  deriving DecidableEq, Repr

/-- The payload of a HALT control packet (table HALT packet), with its partition and sender. -/
structure HaltMsg where
  part   : Nat := 0
  src    : Nat := 0
  hard   : Bool := false
  cause  : Nat := 0
  refuse : Nat := 0
  hstep  : Nat := 0
  r      : Nat := 0
  launch : Nat := 0
  tcoord : Nat := 0
  deriving DecidableEq, Repr

/-- The payload of a STOPNOTE (table STOPNOTE payload) with its partition; also what a member holds of the
deciding fault. -/
structure StopNote where
  part     : Nat := 0
  stopStep : Nat := 0
  boundary : Nat := 0
  srck     : Nat := 0
  fcoord   : Nat := 0
  panel    : Nat := 0x7FF
  code     : Nat := 0
  layer    : Nat := 0
  oper     : Nat := 0
  launch   : Nat := 0
  deriving DecidableEq, Repr

/-- A FAULT packet (table Fault packet payload) with its partition. STEP absent stands for a fault raised without a
step (R533). -/
structure FaultMsg where
  part  : Nat := 0
  code  : Nat := 0
  panel : Nat := 0x7FF
  step  : Option Nat := none
  layer : Nat := 0xFFFF
  oper  : Nat := 0xFFFF
  srck  : Nat := 0
  node  : Nat := 0
  deriving DecidableEq, Repr

/-- A finish report body (R585). -/
structure FinishRep where
  part     : Nat := 0
  member   : Nat := 0
  coord    : Nat := 0
  dclass   : Nat := 0
  diverged : Bool := false
  logbad   : Bool := false
  saturated : Bool := false
  ndc      : Nat := 0
  pchecks  : Nat := 0
  pskip    : Nat := 0
  shadow   : Nat := 0
  ecc      : Nat := 0
  replays  : Nat := 0
  frames   : Nat := 0
  drops    : Nat := 0
  firstDiv : Nat := 2 ^ 56 - 1
  divCount : Nat := 0
  indig    : List Byte := []
  insum    : Nat := 0
  outdig   : List Byte := []
  outsum   : Nat := 0
  deriving DecidableEq, Repr

/-- An event as it reaches stop 17 (R652): everything of the record the source supplies. -/
structure Ev where
  code   : Nat := 0
  part   : Option Nat := none
  skind  : Nat := 11
  sindex : Nat := 0
  detail : Nat := 0
  deriving DecidableEq, Repr

/-- A conformateur message (R353). Times in 1/64 slot. -/
structure ConfMsg where
  coord   : Nat := 0
  port    : Nat := 0
  bsize   : Bool := false
  rackset : Bool := false
  t1      : Nat := 0
  t2      : Nat := 0
  t3      : Nat := 0
  seq     : Nat := 0
  hops    : Nat := 0xFF
  crown   : Nat := 0
  deriving DecidableEq, Repr

/-- A control fragment (R462). -/
structure Fragment where
  ackOnly : Bool := false
  fseq    : Nat := 0
  ackseq  : Nat := 0
  ackv    : Bool := false
  fidx    : Nat := 0
  last    : Bool := false
  data    : List Byte := []
  deriving DecidableEq, Repr

/-- What the MSG bytes of a maintenance block carry (R254, R353, R462). -/
inductive MaintMsg where
  | none
  | sync (t1 t2 t3 : Nat)
  | probe (m : ConfMsg)
  | reply (m : ConfMsg)
  | advert (m : ConfMsg)
  | frag (f : Fragment)
  deriving DecidableEq, Repr

/-- A maintenance block as it arrives: its 48 bytes (R254), and whether FEC could not repair it. -/
structure MaintBlock where
  bytes : List Byte := []
  uncorrectable : Bool := false
  deriving DecidableEq, Repr

/-- A tuft on a stitch lane that a transmission error changed: the lane, the tally slot in which it becomes available at the far end,
and the tuft as it arrives there (R263, R332). -/
structure Upset where
  lane : Nat := 0
  at_  : Nat := 0
  tuft : Tuft := {}
  deriving DecidableEq, Repr

/-- What one group carried in one stitch frame (R290): the bytes sent, the bytes received, the CRC received behind them, and the tufts
that errors changed. -/
structure StitchFrame where
  sent   : List Byte := []
  data   : List Byte := []
  crc    : Nat := 0
  upsets : List Upset := []
  deriving DecidableEq, Repr

/-- How an ECC-protected read came out (R315-R317): clean, one bit wrong, two bits wrong, three and more bits wrong, where the spec
states no response (R96), or the HBM word of another unit `u` of the stack in place of the one addressed, which ACHK guards against. -/
inductive Ecc where
  | clean | single | double | many
  | unit (u : Nat)
  deriving DecidableEq, Repr

/-- How a DMA completion came back (R426). -/
inductive Cpl where
  | ok | poisoned | error
  deriving DecidableEq, Repr

/-! Block image sections. The spec gives the header and the section table byte by byte (R520), the 16 bytes of a slot-table entry
(R240) and of a memory binding (R306), and no other byte layout for sections 2-12; a LOAD carries their contents decoded but for those
records (log entry 9). -/

/-- One bank of a slice as the image holds it: the entries and the memory bindings, by binding index, as 128-bit words. -/
structure RawBank where
  flen    : Nat := 0
  act     : Nat := 0
  entries : List Nat := []
  binds   : SMap Nat := []
  deriving DecidableEq, Repr

structure ImgSteps where
  panel  : Nat := 0
  slr    : Nat := 0
  dirn   : Nat := 0
  region : List Byte := []
  deriving DecidableEq, Repr

/-- One slice of one node; `node` is a node key with a LOGICAL panel id for mesh nodes. -/
structure ImgSlice where
  node : Nat := 0
  lo   : Nat := 0
  hi   : Nat := 0
  rawA : RawBank := {}
  rawB : RawBank := {}
  deriving DecidableEq, Repr

structure ImgCtx where
  size   : Nat := 1
  entry  : Nat := 0
  imem   : List (Nat × Byte) := []
  dmem   : List (Nat × Byte) := []
  resume : List Nat := []
  deriving DecidableEq, Repr

structure ImgPort where
  port    : Nat := 0
  far     : Nat := 0
  farport : Nat := 0
  allow   : Nat := 0
  deriving DecidableEq, Repr

structure ImgIntake where
  ring    : Nat := 0
  slot    : Nat := 0
  n       : Nat := 0
  cap     : Nat := 0
  landing : Nat := 0
  w       : Nat := 0
  lead    : Nat := 0
  skip    : Bool := false
  deriving DecidableEq, Repr

structure ImgWatch where
  num  : Nat := 0
  ring : Nat := 0
  off  : Nat := 0
  size : Nat := 0
  deriving DecidableEq, Repr

/-- The sections of a block image that concern this member (R520, table Section types). -/
structure BlockImage where
  grid     : List Nat := []
  panels   : List Nat := []
  ctxs     : List ImgCtx := []
  hbmLen   : Nat := 0
  shrUnits : Nat := 0
  steps    : List ImgSteps := []
  slices   : List ImgSlice := []
  shared   : List (Nat × Byte) := []
  hbm      : List (Nat × Byte) := []
  ports    : List ImgPort := []
  intakes  : List ImgIntake := []
  egAddr   : Nat := 0
  egSize   : Nat := 0
  ckSteps  : List Nat := []
  ckA      : Nat := 0
  ckB      : Nat := 0
  tensor   : Nat := 0
  mirror   : Option (Nat × Nat) := none
  traceBase : Nat := 0
  tsize    : Nat := 0
  obw      : Nat := 0
  halts    : List Nat := []
  watches  : List ImgWatch := []
  deriving DecidableEq, Repr

/-- The readings of one monitor refresh (R629). `mcDown` says that the management controller does not respond (R177). -/
structure Readings where
  tj      : List Nat := []
  power   : List Nat := []
  pace    : List Nat := []
  bandTj  : Nat := 0
  pkgPwr  : Nat := 0
  hbmTemp : List Nat := []
  mcDown  : Bool := false
  deriving DecidableEq, Repr

/-- The straps (R727). -/
structure Straps where
  slot    : Nat := 0
  board   : Nat := 0
  bsize   : Bool := false
  bootSrc : Nat := 0
  testEn  : Bool := false
  deriving DecidableEq, Repr

end Sys2Proof
end

