-- ==== Sys2Proof/Packet.lean ====
section
/-! DEFINITION. Control packets (R452-R455) in decoded form. -/
namespace Sys2Proof

/-- What a control packet carries (table Packet kinds). LAUNCH, finish report and stamp messages have MSG 1-7 (R529),
HALT messages MSG 1-6. -/
inductive Payload where
  | issue (rec : Nat) (dies rows cols : Nat)
  | banksw (b bank : Nat)
  | read (addr len : Nat)
  | write (addr : Nat) (data : List Byte)
  | fault (m : FaultMsg)
  | stopnote (m : StopNote)
  | launch (msg : Nat) (m : LaunchMsg)
  | report (h : LaunchMsg) (m : FinishRep)
  | stamp (h : LaunchMsg) (bytes : List Byte)
  | event (e : Ev)
  | halt (msg : Nat) (m : HaltMsg)
  | data (bytes : List Byte)
  | ack
  | error (status : Nat)
  | raw (kind : Nat) (bytes : List Byte)
  deriving DecidableEq, Repr

/-- A control packet: the fields of its route, partition, debug and tunnel headers (R453) and its payload. -/
structure Packet where
  rxp     : Bool := false
  remote  : Bool := false
  dst     : Nat := 0
  src     : Nat := 0
  dcoord  : Nat := 0
  rtag    : Nat := 0
  part    : Nat := 0
  priv    : Bool := false
  ctx     : Option Nat := none
  dbg     : Option (Bool × Nat) := none
  tunnel  : Option (Nat × Nat) := none
  payload : Payload := .ack
  circuits : Nat := 0
  deriving DecidableEq, Repr

end Sys2Proof
end

