-- ==== Sys2Proof/Syntax.lean ====
section
/-! DEFINITION. The commands of the block: one constructor per row of spec/opcode_table.json. `who` is the requester of a register
access: 0 the physical function, 1 + k virtual function k, 129 the management controller. `fn` is a function in the same code.
`p` is a physical panel window index (R766), `x` a context, `q` a partition, `d` a batt die. -/
namespace Sys2Proof

/-- The commands (spec/opcode_table.json); those without operands come last. -/
inductive Instr where
  /-- SET_ALL, R48. -/
  | setAll (who : Nat) (v : Nat)
  /-- TALLY_SET, R47. -/
  | tallySet (port : Nat) (value : Nat) (frac : Nat)
  /-- SYNC_MARK_ARRIVE, R51. -/
  | syncMarkArrive (port : Nat) (t2 : Nat)
  /-- SYNC_REPLY, R51. -/
  | syncReply (port : Nat)
  /-- SYNC_REPLY_ARRIVE, R51. -/
  | syncReplyArrive (t4 : Nat)
  /-- SYNC_VALUES, R52. -/
  | syncValues (t1 : Nat) (t2 : Nat) (t3 : Nat)
  /-- LAUNCH, R63. -/
  | launch (fn : Nat)
  /-- ARM, R530. -/
  | arm (m : LaunchMsg)
  /-- ARMED, R65. -/
  | armed (m : LaunchMsg)
  /-- REFUSE, R65. -/
  | refuse (m : LaunchMsg)
  /-- COMMIT, R66. -/
  | commit (m : LaunchMsg)
  /-- ABORT, R65. -/
  | abort (m : LaunchMsg)
  /-- LAUNCH_NOT_COMMITTED, R67. -/
  | launchNotCommitted (q : Nat)
  /-- LAUNCH_SLOT, R66. -/
  | launchSlot (q : Nat)
  /-- TIM_EVT_ARM, R75. -/
  | timEvtArm (who : Nat) (v : Nat)
  /-- TIM_EVT_AT_WRITE, R88. -/
  | timEvtAtWrite (who : Nat) (v : Nat)
  /-- TALLY_CAP_EDGE, R77. -/
  | tallyCapEdge (rising : Bool) (frac : Nat)
  /-- TIM_CAP_FIFO_POP, R80. -/
  | timCapFifoPop (who : Nat) (off : Nat) (len : Nat)
  /-- RC_COUNTER_READ, R13. -/
  | rcCounterRead (who : Nat) (off : Nat) (len : Nat) (evs : Nat)
  /-- REGISTER_WRITE, R13. -/
  | registerWrite (who : Nat) (off : Nat) (len : Nat) (v : Nat) (evs : Nat)
  /-- BAR0_BAD_ACCESS, R760. -/
  | bar0BadAccess (write : Bool) (off : Nat) (len : Nat)
  /-- PACE_TARGET_WRITE, R148. -/
  | paceTargetWrite (who : Nat) (d : Nat) (v : Nat)
  /-- STEP_WINDOW_START, R155. -/
  | stepWindowStart (p : Nat)
  /-- STEP_DEADLINE, R160. -/
  | stepDeadline (p : Nat)
  /-- ISSUE_RECORD, R181. -/
  | issueRecord (p : Nat) (rec : Nat)
  /-- TILE, R194. -/
  | tile (p : Nat) (f : OpFacts)
  /-- LLOAD, R195. -/
  | lload (p : Nat) (f : OpFacts)
  /-- LSTORE, R196. -/
  | lstore (p : Nat) (f : OpFacts)
  /-- PCHECK, R197. -/
  | pcheck (p : Nat) (f : OpFacts)
  /-- VEC, R199. -/
  | vec (p : Nat) (f : OpFacts)
  /-- MOVE, R200. -/
  | move (p : Nat) (f : OpFacts)
  /-- SEND, R202. -/
  | send (p : Nat) (f : OpFacts)
  /-- RECV, R202. -/
  | recv (p : Nat) (f : OpFacts)
  /-- FOLD_TREE, R208. -/
  | foldTree (p : Nat) (f : OpFacts)
  /-- FOLD_LIFT, R208. -/
  | foldLift (p : Nat) (f : OpFacts)
  /-- FOLD_EXACT, R208. -/
  | foldExact (p : Nat) (f : OpFacts)
  /-- FOLD_ROUND, R208. -/
  | foldRound (p : Nat) (f : OpFacts)
  /-- RFILL, R209. -/
  | rfill (p : Nat) (f : OpFacts)
  /-- WAIT_SLOT, R210. -/
  | waitSlot (p : Nat) (f : OpFacts)
  /-- WAIT_RECV, R210. -/
  | waitRecv (p : Nat) (f : OpFacts)
  /-- WAIT_COMPLETE, R210. -/
  | waitComplete (p : Nat)
  /-- REST, R212. -/
  | rest (p : Nat) (f : OpFacts)
  /-- REST_RESUME, R212. -/
  | restResume (p : Nat)
  /-- PMARK, R213. -/
  | pmark (p : Nat) (f : OpFacts)
  /-- END, R214. -/
  | endList (p : Nat) (f : OpFacts)
  /-- SLOT_ENTRY_FIRE, R242. -/
  | slotEntryFire (node : Nat) (q : Nat) (k : Nat) (e : Ecc)
  /-- TUFT_ARRIVE, R244. -/
  | tuftArrive (node : Nat) (inp : Nat) (t : Tuft)
  /-- MEMORY_NODE_ENTRY, R307. -/
  | memoryNodeEntry (d : Nat) (q : Nat) (k : Nat) (e : Ecc)
  /-- MEM_READ_ISSUE, R309. -/
  | memReadIssue (d : Nat) (q : Nat) (k : Nat)
  /-- BANKSW, R247. -/
  | banksw (stop : Nat) (q : Nat) (b : Nat) (bank : Nat)
  /-- BANK_SWITCH, R247. -/
  | bankSwitch (q : Nat)
  /-- CELL_SLOT, R253. -/
  | cellSlot (port : Nat)
  /-- REPLAY_SLOT, R260. -/
  | replaySlot (port : Nat)
  /-- MAINTENANCE_SLOT, R254. -/
  | maintenanceSlot (port : Nat)
  /-- CELL_RECEIVE, R255. -/
  | cellReceive (port : Nat) (c : Cell)
  /-- MAINTENANCE_BLOCK_RECEIVE, R259. -/
  | maintenanceBlockReceive (port : Nat) (b : MaintBlock)
  /-- REPLAY_ABANDON, R260. -/
  | replayAbandon (port : Nat) (lsn : Nat)
  /-- PORT_DOWN, R365. -/
  | portDown (port : Nat)
  /-- PORT_RETRAIN, R368. -/
  | portRetrain (port : Nat)
  /-- STITCH_FRAME, R291. -/
  | stitchFrame (t : Nat) (group : Nat) (east : Bool) (fr : StitchFrame)
  /-- STITCH_CONTROL_RETRANSMIT, R292. -/
  | stitchControlRetransmit (t : Nat)
  /-- STITCH_CLOCK_LOSS, R296. -/
  | stitchClockLoss (t : Nat) (group : Nat)
  /-- SCRUB_READ, R319. -/
  | scrubRead (stack : Nat) (e : Ecc)
  /-- HBM_REFRESH, R320. -/
  | hbmRefresh (stack : Nat)
  /-- SELF_REFRESH_REQUEST, R321. -/
  | selfRefreshRequest (who : Nat) (v : Nat)
  /-- QUOTA_WRITE, R328. -/
  | quotaWrite (who : Nat) (q : Nat) (v : Nat)
  /-- BAR2_READ, R40. -/
  | bar2Read (off : Nat) (len : Nat) (e : Ecc)
  /-- BAR2_WRITE, R39. -/
  | bar2Write (off : Nat) (data : List Byte)
  /-- OPTICAL_WRITE, R345. -/
  | opticalWrite (who : Nat) (port : Nat) (v : Nat)
  /-- RACK_WRITE, R349. -/
  | rackWrite (who : Nat) (v : Nat)
  /-- CONFORMATEUR_RUN, R352. -/
  | conformateurRun (who : Nat) (v : Nat)
  /-- PROBE, R354. -/
  | probe (port : Nat) (m : ConfMsg) (t2 : Nat)
  /-- PROBE_REPLY_SEND, R354. -/
  | probeReplySend (port : Nat)
  /-- PROBE_REPLY, R354. -/
  | probeReply (port : Nat) (m : ConfMsg) (t4 : Nat)
  /-- PROBE_TIMEOUT, R354. -/
  | probeTimeout (port : Nat)
  /-- HOP_ADVERT_RECEIVE, R358. -/
  | hopAdvertReceive (port : Nat) (m : ConfMsg)
  /-- TSET, R372. -/
  | tset (who : Nat) (v : Nat)
  /-- RING_ENABLE, R394. -/
  | ringEnable (who : Nat) (r : Nat) (v : Nat)
  /-- RING_KICK, R420. -/
  | ringKick (who : Nat) (r : Nat) (v : Nat)
  /-- DOORBELL_READ, R393. -/
  | doorbellRead (tag : Nat) (data : List Byte)
  /-- SUBMISSION_MALFORMED, R397. -/
  | submissionMalformed (fn : Nat)
  /-- NOP, R397. -/
  | nop (fn : Nat)
  /-- LOAD, R523. -/
  | load (fn : Nat) (img : BlockImage)
  /-- LOAD_APPLY, R527. -/
  | loadApply (q : Nat)
  /-- UNLOAD, R524. -/
  | unload (fn : Nat)
  /-- STOP, R553. -/
  | stop (fn : Nat)
  /-- WATCH, R696. -/
  | watch (fn : Nat)
  /-- HALT_COMMAND, R678. -/
  | haltCommand (fn : Nat)
  /-- RESUME, R684. -/
  | resume (fn : Nat)
  /-- INTAKE_POINT, R401. -/
  | intakePoint (q : Nat) (k : Nat)
  /-- INTAKE_CONSUME, R401. -/
  | intakeConsume (q : Nat) (k : Nat)
  /-- INTAKE_DEADLINE, R404. -/
  | intakeDeadline (q : Nat) (k : Nat)
  /-- EGRESS_FRAME_WRITE, R427. -/
  | egressFrameWrite (fn : Nat) (r : Nat)
  /-- EGRESS_WAIT_EXPIRE, R428. -/
  | egressWaitExpire (fn : Nat) (r : Nat)
  /-- GAP_DESCRIPTOR, R430. -/
  | gapDescriptor (fn : Nat) (r : Nat)
  /-- COMPLETION_WRITE, R418. -/
  | completionWrite (fn : Nat)
  /-- BACKLOG_DRAIN, R415. -/
  | backlogDrain (fn : Nat)
  /-- MSIX_UNMASK, R419. -/
  | msixUnmask (fn : Nat)
  /-- DMA_TIMEOUT, R422. -/
  | dmaTimeout (tag : Nat)
  /-- DMA_COMPLETION, R424. -/
  | dmaCompletion (tag : Nat) (c : Cpl) (data : List Byte)
  /-- TAG_QUARANTINE_END, R423. -/
  | tagQuarantineEnd (tag : Nat)
  /-- FLR_VF, R439. -/
  | flrVf (f : Nat)
  /-- RING_ENTRY, R448. -/
  | ringEntry (reply : Bool) (stop : Nat)
  /-- RING_HOP, R447. -/
  | ringHop (reply : Bool) (stop : Nat) (urgent : Bool)
  /-- PACKET_EJECT, R450. -/
  | packetEject (reply : Bool) (stop : Nat) (urgent : Bool)
  /-- RECIRCULATION_LIMIT, R450. -/
  | recirculationLimit (stop : Nat)
  /-- GATEWAY_INGRESS, R456. -/
  | gatewayIngress (stop : Nat) (crossed : Bool) (data : List Byte)
  /-- REQUEST_TIMEOUT, R461. -/
  | requestTimeout (stop : Nat) (rtag : Nat)
  /-- RTAG_RELEASE, R461. -/
  | rtagRelease (stop : Nat) (rtag : Nat)
  /-- PORT_CONTROL_FRAME, R463. -/
  | portControlFrame (port : Nat) (frs : List Fragment)
  /-- PORT_CONTROL_RESEND, R463. -/
  | portControlResend (port : Nat)
  /-- ISSUE_PACKET, R466. -/
  | issuePacket (die : Nat) (pk : Packet)
  /-- READ, R488. -/
  | read (stop : Nat) (pk : Packet) (e : Ecc)
  /-- WRITE, R313. -/
  | write (stop : Nat) (pk : Packet)
  /-- DATA, R489. -/
  | data (stop : Nat) (pk : Packet)
  /-- ACK, R489. -/
  | ack (stop : Nat) (pk : Packet)
  /-- ERROR, R489. -/
  | error (stop : Nat) (pk : Packet)
  /-- FAULT_PACKET, R533. -/
  | faultPacket (m : FaultMsg)
  /-- STOPNOTE, R534. -/
  | stopnote (m : StopNote)
  /-- MEMBER_HALT, R535. -/
  | memberHalt (q : Nat)
  /-- FAULT_COMPLETION, R536. -/
  | faultCompletion (q : Nat)
  /-- EVENT, R652. -/
  | event (e : Ev)
  /-- ADD, R486. -/
  | add (x : Nat) (e : Ecc)
  /-- SUB, R486. -/
  | sub (x : Nat) (e : Ecc)
  /-- AND, R486. -/
  | and (x : Nat) (e : Ecc)
  /-- OR, R486. -/
  | or (x : Nat) (e : Ecc)
  /-- XOR, R486. -/
  | xor (x : Nat) (e : Ecc)
  /-- SLL, R486. -/
  | sll (x : Nat) (e : Ecc)
  /-- SRL, R486. -/
  | srl (x : Nat) (e : Ecc)
  /-- SRA, R486. -/
  | sra (x : Nat) (e : Ecc)
  /-- SLT, R486. -/
  | slt (x : Nat) (e : Ecc)
  /-- SLTU, R486. -/
  | sltu (x : Nat) (e : Ecc)
  /-- MUL, R486. -/
  | mul (x : Nat) (e : Ecc)
  /-- ADDI, R486. -/
  | addi (x : Nat) (e : Ecc)
  /-- ANDI, R486. -/
  | andi (x : Nat) (e : Ecc)
  /-- ORI, R486. -/
  | ori (x : Nat) (e : Ecc)
  /-- SLLI, R486. -/
  | slli (x : Nat) (e : Ecc)
  /-- SRLI, R486. -/
  | srli (x : Nat) (e : Ecc)
  /-- SRAI, R486. -/
  | srai (x : Nat) (e : Ecc)
  /-- LIH, R486. -/
  | lih (x : Nat) (e : Ecc)
  /-- BEQ, R486. -/
  | beq (x : Nat) (e : Ecc)
  /-- BNE, R486. -/
  | bne (x : Nat) (e : Ecc)
  /-- BLT, R486. -/
  | blt (x : Nat) (e : Ecc)
  /-- BGE, R486. -/
  | bge (x : Nat) (e : Ecc)
  /-- BLTU, R486. -/
  | bltu (x : Nat) (e : Ecc)
  /-- BGEU, R486. -/
  | bgeu (x : Nat) (e : Ecc)
  /-- JAL, R486. -/
  | jal (x : Nat) (e : Ecc)
  /-- JALR, R486. -/
  | jalr (x : Nat) (e : Ecc)
  /-- LD, R487. -/
  | ld (x : Nat) (e : Ecc)
  /-- ST, R487. -/
  | st (x : Nat) (e : Ecc)
  /-- LDS, R487. -/
  | lds (x : Nat) (e : Ecc)
  /-- STS, R487. -/
  | sts (x : Nat) (e : Ecc)
  /-- LKL, R499. -/
  | lkl (x : Nat) (e : Ecc)
  /-- LKS, R499. -/
  | lks (x : Nat) (e : Ecc)
  /-- LDR, R488. -/
  | ldr (x : Nat) (e : Ecc)
  /-- STR, R488. -/
  | str (x : Nat) (e : Ecc)
  /-- WAITT, R490. -/
  | waitt (x : Nat) (e : Ecc)
  /-- WAITT_COMPLETE, R490. -/
  | waittComplete (x : Nat)
  /-- RDT, R486. -/
  | rdt (x : Nat) (e : Ecc)
  /-- ISSUE, R493. -/
  | issue (x : Nat) (e : Ecc)
  /-- SWITCH, R494. -/
  | switch (x : Nat) (e : Ecc)
  /-- SEMA, R496. -/
  | sema (x : Nat) (e : Ecc)
  /-- SEMR, R497. -/
  | semr (x : Nat) (e : Ecc)
  /-- INTAKE, R503. -/
  | intake (x : Nat) (e : Ecc)
  /-- EGRESS, R504. -/
  | egress (x : Nat) (e : Ecc)
  /-- EGRESS_STAGED, R504. -/
  | egressStaged (x : Nat)
  /-- CMARK, R505. -/
  | cmark (x : Nat) (e : Ecc)
  /-- HALT, R506. -/
  | halt (x : Nat) (e : Ecc)
  /-- ILLEGAL_INSTRUCTION, R486. -/
  | illegalInstruction (x : Nat) (e : Ecc)
  /-- SEQ_MEM_DATA_WRITE, R509. -/
  | seqMemDataWrite (who : Nat) (v : Nat)
  /-- CHECKPOINT_WRITE, R539. -/
  | checkpointWrite (q : Nat)
  /-- CHECKPOINT_COMMIT, R540. -/
  | checkpointCommit (q : Nat)
  /-- FINISH_BOUNDARY, R544. -/
  | finishBoundary (q : Nat)
  /-- FINISH_REPORT, R545. -/
  | finishReport (m : FinishRep)
  /-- STAMP_FORM, R545. -/
  | stampForm (q : Nat)
  /-- STAMP, R545. -/
  | stamp (q : Nat) (bytes : List Byte)
  /-- FINISH_REPORT_MISSING, R546. -/
  | finishReportMissing (q : Nat)
  /-- ALLOTMENT_WRITE, R604. -/
  | allotmentWrite (who : Nat) (off : Nat) (v : Nat)
  /-- SHR_WRITE, R606. -/
  | shrWrite (who : Nat) (q : Nat) (v : Nat)
  /-- DOMAIN_MODE_WRITE, R613. -/
  | domainModeWrite (who : Nat) (w : Nat) (v : Nat)
  /-- DOMAIN_ON, R615. -/
  | domainOn (dom : Nat)
  /-- SHELF_ENTER, R624. -/
  | shelfEnter (who : Nat) (v : Nat)
  /-- SHELF_WAKE, R626. -/
  | shelfWake (src : Nat)
  /-- MONITOR_REFRESH, R629. -/
  | monitorRefresh (r : Readings)
  /-- CAPTURE_DRAIN, R633. -/
  | captureDrain (n : Nat)
  /-- CU_ENABLE, R635. -/
  | cuEnable (who : Nat) (n : Nat) (v : Nat)
  /-- CU_SNAP, R636. -/
  | cuSnap (who : Nat) (n : Nat) (v : Nat)
  /-- EVR_FREEZE, R658. -/
  | evrFreeze (who : Nat) (v : Nat)
  /-- EVR_UNFREEZE, R659. -/
  | evrUnfreeze (who : Nat) (v : Nat)
  /-- CLEAR_ARM, R664. -/
  | clearArm (who : Nat) (quote : Nat)
  /-- CLEAR_COMMIT, R664. -/
  | clearCommit (who : Nat) (quote : Nat)
  /-- HALT_NOTICE, R679. -/
  | haltNotice (m : HaltMsg)
  /-- DEBUG_HALT_REACHED, R681. -/
  | debugHaltReached (q : Nat)
  /-- RESUME_ARM, R685. -/
  | resumeArm (m : HaltMsg)
  /-- RESUME_ARMED, R685. -/
  | resumeArmed (m : HaltMsg)
  /-- RESUME_REFUSE, R685. -/
  | resumeRefuse (m : HaltMsg)
  /-- RESUME_COMMIT, R686. -/
  | resumeCommit (m : HaltMsg)
  /-- RESUME_ABORT, R685. -/
  | resumeAbort (m : HaltMsg)
  /-- RESUME_NOT_COMMITTED, R685. -/
  | resumeNotCommitted (q : Nat)
  /-- RESUME_SLOT, R686. -/
  | resumeSlot (q : Nat)
  /-- WATCH_DRAIN, R698. -/
  | watchDrain (q : Nat) (p : Nat) (w : Nat)
  /-- OBS_BUCKET_REFILL, R677. -/
  | obsBucketRefill (q : Nat)
  /-- DEBUG_READ, R690. -/
  | debugRead (who : Nat) (v : Nat)
  /-- COUNTER_SNAPSHOT, R700. -/
  | counterSnapshot (who : Nat) (v : Nat)
  /-- SYSTEM_RESET, R724. -/
  | systemReset (pwrOk : Bool)
  /-- FIRMWARE, R729. -/
  | firmware (copyA : Bool) (copyB : Bool)
  /-- FUSE_AND_STRAP_CHECKS, R287. -/
  | fuseAndStrapChecks (fuseOk : Bool)
  /-- HBM_TRAINING, R303. -/
  | hbmTraining (trained : Nat)
  /-- STITCH_TRAINING, R294. -/
  | stitchTraining (failed : List (Nat×Bool×Nat))
  /-- PORT_TRAINING, R728. -/
  | portTraining (trained : Nat)
  /-- SETUP_COMMIT, R730. -/
  | setupCommit (who : Nat) (v : Nat)
  /-- PUSH_GO, R734. -/
  | pushGo (who : Nat) (v : Nat)
  /-- PUSH_VERIFY_DONE, R729. -/
  | pushVerifyDone (ok : Bool)
  /-- FW_BLOCK, R733. -/
  | fwBlock (data : List Byte)
  /-- FW_DONE, R733. -/
  | fwDone (units : Nat)
  /-- SHELF, R733. -/
  | shelf (code : Nat)
  /-- SMBUS_PEC_REJECT, R733. -/
  | smbusPecReject (code : Nat)
  /-- AVS_WRITE, R716. -/
  | avsWrite (rail : Nat) (mv : Nat) (tries : List Bool)
  /-- THERMAL_TRIP, R736. -/
  | thermalTrip (die : Nat)
  /-- SAMPLE_PRELOAD, R744. -/
  | samplePreload (v : Nat)
  /-- DIESEL, R746. -/
  | diesel (v : Nat)
  /-- STITCHTEST, R746. -/
  | stitchtest (v : Nat) (errs : Nat)
  /-- PORTTEST, R747. -/
  | porttest (v : Nat) (errs : Nat)
  /-- DBGACC, R748. -/
  | dbgacc (v : Nat)
  /-- BYPASS, R744. -/
  | bypass (code : Nat)
  /-- RESET_RELEASE, R727. -/
  | resetRelease (st : Straps)
  /-- PCIE_LINK_UP, R383. -/
  | pcieLinkUp (rate : Nat) (width : Nat) (flit : Bool)
  /-- ALIGNMENT_SLOT, R254. -/
  | alignmentSlot (port : Nat)
  /-- FUNCTION_LEVEL_RESET_DONE, R439. -/
  | functionLevelResetDone (f : Nat)
  /-- VF_ENABLE, R416. -/
  | vfEnable (f : Nat) (on : Bool)
  /-- TREF_LOST, R45. -/
  | trefLost
  /-- TREF_RETURN, R45. -/
  | trefReturn
  /-- SYNC_EXCHANGE, R51. -/
  | syncExchange
  /-- TALLY_EVT_PULSE, R74. -/
  | tallyEvtPulse
  /-- TALLY_EVT_END, R74. -/
  | tallyEvtEnd
  /-- CONFORMATEUR_DONE, R355. -/
  | conformateurDone
  /-- HOP_ADVERT_SEND, R356. -/
  | hopAdvertSend
  /-- CONFLICT_CLEAR, R358. -/
  | conflictClear
  /-- BACKGROUND_POLL, R420. -/
  | backgroundPoll
  /-- FLR_PF, R444. -/
  | flrPf
  /-- SHELF_ENTRY_DONE, R624. -/
  | shelfEntryDone
  /-- SHELF_WAKE_DONE, R626. -/
  | shelfWakeDone
  /-- FREEZE_LIMIT, R659. -/
  | freezeLimit
  /-- CLEAR_ARM_LAPSE, R664. -/
  | clearArmLapse
  /-- COLD_RESET, R722. -/
  | coldReset
  /-- PCIE_RESET, R725. -/
  | pcieReset
  /-- BOOT_ROM, R728. -/
  | bootRom
  /-- BOOT_STATUS, R733. -/
  | bootStatus
  /-- COORD, R733. -/
  | coord
  /-- FAULT, R733. -/
  | fault
  /-- EXTEST, R745. -/
  | extest
  /-- IDCODE, R744. -/
  | idcode
  /-- HIGHZ, R745. -/
  | highz
  /-- CLAMP, R745. -/
  | clamp
  /-- EXTEST_PULSE, R745. -/
  | extestPulse
  /-- EXTEST_TRAIN, R745. -/
  | extestTrain
  /-- PERST_RELEASE, R726. -/
  | perstRelease
  /-- POWER_DOWN, R739. -/
  | powerDown
  /-- PCIE_LINK_DOWN, R438. -/
  | pcieLinkDown
  deriving DecidableEq, Repr

end Sys2Proof
end

