-- ==== Sys2Proof/Machine/Crypto.lean ====
section
/-! DEFINITION. The digests and the generator the spec names: SHA-256 (R520, R539, R570, R583), Philox 4x32-10
(R125-R127). -/
namespace Sys2Proof.Machine

/-- The 64 round constants of SHA-256, in eights. -/
def shaK0 : List (BitVec 32) := [0x428a2f98, 0x71374491, 0xb5c0fbcf, 0xe9b5dba5, 0x3956c25b, 0x59f111f1, 0x923f82a4, 0xab1c5ed5]
def shaK1 : List (BitVec 32) := [0xd807aa98, 0x12835b01, 0x243185be, 0x550c7dc3, 0x72be5d74, 0x80deb1fe, 0x9bdc06a7, 0xc19bf174]
def shaK2 : List (BitVec 32) := [0xe49b69c1, 0xefbe4786, 0x0fc19dc6, 0x240ca1cc, 0x2de92c6f, 0x4a7484aa, 0x5cb0a9dc, 0x76f988da]
def shaK3 : List (BitVec 32) := [0x983e5152, 0xa831c66d, 0xb00327c8, 0xbf597fc7, 0xc6e00bf3, 0xd5a79147, 0x06ca6351, 0x14292967]
def shaK4 : List (BitVec 32) := [0x27b70a85, 0x2e1b2138, 0x4d2c6dfc, 0x53380d13, 0x650a7354, 0x766a0abb, 0x81c2c92e, 0x92722c85]
def shaK5 : List (BitVec 32) := [0xa2bfe8a1, 0xa81a664b, 0xc24b8b70, 0xc76c51a3, 0xd192e819, 0xd6990624, 0xf40e3585, 0x106aa070]
def shaK6 : List (BitVec 32) := [0x19a4c116, 0x1e376c08, 0x2748774c, 0x34b0bcb5, 0x391c0cb3, 0x4ed8aa4a, 0x5b9cca4f, 0x682e6ff3]
def shaK7 : List (BitVec 32) := [0x748f82ee, 0x78a5636f, 0x84c87814, 0x8cc70208, 0x90befffa, 0xa4506ceb, 0xbef9a3f7, 0xc67178f2]
def shaK : List (BitVec 32) := shaK0 ++ shaK1 ++ shaK2 ++ shaK3 ++ shaK4 ++ shaK5 ++ shaK6 ++ shaK7

/-- The eight working words of SHA-256. -/
structure Sha where
  a : BitVec 32 := 0x6a09e667
  b : BitVec 32 := 0xbb67ae85
  c : BitVec 32 := 0x3c6ef372
  d : BitVec 32 := 0xa54ff53a
  e : BitVec 32 := 0x510e527f
  f : BitVec 32 := 0x9b05688c
  g : BitVec 32 := 0x1f83d9ab
  h : BitVec 32 := 0x5be0cd19
  deriving DecidableEq, Repr

/-- One round with constant `k` and schedule word `w`. -/
def Sha.round (x : Sha) (k w : BitVec 32) : Sha :=
  let s1 := x.e.rotateRight 6 ^^^ x.e.rotateRight 11 ^^^ x.e.rotateRight 25
  let ch := (x.e &&& x.f) ^^^ (~~~ x.e &&& x.g)
  let t1 := x.h + s1 + ch + k + w
  let s0 := x.a.rotateRight 2 ^^^ x.a.rotateRight 13 ^^^ x.a.rotateRight 22
  let mj := (x.a &&& x.b) ^^^ (x.a &&& x.c) ^^^ (x.b &&& x.c)
  ⟨t1 + s0 + mj, x.a, x.b, x.c, x.d + t1, x.e, x.f, x.g⟩

/-- The next schedule word from the last sixteen, oldest first. -/
def shaNext (w : List (BitVec 32)) : BitVec 32 :=
  let w1 := w.getD 1 0
  let w14 := w.getD 14 0
  (w14.rotateRight 17 ^^^ w14.rotateRight 19 ^^^ w14 >>> 10) + w.getD 9 0
    + (w1.rotateRight 7 ^^^ w1.rotateRight 18 ^^^ w1 >>> 3) + w.getD 0 0

/-- The rounds over the constants, with the schedule rolled along. -/
def shaRounds (x : Sha) (w : List (BitVec 32)) : List (BitVec 32) → Sha
  | [] => x
  | k :: ks => shaRounds (x.round k (w.getD 0 0)) (w.drop 1 ++ [shaNext w]) ks

/-- One block of sixteen words. -/
def Sha.block (x : Sha) (w : List (BitVec 32)) : Sha :=
  let y := shaRounds x w shaK
  ⟨x.a + y.a, x.b + y.b, x.c + y.c, x.d + y.d, x.e + y.e, x.f + y.f, x.g + y.g, x.h + y.h⟩

/-- Big-endian bytes of a number. -/
def toBE (n v : Nat) : List Byte := (toLE n v).reverse
/-- The number whose bytes are given, byte 0 most significant. -/
def ofBE (bs : List Byte) : Nat := ofLE bs.reverse

/-- The sixteen words of a 64-byte block. -/
def shaWords (bs : List Byte) : List (BitVec 32) :=
  (List.range 16).map (fun i => BitVec.ofNat 32 (ofBE ((bs.drop (4 * i)).take 4)))

/-- `n` blocks of the padded message. -/
def shaBlocks (x : Sha) (bs : List Byte) : Nat → Sha
  | 0 => x
  | n + 1 => shaBlocks (x.block (shaWords bs)) (bs.drop 64) n

/-- SHA-256, 32 bytes. -/
def sha256 (bs : List Byte) : List Byte :=
  let n := bs.length
  let z := (119 - n % 64) % 64
  let m := bs ++ [0x80] ++ List.replicate z 0 ++ toBE 8 (8 * n)
  let x := shaBlocks {} m (m.length / 64)
  [x.a, x.b, x.c, x.d, x.e, x.f, x.g, x.h].flatMap (fun w => toBE 4 w.toNat)

/-- The Philox counter and key. -/
structure Philox where
  c0 : BitVec 32
  c1 : BitVec 32
  c2 : BitVec 32
  c3 : BitVec 32
  k0 : BitVec 32
  k1 : BitVec 32
  deriving DecidableEq, Repr

/-- One round of R125 with the keys as they stand, then the key step. -/
def Philox.round (x : Philox) : Philox :=
  let p0 := (0xD2511F53 : BitVec 64) * x.c0.zeroExtend 64
  let p1 := (0xCD9E8D57 : BitVec 64) * x.c2.zeroExtend 64
  ⟨(p1 >>> 32).truncate 32 ^^^ x.c1 ^^^ x.k0, p1.truncate 32, (p0 >>> 32).truncate 32 ^^^ x.c3 ^^^ x.k1,
   p0.truncate 32, x.k0 + 0x9E3779B9, x.k1 + 0xBB67AE85⟩

/-- `n` rounds. -/
def Philox.rounds (x : Philox) : Nat → Philox
  | 0 => x
  | n + 1 => x.round.rounds n

/-- The random word of element `i` of draw stream `d`, round `n`, under run seed `seed` (R126, R127). -/
def drawWord (seed d n i : Nat) : Nat :=
  let q := i / 4
  let y := (Philox.mk (BitVec.ofNat 32 q) (BitVec.ofNat 32 (q / 2 ^ 32)) (BitVec.ofNat 32 d) (BitVec.ofNat 32 n)
    (BitVec.ofNat 32 seed) (BitVec.ofNat 32 (seed / 2 ^ 32))).rounds 10
  ([y.c0, y.c1, y.c2, y.c3].getD (i % 4) 0).toNat

end Sys2Proof.Machine
end

