-- ==== Sys2Proof/Config.lean ====
section
/-! DEFINITION. What the spec leaves open: free values, opaque constants no proof can look into. -/
namespace Sys2Proof

/-- The device function tables (R123, R124): class, function code FN 0x18-0x20, FP32 operand, FP32 result.
Applied only where the spec states no exact result. Log entry 7. -/
opaque Config.tableFn : Nat → Nat → Nat → Nat

/-- A fresh free value, taken at the state's counter `free`: a value the spec does not state (log entry 8). -/
opaque Config.freeValue : Nat → Nat

/-- A byte of panel memory whose contents the spec calls undefined or lost: epoch of the loss and byte address (log entry 8). -/
opaque Config.lostByte : Nat → Nat → BitVec 8

/-- The partition byte of a notify record for the physical function's event ring, by the ring's index (log entry 62). -/
opaque Config.notifyPart : Nat → Nat

/-- The SECDED code of an HBM word over its 256 data bits and POISON, which the spec does not give (R315, log entry 144). -/
opaque Config.secded : Nat → Bool → Nat

end Sys2Proof
end

