-- ==== Sys2Proof/Machine/Map.lean ====
section
/-! DEFINITION. Operations of the keyed map: lookup, insertion in key order, removal, and `put`, which drops an
entry equal to what an absent key reads as. -/
namespace Sys2Proof.Machine

/-- What key `k` holds, `d` when it is absent. -/
def look {α : Type} (d : α) (m : SMap α) (k : Nat) : α :=
  match m with
  | [] => d
  | (k', v) :: r => if k' = k then v else look d r k

/-- What key `k` holds, if anything. -/
def look? {α : Type} (m : SMap α) (k : Nat) : Option α :=
  match m with
  | [] => none
  | (k', v) :: r => if k' = k then some v else look? r k

/-- `m` with key `k` holding `v`. -/
def ins {α : Type} (m : SMap α) (k : Nat) (v : α) : SMap α :=
  match m with
  | [] => [(k, v)]
  | (k', v') :: r => if k < k' then (k, v) :: (k', v') :: r else if k = k' then (k, v) :: r else (k', v') :: ins r k v

/-- `m` without key `k`. -/
def del {α : Type} (m : SMap α) (k : Nat) : SMap α := m.filter (fun e => e.1 ≠ k)

/-- `m` with key `k` reading as `v`, where an absent key reads as `d`: the canonical form is kept. -/
def put {α : Type} [DecidableEq α] (d : α) (m : SMap α) (k : Nat) (v : α) : SMap α :=
  if v = d then del m k else ins m k v

/-- Keys strictly rising and no entry equal to `d`: the canonical form. -/
def canon {α : Type} [DecidableEq α] (d : α) (m : SMap α) : Bool :=
  match m with
  | [] => true
  | [(_, v)] => decide (v ≠ d)
  | (k, v) :: (k', v') :: r => decide (v ≠ d) && decide (k < k') && canon d ((k', v') :: r)

/-- Memory in its canonical form; an unlisted byte reads as 0 (log entry 1). -/
def Memory.wf (m : SMap Byte) : Bool := canon 0 m

/-- `n` bytes from address `a`. -/
def readBytes (m : SMap Byte) (a : Nat) : Nat → List Byte
  | 0 => []
  | n + 1 => look 0 m a :: readBytes m (a + 1) n

/-- `m` with bytes `bs` at address `a`. -/
def writeBytes (m : SMap Byte) (a : Nat) : List Byte → SMap Byte
  | [] => m
  | b :: bs => writeBytes (put 0 m a b) (a + 1) bs

end Sys2Proof.Machine
end

