-- ==== Sys2Proof/Machine/Fld.lean ====
section
/-! DEFINITION. Every register field of BAR0 the spec names (R759, R765, R766 and the field tables of each chapter):
its block, place, access code (R13) and reset value (R12). Written out from the field tables. -/
namespace Sys2Proof.Machine

/-- The blocks of BAR0 (R759) and the panel windows (R766). -/
inductive Blk where
  | TIM | PWR | PNL | LNK | MEM | HRE | PCX | CTN | SEQ | CHK | PRT | MON | EVR | DBG | MBX | IDN
  deriving DecidableEq, Repr

/-- Access codes (R13). -/
inductive Acc where
  | RW | RO | WO | W1C | RC | RS | RL
  deriving DecidableEq, Repr

/-- A register field: `BLOCK_NAME.FIELD` of the spec is `BLOCK_NAME_FIELD` here. -/
inductive Fld where
  | TIM_CTRL_CROWN
  | TIM_CTRL_SERVO_EN
  | TIM_CTRL_SET_ACCEPT
  | TIM_CTRL_SET_ALL
  | TIM_STATUS_LOCK
  | TIM_STATUS_SERVO_LIMIT
  | TIM_STATUS_SLIP
  | TIM_STATUS_TREF_LOST
  | TIM_STATUS_TREF_PRESENT
  | TIM_STATUS_SET_REFUSED
  | TIM_STATUS_CONFLICT
  | TIM_PHASE_TRIM
  | TIM_PHASE_OFFSET
  | TIM_PHASE_EXCH
  | TIM_SYNC_PARENT_PORT
  | TIM_TALLY_TALLY
  | TIM_TICK_TICK
  | TIM_LAUNCH_LEAD_LEAD
  | TIM_COMMIT_MARGIN_MARGIN
  | TIM_EVT_CTRL_ARM
  | TIM_EVT_CTRL_POLARITY
  | TIM_EVT_CTRL_MISSED
  | TIM_EVT_CTRL_WIDTH
  | TIM_EVT_CTRL_PERIOD
  | TIM_EVT_AT_AT
  | TIM_CAP_CTRL_ENABLE
  | TIM_CAP_CTRL_EDGE
  | TIM_CAP_OVF_LOST
  | TIM_CAP_FIFO_TALLY
  | TIM_CAP_FIFO_FRACTION
  | TIM_CAP_FIFO_VALID
  | TIM_PHASE_BASE_BASE
  | TIM_LAUNCH_AT_AT
  | TIM_LAUNCH_STATE_STATE
  | TIM_LAUNCH_STATE_DIL
  | TIM_LAUNCH_STATE_REFUSE
  | PWR_PACE_FLOOR_FLOOR
  | PWR_SLACK_WARN_SLACK
  | PWR_PACE_EVT_SLACK_WARN
  | PWR_PACE_EVT_THERM_WARN
  | PWR_PACE_EVT_LATE_STEP
  | PWR_PACE_CTRL_TARGET
  | PWR_PACE_CTRL_APPLIED
  | PNL_STRETCH_COUNT
  | PNL_SEAM_HOLD_COUNT
  | PNL_SEAM_WAIT_COUNT
  | PNL_STEP_STAT_LATE
  | PNL_STEP_STAT_SLACK
  | PNL_SL_CFG_SLR
  | PNL_SL_CFG_DIRN
  | PNL_SL_STAT_ACTIVE
  | PNL_SL_STAT_QUEUED
  | PNL_SL_STAT_LASTSEEN
  | PNL_SL_STAT_ERR
  | PNL_SL_STEP_STEP
  | PNL_SL_POS_WORD
  | PNL_SL_POS_DIR
  | PNL_SL_ERRID_LAYER
  | PNL_SL_ERRID_OPER
  | PNL_SL_SBIND_SEND
  | PNL_SL_RBIND_RECV
  | LNK_CRC_FAIL_COUNT
  | LNK_MISMATCH_COUNT
  | LNK_SUBST_COUNT
  | LNK_STRAY_COUNT
  | LNK_MAP_SEL_PORT
  | LNK_MAP_SEL_BANK
  | LNK_MAP_INFO_OWNER
  | LNK_MAP_INFO_USED
  | LNK_MAP_INFO_FAR
  | LNK_MAP_INFO_PEAK
  | LNK_MAP_LEN_FLEN
  | LNK_MAP_LEN_DEPS
  | LNK_MAP_DATA_BITMAP
  | LNK_BANK_ACTIVE
  | LNK_BANK_PENDING
  | LNK_BANK_REFUSED
  | LNK_P_STAT_UP
  | LNK_P_STAT_OPTICAL
  | LNK_P_STAT_REACH
  | LNK_P_STAT_OWNER
  | LNK_P_STAT_OWNED
  | LNK_P_PATH_FLIGHT
  | LNK_P_PATH_ALLOW
  | LNK_P_FEC_CORR_COUNT
  | LNK_P_BAD_COUNT
  | LNK_P_REPLAY_COUNT
  | LNK_P_RPL_OK_COUNT
  | LNK_P_ABANDON_COUNT
  | LNK_P_LATE_COUNT
  | MEM_CTRL_SR_REQ
  | MEM_CTRL_SCRUB_EN
  | MEM_STAT_TRAINED
  | MEM_STAT_IN_SR
  | MEM_STAT_STITCH_OK
  | MEM_STAT_ID_OK
  | MEM_STAT_SR_REFUSED
  | MEM_STAT_QUOTA_REFUSED
  | MEM_SCRUB_HOURS
  | MEM_WIN_BASE
  | MEM_REMAP_FAILCOL
  | MEM_REMAP_SPARE_BAD
  | MEM_QUOTA_QUOTA
  | MEM_S_CE_COUNT
  | MEM_S_UE_COUNT
  | MEM_S_ADDR_ADDR
  | MEM_S_TEMP_TEMP
  | MEM_T_STAT_UP
  | MEM_T_STAT_SPARE_E
  | MEM_T_STAT_SPARE_W
  | MEM_T_CRC_COUNT
  | MEM_T_CTL_RPL_COUNT
  | MEM_T_TEST_MODE
  | MEM_T_TEST_ERRS
  | PNL_HOOD_FENCED
  | PNL_HOOD_FUSED
  | PNL_HOOD_REMAPPED
  | LNK_COORD_SLOT
  | LNK_COORD_BOARD
  | LNK_COORD_RACK
  | LNK_COORD_BSIZE
  | LNK_COORD_RACKSET
  | LNK_COORD_STRAP_BAD
  | LNK_CONF_CTRL_RUN
  | LNK_CONF_CTRL_SYNC_AUTO
  | LNK_CONF_CTRL_TSET
  | LNK_CONF_CTRL_TPORT
  | LNK_CONF_STAT_BUSY
  | LNK_CONF_STAT_DONE
  | LNK_CONF_STAT_REFUSED
  | LNK_CONF_STAT_HOPS
  | LNK_CONF_MASK_PORTS
  | LNK_P_CONF_STATE
  | LNK_P_CONF_FARPORT
  | LNK_P_CONF_FAR
  | LNK_P_LAT_LAT
  | LNK_P_SPR_SPREAD
  | LNK_P_SPR_FARHOPS
  | HRE_CTRL_ENABLE
  | HRE_POLL_PERIOD
  | HRE_DMA_TO_TIMEOUT
  | HRE_TAGS_INUSE
  | HRE_TAGS_QUAR
  | HRE_TO_CNT_COUNT
  | HRE_LATE_CNT_COUNT
  | HRE_LATE_LAST_TAG
  | HRE_LATE_LAST_LATE
  | RING_BASE_ADDR
  | RING_DB_ADDR
  | RING_CFG_LOG2N
  | RING_CFG_ENABLE
  | RING_CFG_GEN
  | RING_WAIT_WAIT
  | RING_STAT_DIDX
  | RING_ERR_IDX_ERR
  | RING_ERR_RD_ERR
  | RING_ERR_OVF
  | RING_ERR_LOCKED
  | RING_DROP_COUNT
  | RING_KICK_KICK
  | PCX_LINK_RATE
  | PCX_LINK_WIDTH
  | PCX_LINK_FLIT
  | PCX_VF_ACT_ACTIVE
  | PCX_FLR_BUSY
  | PCX_BAR2_DROP_COUNT
  | PCX_EP_RX_COUNT
  | PCX_UR_COUNT
  | CTN_REQ_TO_TIMEOUT
  | CTN_OVERDEPTH_COUNT
  | CTN_BADLEN_COUNT
  | CTN_BADCHAIN_COUNT
  | CTN_UNREACH_COUNT
  | CTN_DENIED_COUNT
  | CTN_RECIRC_COUNT
  | CTN_BUSYDROP_COUNT
  | CTN_TIMEOUT_COUNT
  | CTN_LATE_RPL_COUNT
  | CTN_LAST_DROP_REASON
  | CTN_LAST_DROP_STOP
  | CTN_LAST_DROP_KIND
  | CTN_LAST_DROP_SRC
  | CTN_PORT_RTX_COUNT
  | SEQ_MEM_SEL_CTX
  | SEQ_MEM_SEL_SPACE
  | SEQ_MEM_SEL_REFUSED
  | SEQ_MEM_ADDR_ADDR
  | SEQ_MEM_DATA_DATA
  | SEQ_CTX_BIND_PART
  | SEQ_CTX_BIND_BOUND
  | SEQ_CTX_BIND_SIZE
  | SEQ_CTX_ENTRY_ENTRY
  | SEQ_CTX_STATE_STATE
  | SEQ_CTX_STATE_LOCKED
  | SEQ_CTX_STATE_PC
  | SEQ_CTX_EXC_CAUSE
  | SEQ_CTX_EXC_STATUS
  | SEQ_CTX_EXC_PC
  | SEQ_CTX_EXCW_WORD
  | SEQ_CTX_ID_LAYER
  | SEQ_CTX_ID_OPER
  | SEQ_CTX_RETIRED_COUNT
  | SEQ_CTX_LATE_COUNT
  | SEQ_CTX_LOCKFAIL_COUNT
  | SEQ_SEM_HELD
  | SEQ_SHR_BASE
  | SEQ_SHR_SIZE
  | CHK_CTRL_DIV_STOP
  | CHK_CLASS_DCLASS
  | CHK_RUN_FLAGS
  | CHK_NDC_COUNT
  | CHK_PC_CNT_COUNT
  | CHK_PC_SKIP_COUNT
  | CHK_SH_CNT_COUNT
  | CHK_CE_CNT_COUNT
  | CHK_RPL_CNT_COUNT
  | CHK_DIV_ENTRY
  | CHK_DIV_CAUSE
  | CHK_DIVCNT_COUNT
  | PRT_FREE_FREE
  | PRT_GRAN_GRAN
  | PRT_HBM_BASE_BASE
  | PRT_HBM_SIZE_SIZE
  | PRT_PORTS_PORTS
  | PRT_LANES_LANES
  | PRT_MPORT_MPORT
  | PRT_LIMITS_CTXMAX
  | PRT_LIMITS_SHR
  | PRT_STAT_IMAGE
  | PRT_STAT_CONFLICT
  | PRT_STAT_HELD
  | PWR_DOM_MODE_MODE
  | PWR_DOM_STAT_ON
  | PWR_DOM_NEED_NEED
  | PWR_DOM_ERR_OVERRIDDEN
  | PWR_SHELF_ENTER
  | PWR_SHELF_WAKE
  | PWR_SHELF_STATE
  | PWR_SHELF_REFUSED
  | PWR_SHELF_SRC
  | MON_DIE_TJ
  | MON_DIE_POWER
  | MON_DIE_PACE
  | MON_BAND_TJ
  | MON_BAND_PKGPWR
  | CU_CTRL_EN
  | CU_CTRL_SNAP
  | CU_CTRL_CLRSNAP
  | CU_CTRL_MODE
  | CU_CTRL_PSCOPE
  | CU_CTRL_PART
  | CU_CTRL_SRC
  | CU_SCOPE_SCOPE
  | CU_BASE_BASE
  | CU_WIDTH_WIDTH
  | CU_COUNT_COUNT
  | CU_MIN_MIN
  | CU_MAX_MAX
  | CU_LOST_LOST
  | CU_STAMP_TALLY
  | CU_BIN_BIN
  | EVR_STAT_COUNT
  | EVR_STAT_FROZEN
  | EVR_STAT_HOLD
  | EVR_STAT_ARMED
  | EVR_STAT_STALE
  | EVR_STAT_FRZ_TO
  | EVR_WRITTEN_COUNT
  | EVR_OVF_COUNT
  | EVR_DROP_COUNT
  | EVR_FRZ_CNT_COUNT
  | EVR_MODE_FOLD
  | EVR_VIS_VIS
  | EVR_FREEZE_FREEZE
  | EVR_FREEZE_LIMIT
  | EVR_PAGE_PAGE
  | EVR_NEXT_SLOT
  | EVR_CLR_ARM_QUOTE
  | EVR_CLR_COMMIT_QUOTE
  | EVR_STAMP_NEXT_SLOT
  | PNL_C_BUSY_COUNT
  | PNL_C_MAC_COUNT
  | PNL_C_OSB_COUNT
  | PNL_C_PMB_COUNT
  | PNL_C_INV_COUNT
  | PNL_C_OVF_COUNT
  | PNL_C_UNF_COUNT
  | PNL_C_SAT_COUNT
  | DBG_CTRL_OPEN
  | DBG_CTRL_SESSION
  | DBG_DACC_ADDR_ADDR
  | DBG_DACC_CTRL_GO
  | DBG_DACC_CTRL_SIDE
  | DBG_DACC_CTRL_BUSY
  | DBG_DACC_CTRL_ERR
  | DBG_DACC_CTRL_PART
  | DBG_DACC_CTRL_STATUS
  | DBG_DACC_DATA_DATA
  | DBG_OBW_USED_BYTES
  | DBG_SNAP_CTRL_GO
  | DBG_SNAP_CTRL_PART
  | DBG_SNAP_TALLY_TALLY
  | DBG_SNAP_ENV_TJMAX
  | DBG_SNAP_ENV_PKGPWR
  | DBG_SNAP_CNT_COUNT
  | DBG_HALT_STATE
  | DBG_HALT_HARD
  | DBG_HALT_LAPSED
  | DBG_HALT_CAUSE
  | DBG_HSTEP_STEP
  | DBG_HAT_TALLY
  | DBG_HLEN_H
  | DBG_BP_CTX
  | DBG_BP_EN
  | DBG_BP_PC
  | DBG_BPHIT_HIT
  | DBG_TRC_CTRL_EN
  | DBG_TRC_PROD_INDEX
  | DBG_TRC_CONS_INDEX
  | DBG_TRC_DROP_COUNT
  | DBG_WDROP_COUNT
  | DBG_TRC_SIZE_TSIZE
  | DBG_WMASK_MASK
  | DBG_OBW_BYTES
  | DBG_C_HBM_SRD_BYTES
  | DBG_C_HBM_SWR_BYTES
  | DBG_C_HBM_OTHER_BYTES
  | DBG_C_PORT_TX_TUFTS
  | DBG_C_PORT_RX_TUFTS
  | DBG_C_STITCH_TUFTS
  | DBG_C_OBS_BYTES
  | DBG_PORT_TX_CELLS
  | DBG_PORT_RX_CELLS
  | DBG_LANE_TUFTS
  | MBX_BOOT_STAGE
  | MBX_BOOT_ERR
  | MBX_BOOT_SRC
  | MBX_BOOT_BOOTSEL
  | MBX_BOOT_TEST
  | MBX_BOOT_FAULT_IN
  | MBX_SETUP_COMMIT
  | MBX_SETUP_COMMITTED
  | MBX_SETUP_REFUSED
  | MBX_PUSH_ADDR_ADDR
  | MBX_PUSH_LEN_LEN
  | MBX_PUSH_CTRL_GO
  | MBX_PUSH_CTRL_BUSY
  | MBX_PUSH_CTRL_FAIL
  | MBX_FAULT_FORCE
  | MBX_FAULT_OVERTEMP
  | MBX_FAULT_AVS
  | MBX_FAULT_TRIP
  | IDN_DEV_STEPPING
  | IDN_DEV_GRADE
  | IDN_DEV_DCLASS
  | IDN_PART_PART
  | IDN_SVN_SVN_MIN
  | IDN_KEYDIG_KEYDIG
  | IDN_DIE_POS
  | IDN_SERIAL_SERIAL
  | IDN_FAIL_FAILCOL
  | IDN_FAIL_SPARE_BAD
  deriving DecidableEq, Repr

/-- Where a field lies and how it behaves. Element (i1, i2) of a field, index `i1 * n2 + i2`, lies in the register at
`base + s1 * i1 + s2 * i2` of its block, at bit `lo + l2 * i2`. `quiet` is the distance of the quiet alias, 0 for none. -/
structure Info where
  blk : Blk
  base : Nat
  n1 : Nat := 1
  s1 : Nat := 0
  n2 : Nat := 1
  s2 : Nat := 0
  l2 : Nat := 0
  size : Nat := 4
  lo : Nat
  width : Nat
  acc : Acc
  reset : Nat := 0
  quiet : Nat := 0
  deriving DecidableEq, Repr

namespace Fld

/-- The field tables. -/
def info : Fld → Info
  | .TIM_CTRL_CROWN => { blk := .TIM, base := 0x0, lo := 0, width := 1, acc := .RL }
  | .TIM_CTRL_SERVO_EN => { blk := .TIM, base := 0x0, lo := 1, width := 1, acc := .RW, reset := 1 }
  | .TIM_CTRL_SET_ACCEPT => { blk := .TIM, base := 0x0, lo := 2, width := 1, acc := .RW, reset := 1 }
  | .TIM_CTRL_SET_ALL => { blk := .TIM, base := 0x0, lo := 3, width := 1, acc := .WO }
  | .TIM_STATUS_LOCK => { blk := .TIM, base := 0x4, lo := 0, width := 1, acc := .RO }
  | .TIM_STATUS_SERVO_LIMIT => { blk := .TIM, base := 0x4, lo := 1, width := 1, acc := .W1C }
  | .TIM_STATUS_SLIP => { blk := .TIM, base := 0x4, lo := 2, width := 1, acc := .W1C }
  | .TIM_STATUS_TREF_LOST => { blk := .TIM, base := 0x4, lo := 3, width := 1, acc := .W1C }
  | .TIM_STATUS_TREF_PRESENT => { blk := .TIM, base := 0x4, lo := 4, width := 1, acc := .RO }
  | .TIM_STATUS_SET_REFUSED => { blk := .TIM, base := 0x4, lo := 5, width := 1, acc := .W1C }
  | .TIM_STATUS_CONFLICT => { blk := .TIM, base := 0x4, lo := 6, width := 1, acc := .RO }
  | .TIM_PHASE_TRIM => { blk := .TIM, base := 0x8, lo := 0, width := 7, acc := .RO }
  | .TIM_PHASE_OFFSET => { blk := .TIM, base := 0x8, lo := 8, width := 8, acc := .RO }
  | .TIM_PHASE_EXCH => { blk := .TIM, base := 0x8, lo := 16, width := 16, acc := .RO }
  | .TIM_SYNC_PARENT_PORT => { blk := .TIM, base := 0xc, lo := 0, width := 6, acc := .RL, reset := 0x3f }
  | .TIM_TALLY_TALLY => { blk := .TIM, base := 0x10, size := 8, lo := 0, width := 56, acc := .RO }
  | .TIM_TICK_TICK => { blk := .TIM, base := 0x18, size := 8, lo := 0, width := 56, acc := .RO }
  | .TIM_LAUNCH_LEAD_LEAD => { blk := .TIM, base := 0x20, lo := 0, width := 32, acc := .RW, reset := 0x40000 }
  | .TIM_COMMIT_MARGIN_MARGIN => { blk := .TIM, base := 0x24, lo := 0, width := 32, acc := .RW, reset := 0x1000 }
  | .TIM_EVT_CTRL_ARM => { blk := .TIM, base := 0x28, lo := 0, width := 1, acc := .RW }
  | .TIM_EVT_CTRL_POLARITY => { blk := .TIM, base := 0x28, lo := 1, width := 1, acc := .RW }
  | .TIM_EVT_CTRL_MISSED => { blk := .TIM, base := 0x28, lo := 2, width := 1, acc := .W1C }
  | .TIM_EVT_CTRL_WIDTH => { blk := .TIM, base := 0x28, lo := 8, width := 8, acc := .RW, reset := 1 }
  | .TIM_EVT_CTRL_PERIOD => { blk := .TIM, base := 0x28, lo := 16, width := 6, acc := .RW }
  | .TIM_EVT_AT_AT => { blk := .TIM, base := 0x30, size := 8, lo := 0, width := 56, acc := .RW }
  | .TIM_CAP_CTRL_ENABLE => { blk := .TIM, base := 0x38, lo := 0, width := 1, acc := .RW }
  | .TIM_CAP_CTRL_EDGE => { blk := .TIM, base := 0x38, lo := 1, width := 1, acc := .RW }
  | .TIM_CAP_OVF_LOST => { blk := .TIM, base := 0x3c, lo := 0, width := 32, acc := .RC }
  | .TIM_CAP_FIFO_TALLY => { blk := .TIM, base := 0x40, size := 8, lo := 0, width := 56, acc := .RS, quiet := 0x8 }
  | .TIM_CAP_FIFO_FRACTION => { blk := .TIM, base := 0x40, size := 8, lo := 56, width := 6, acc := .RS, quiet := 0x8 }
  | .TIM_CAP_FIFO_VALID => { blk := .TIM, base := 0x40, size := 8, lo := 63, width := 1, acc := .RS, quiet := 0x8 }
  | .TIM_PHASE_BASE_BASE => { blk := .TIM, base := 0x50, lo := 0, width := 6, acc := .RO }
  | .TIM_LAUNCH_AT_AT => { blk := .TIM, base := 0x1000, n1 := 128, s1 := 0x10, size := 8, lo := 0, width := 56, acc := .RO }
  | .TIM_LAUNCH_STATE_STATE => { blk := .TIM, base := 0x1008, n1 := 128, s1 := 0x10, lo := 0, width := 3, acc := .RO }
  | .TIM_LAUNCH_STATE_DIL => { blk := .TIM, base := 0x1008, n1 := 128, s1 := 0x10, lo := 4, width := 3, acc := .RO }
  | .TIM_LAUNCH_STATE_REFUSE => { blk := .TIM, base := 0x1008, n1 := 128, s1 := 0x10, lo := 8, width := 8, acc := .RO }
  | .PWR_PACE_FLOOR_FLOOR => { blk := .PWR, base := 0x0, lo := 0, width := 9, acc := .RO, reset := 0xd0 }
  | .PWR_SLACK_WARN_SLACK => { blk := .PWR, base := 0x4, lo := 0, width := 16, acc := .RW, reset := 0x80 }
  | .PWR_PACE_EVT_SLACK_WARN => { blk := .PWR, base := 0x8, lo := 0, width := 8, acc := .W1C }
  | .PWR_PACE_EVT_THERM_WARN => { blk := .PWR, base := 0x8, lo := 8, width := 8, acc := .W1C }
  | .PWR_PACE_EVT_LATE_STEP => { blk := .PWR, base := 0x8, lo := 16, width := 8, acc := .W1C }
  | .PWR_PACE_CTRL_TARGET => { blk := .PWR, base := 0x100, n1 := 8, s1 := 0x4, lo := 0, width := 9, acc := .RW, reset := 0xd0 }
  | .PWR_PACE_CTRL_APPLIED => { blk := .PWR, base := 0x100, n1 := 8, s1 := 0x4, lo := 16, width := 9, acc := .RO, reset := 0xd0 }
  | .PNL_STRETCH_COUNT => { blk := .PNL, base := 0x200, n1 := 1088, s1 := 0x4000, lo := 0, width := 32, acc := .RC, quiet := 0x2000 }
  | .PNL_SEAM_HOLD_COUNT => { blk := .PNL, base := 0x204, n1 := 1088, s1 := 0x4000, lo := 0, width := 32, acc := .RC, quiet := 0x2000 }
  | .PNL_SEAM_WAIT_COUNT => { blk := .PNL, base := 0x208, n1 := 1088, s1 := 0x4000, lo := 0, width := 32, acc := .RC, quiet := 0x2000 }
  | .PNL_STEP_STAT_LATE => { blk := .PNL, base := 0x20c, n1 := 1088, s1 := 0x4000, lo := 0, width := 1, acc := .W1C }
  | .PNL_STEP_STAT_SLACK => { blk := .PNL, base := 0x20c, n1 := 1088, s1 := 0x4000, lo := 16, width := 16, acc := .RO }
  | .PNL_SL_CFG_SLR => { blk := .PNL, base := 0x300, n1 := 1088, s1 := 0x4000, lo := 0, width := 6, acc := .RO }
  | .PNL_SL_CFG_DIRN => { blk := .PNL, base := 0x300, n1 := 1088, s1 := 0x4000, lo := 16, width := 11, acc := .RO }
  | .PNL_SL_STAT_ACTIVE => { blk := .PNL, base := 0x304, n1 := 1088, s1 := 0x4000, lo := 0, width := 1, acc := .RO }
  | .PNL_SL_STAT_QUEUED => { blk := .PNL, base := 0x304, n1 := 1088, s1 := 0x4000, lo := 1, width := 3, acc := .RO }
  | .PNL_SL_STAT_LASTSEEN => { blk := .PNL, base := 0x304, n1 := 1088, s1 := 0x4000, lo := 4, width := 1, acc := .RO }
  | .PNL_SL_STAT_ERR => { blk := .PNL, base := 0x304, n1 := 1088, s1 := 0x4000, lo := 8, width := 8, acc := .RO }
  | .PNL_SL_STEP_STEP => { blk := .PNL, base := 0x308, n1 := 1088, s1 := 0x4000, lo := 0, width := 32, acc := .RO }
  | .PNL_SL_POS_WORD => { blk := .PNL, base := 0x30c, n1 := 1088, s1 := 0x4000, lo := 0, width := 16, acc := .RO }
  | .PNL_SL_POS_DIR => { blk := .PNL, base := 0x30c, n1 := 1088, s1 := 0x4000, lo := 16, width := 16, acc := .RO }
  | .PNL_SL_ERRID_LAYER => { blk := .PNL, base := 0x310, n1 := 1088, s1 := 0x4000, lo := 0, width := 16, acc := .RO }
  | .PNL_SL_ERRID_OPER => { blk := .PNL, base := 0x310, n1 := 1088, s1 := 0x4000, lo := 16, width := 16, acc := .RO }
  | .PNL_SL_SBIND_SEND => { blk := .PNL, base := 0x314, n1 := 1088, s1 := 0x4000, lo := 0, width := 32, acc := .RO }
  | .PNL_SL_RBIND_RECV => { blk := .PNL, base := 0x318, n1 := 1088, s1 := 0x4000, lo := 0, width := 32, acc := .RO }
  | .LNK_CRC_FAIL_COUNT => { blk := .LNK, base := 0x0, lo := 0, width := 32, acc := .RC, quiet := 0x20 }
  | .LNK_MISMATCH_COUNT => { blk := .LNK, base := 0x4, lo := 0, width := 32, acc := .RC, quiet := 0x20 }
  | .LNK_SUBST_COUNT => { blk := .LNK, base := 0x8, lo := 0, width := 32, acc := .RC, quiet := 0x20 }
  | .LNK_STRAY_COUNT => { blk := .LNK, base := 0xc, lo := 0, width := 32, acc := .RC, quiet := 0x20 }
  | .LNK_MAP_SEL_PORT => { blk := .LNK, base := 0x40, lo := 0, width := 5, acc := .RW }
  | .LNK_MAP_SEL_BANK => { blk := .LNK, base := 0x40, lo := 5, width := 1, acc := .RW }
  | .LNK_MAP_INFO_OWNER => { blk := .LNK, base := 0x44, lo := 0, width := 7, acc := .RO }
  | .LNK_MAP_INFO_USED => { blk := .LNK, base := 0x44, lo := 7, width := 1, acc := .RO }
  | .LNK_MAP_INFO_FAR => { blk := .LNK, base := 0x44, lo := 8, width := 12, acc := .RO }
  | .LNK_MAP_INFO_PEAK => { blk := .LNK, base := 0x44, lo := 20, width := 6, acc := .RO }
  | .LNK_MAP_LEN_FLEN => { blk := .LNK, base := 0x48, lo := 0, width := 14, acc := .RO }
  | .LNK_MAP_LEN_DEPS => { blk := .LNK, base := 0x48, lo := 14, width := 18, acc := .RO }
  | .LNK_MAP_DATA_BITMAP => { blk := .LNK, base := 0x8000, n1 := 256, s1 := 0x4, lo := 0, width := 32, acc := .RO }
  | .LNK_BANK_ACTIVE => { blk := .LNK, base := 0x400, n1 := 128, s1 := 0x4, lo := 0, width := 1, acc := .RO }
  | .LNK_BANK_PENDING => { blk := .LNK, base := 0x400, n1 := 128, s1 := 0x4, lo := 1, width := 1, acc := .RO }
  | .LNK_BANK_REFUSED => { blk := .LNK, base := 0x400, n1 := 128, s1 := 0x4, lo := 2, width := 1, acc := .W1C }
  | .LNK_P_STAT_UP => { blk := .LNK, base := 0x1000, n1 := 32, s1 := 0x40, lo := 0, width := 1, acc := .RO }
  | .LNK_P_STAT_OPTICAL => { blk := .LNK, base := 0x1000, n1 := 32, s1 := 0x40, lo := 1, width := 1, acc := .RW }
  | .LNK_P_STAT_REACH => { blk := .LNK, base := 0x1000, n1 := 32, s1 := 0x40, lo := 2, width := 1, acc := .RO }
  | .LNK_P_STAT_OWNER => { blk := .LNK, base := 0x1000, n1 := 32, s1 := 0x40, lo := 8, width := 7, acc := .RO }
  | .LNK_P_STAT_OWNED => { blk := .LNK, base := 0x1000, n1 := 32, s1 := 0x40, lo := 15, width := 1, acc := .RO }
  | .LNK_P_PATH_FLIGHT => { blk := .LNK, base := 0x1004, n1 := 32, s1 := 0x40, lo := 0, width := 16, acc := .RO }
  | .LNK_P_PATH_ALLOW => { blk := .LNK, base := 0x1004, n1 := 32, s1 := 0x40, lo := 16, width := 16, acc := .RO }
  | .LNK_P_FEC_CORR_COUNT => { blk := .LNK, base := 0x1008, n1 := 32, s1 := 0x40, lo := 0, width := 32, acc := .RC, quiet := 0x20 }
  | .LNK_P_BAD_COUNT => { blk := .LNK, base := 0x100c, n1 := 32, s1 := 0x40, lo := 0, width := 32, acc := .RC, quiet := 0x20 }
  | .LNK_P_REPLAY_COUNT => { blk := .LNK, base := 0x1010, n1 := 32, s1 := 0x40, lo := 0, width := 32, acc := .RC, quiet := 0x20 }
  | .LNK_P_RPL_OK_COUNT => { blk := .LNK, base := 0x1014, n1 := 32, s1 := 0x40, lo := 0, width := 32, acc := .RC, quiet := 0x20 }
  | .LNK_P_ABANDON_COUNT => { blk := .LNK, base := 0x1018, n1 := 32, s1 := 0x40, lo := 0, width := 32, acc := .RC, quiet := 0x20 }
  | .LNK_P_LATE_COUNT => { blk := .LNK, base := 0x101c, n1 := 32, s1 := 0x40, lo := 0, width := 32, acc := .RC, quiet := 0x20 }
  | .MEM_CTRL_SR_REQ => { blk := .MEM, base := 0x0, lo := 0, width := 8, acc := .RW }
  | .MEM_CTRL_SCRUB_EN => { blk := .MEM, base := 0x0, lo := 8, width := 1, acc := .RW, reset := 1 }
  | .MEM_STAT_TRAINED => { blk := .MEM, base := 0x4, lo := 0, width := 8, acc := .RO }
  | .MEM_STAT_IN_SR => { blk := .MEM, base := 0x4, lo := 8, width := 8, acc := .RO }
  | .MEM_STAT_STITCH_OK => { blk := .MEM, base := 0x4, lo := 16, width := 1, acc := .RO }
  | .MEM_STAT_ID_OK => { blk := .MEM, base := 0x4, lo := 17, width := 1, acc := .RO }
  | .MEM_STAT_SR_REFUSED => { blk := .MEM, base := 0x4, lo := 18, width := 1, acc := .W1C }
  | .MEM_STAT_QUOTA_REFUSED => { blk := .MEM, base := 0x4, lo := 19, width := 1, acc := .W1C }
  | .MEM_SCRUB_HOURS => { blk := .MEM, base := 0x8, lo := 0, width := 8, acc := .RW, reset := 0x18 }
  | .MEM_WIN_BASE => { blk := .MEM, base := 0xc, lo := 0, width := 9, acc := .RW }
  | .MEM_REMAP_FAILCOL => { blk := .MEM, base := 0x200, n1 := 8, s1 := 0x8, n2 := 8, l2 := 8, size := 8, lo := 0, width := 5, acc := .RO, reset := 0x1f }
  | .MEM_REMAP_SPARE_BAD => { blk := .MEM, base := 0x200, n1 := 8, s1 := 0x8, n2 := 8, l2 := 8, size := 8, lo := 5, width := 1, acc := .RO }
  | .MEM_QUOTA_QUOTA => { blk := .MEM, base := 0x400, n1 := 128, s1 := 0x4, lo := 0, width := 7, acc := .RW }
  | .MEM_S_CE_COUNT => { blk := .MEM, base := 0x1000, n1 := 8, s1 := 0x40, lo := 0, width := 32, acc := .RC, quiet := 0x20 }
  | .MEM_S_UE_COUNT => { blk := .MEM, base := 0x1004, n1 := 8, s1 := 0x40, lo := 0, width := 32, acc := .RC, quiet := 0x20 }
  | .MEM_S_ADDR_ADDR => { blk := .MEM, base := 0x1008, n1 := 8, s1 := 0x40, size := 8, lo := 0, width := 36, acc := .RO }
  | .MEM_S_TEMP_TEMP => { blk := .MEM, base := 0x1010, n1 := 8, s1 := 0x40, lo := 0, width := 8, acc := .RO }
  | .MEM_T_STAT_UP => { blk := .MEM, base := 0x2000, n1 := 22, s1 := 0x20, lo := 0, width := 1, acc := .RO }
  | .MEM_T_STAT_SPARE_E => { blk := .MEM, base := 0x2000, n1 := 22, s1 := 0x20, lo := 4, width := 4, acc := .RO, reset := 0xf }
  | .MEM_T_STAT_SPARE_W => { blk := .MEM, base := 0x2000, n1 := 22, s1 := 0x20, lo := 8, width := 4, acc := .RO, reset := 0xf }
  | .MEM_T_CRC_COUNT => { blk := .MEM, base := 0x2004, n1 := 22, s1 := 0x20, lo := 0, width := 32, acc := .RC, quiet := 0x10 }
  | .MEM_T_CTL_RPL_COUNT => { blk := .MEM, base := 0x2008, n1 := 22, s1 := 0x20, lo := 0, width := 32, acc := .RC, quiet := 0x10 }
  | .MEM_T_TEST_MODE => { blk := .MEM, base := 0x200c, n1 := 22, s1 := 0x20, lo := 0, width := 3, acc := .RW }
  | .MEM_T_TEST_ERRS => { blk := .MEM, base := 0x200c, n1 := 22, s1 := 0x20, lo := 16, width := 16, acc := .RO }
  | .PNL_HOOD_FENCED => { blk := .PNL, base := 0x400, n1 := 1088, s1 := 0x4000, lo := 0, width := 1, acc := .W1C }
  | .PNL_HOOD_FUSED => { blk := .PNL, base := 0x400, n1 := 1088, s1 := 0x4000, lo := 1, width := 1, acc := .RO }
  | .PNL_HOOD_REMAPPED => { blk := .PNL, base := 0x400, n1 := 1088, s1 := 0x4000, lo := 2, width := 1, acc := .RO }
  | .LNK_COORD_SLOT => { blk := .LNK, base := 0x10, lo := 0, width := 4, acc := .RO }
  | .LNK_COORD_BOARD => { blk := .LNK, base := 0x10, lo := 4, width := 4, acc := .RO }
  | .LNK_COORD_RACK => { blk := .LNK, base := 0x10, lo := 8, width := 4, acc := .RL }
  | .LNK_COORD_BSIZE => { blk := .LNK, base := 0x10, lo := 12, width := 1, acc := .RO }
  | .LNK_COORD_RACKSET => { blk := .LNK, base := 0x10, lo := 13, width := 1, acc := .RO }
  | .LNK_COORD_STRAP_BAD => { blk := .LNK, base := 0x10, lo := 14, width := 1, acc := .RO }
  | .LNK_CONF_CTRL_RUN => { blk := .LNK, base := 0x14, lo := 0, width := 1, acc := .WO }
  | .LNK_CONF_CTRL_SYNC_AUTO => { blk := .LNK, base := 0x14, lo := 1, width := 1, acc := .RW, reset := 1 }
  | .LNK_CONF_CTRL_TSET => { blk := .LNK, base := 0x14, lo := 8, width := 1, acc := .WO }
  | .LNK_CONF_CTRL_TPORT => { blk := .LNK, base := 0x14, lo := 9, width := 5, acc := .RW }
  | .LNK_CONF_STAT_BUSY => { blk := .LNK, base := 0x18, lo := 0, width := 1, acc := .RO }
  | .LNK_CONF_STAT_DONE => { blk := .LNK, base := 0x18, lo := 1, width := 1, acc := .RO }
  | .LNK_CONF_STAT_REFUSED => { blk := .LNK, base := 0x18, lo := 2, width := 1, acc := .W1C }
  | .LNK_CONF_STAT_HOPS => { blk := .LNK, base := 0x18, lo := 8, width := 8, acc := .RO, reset := 0xff }
  | .LNK_CONF_MASK_PORTS => { blk := .LNK, base := 0x1c, lo := 0, width := 32, acc := .RW, reset := 0xffffffff }
  | .LNK_P_CONF_STATE => { blk := .LNK, base := 0x2000, n1 := 32, s1 := 0x10, lo := 0, width := 4, acc := .RO }
  | .LNK_P_CONF_FARPORT => { blk := .LNK, base := 0x2000, n1 := 32, s1 := 0x10, lo := 4, width := 6, acc := .RO, reset := 0x3f }
  | .LNK_P_CONF_FAR => { blk := .LNK, base := 0x2000, n1 := 32, s1 := 0x10, lo := 16, width := 12, acc := .RO }
  | .LNK_P_LAT_LAT => { blk := .LNK, base := 0x2004, n1 := 32, s1 := 0x10, lo := 0, width := 18, acc := .RO }
  | .LNK_P_SPR_SPREAD => { blk := .LNK, base := 0x2008, n1 := 32, s1 := 0x10, lo := 0, width := 6, acc := .RO }
  | .LNK_P_SPR_FARHOPS => { blk := .LNK, base := 0x2008, n1 := 32, s1 := 0x10, lo := 8, width := 8, acc := .RO, reset := 0xff }
  | .HRE_CTRL_ENABLE => { blk := .HRE, base := 0x0, lo := 0, width := 1, acc := .RW }
  | .HRE_POLL_PERIOD => { blk := .HRE, base := 0x4, lo := 0, width := 7, acc := .RW, reset := 0x10 }
  | .HRE_DMA_TO_TIMEOUT => { blk := .HRE, base := 0x8, lo := 0, width := 11, acc := .RW, reset := 0x14 }
  | .HRE_TAGS_INUSE => { blk := .HRE, base := 0xc, lo := 0, width := 13, acc := .RO }
  | .HRE_TAGS_QUAR => { blk := .HRE, base := 0xc, lo := 16, width := 13, acc := .RO }
  | .HRE_TO_CNT_COUNT => { blk := .HRE, base := 0x10, lo := 0, width := 32, acc := .RC, quiet := 0x100 }
  | .HRE_LATE_CNT_COUNT => { blk := .HRE, base := 0x14, lo := 0, width := 32, acc := .RC, quiet := 0x100 }
  | .HRE_LATE_LAST_TAG => { blk := .HRE, base := 0x18, lo := 0, width := 14, acc := .RO }
  | .HRE_LATE_LAST_LATE => { blk := .HRE, base := 0x18, lo := 16, width := 16, acc := .RO }
  | .RING_BASE_ADDR => { blk := .HRE, base := 0x1000, n1 := 129, n2 := 16, s2 := 0x40, size := 8, lo := 12, width := 52, acc := .RW }
  | .RING_DB_ADDR => { blk := .HRE, base := 0x1008, n1 := 129, n2 := 16, s2 := 0x40, size := 8, lo := 4, width := 60, acc := .RW }
  | .RING_CFG_LOG2N => { blk := .HRE, base := 0x1010, n1 := 129, n2 := 16, s2 := 0x40, lo := 0, width := 5, acc := .RW, reset := 6 }
  | .RING_CFG_ENABLE => { blk := .HRE, base := 0x1010, n1 := 129, n2 := 16, s2 := 0x40, lo := 8, width := 1, acc := .RW }
  | .RING_CFG_GEN => { blk := .HRE, base := 0x1010, n1 := 129, n2 := 16, s2 := 0x40, lo := 16, width := 8, acc := .RW }
  | .RING_WAIT_WAIT => { blk := .HRE, base := 0x1014, n1 := 129, n2 := 16, s2 := 0x40, lo := 0, width := 16, acc := .RW, reset := 0x64 }
  | .RING_STAT_DIDX => { blk := .HRE, base := 0x1018, n1 := 129, n2 := 16, s2 := 0x40, lo := 0, width := 32, acc := .RO }
  | .RING_ERR_IDX_ERR => { blk := .HRE, base := 0x101c, n1 := 129, n2 := 16, s2 := 0x40, lo := 0, width := 1, acc := .W1C }
  | .RING_ERR_RD_ERR => { blk := .HRE, base := 0x101c, n1 := 129, n2 := 16, s2 := 0x40, lo := 1, width := 1, acc := .W1C }
  | .RING_ERR_OVF => { blk := .HRE, base := 0x101c, n1 := 129, n2 := 16, s2 := 0x40, lo := 2, width := 1, acc := .W1C }
  | .RING_ERR_LOCKED => { blk := .HRE, base := 0x101c, n1 := 129, n2 := 16, s2 := 0x40, lo := 3, width := 1, acc := .RO }
  | .RING_DROP_COUNT => { blk := .HRE, base := 0x1020, n1 := 129, n2 := 16, s2 := 0x40, lo := 0, width := 32, acc := .RC, quiet := 0x10 }
  | .RING_KICK_KICK => { blk := .HRE, base := 0x1024, n1 := 129, n2 := 16, s2 := 0x40, lo := 0, width := 1, acc := .WO }
  | .PCX_LINK_RATE => { blk := .PCX, base := 0x0, lo := 0, width := 4, acc := .RO }
  | .PCX_LINK_WIDTH => { blk := .PCX, base := 0x0, lo := 4, width := 5, acc := .RO }
  | .PCX_LINK_FLIT => { blk := .PCX, base := 0x0, lo := 9, width := 1, acc := .RO }
  | .PCX_VF_ACT_ACTIVE => { blk := .PCX, base := 0x10, n1 := 4, s1 := 0x4, lo := 0, width := 32, acc := .RO }
  | .PCX_FLR_BUSY => { blk := .PCX, base := 0x20, n1 := 4, s1 := 0x4, lo := 0, width := 32, acc := .RO }
  | .PCX_BAR2_DROP_COUNT => { blk := .PCX, base := 0x30, lo := 0, width := 32, acc := .RC, quiet := 0x100 }
  | .PCX_EP_RX_COUNT => { blk := .PCX, base := 0x34, lo := 0, width := 32, acc := .RC, quiet := 0x100 }
  | .PCX_UR_COUNT => { blk := .PCX, base := 0x38, lo := 0, width := 32, acc := .RC, quiet := 0x100 }
  | .CTN_REQ_TO_TIMEOUT => { blk := .CTN, base := 0x0, lo := 0, width := 16, acc := .RW, reset := 0x3e8 }
  | .CTN_OVERDEPTH_COUNT => { blk := .CTN, base := 0x10, lo := 0, width := 32, acc := .RC, quiet := 0x100 }
  | .CTN_BADLEN_COUNT => { blk := .CTN, base := 0x14, lo := 0, width := 32, acc := .RC, quiet := 0x100 }
  | .CTN_BADCHAIN_COUNT => { blk := .CTN, base := 0x18, lo := 0, width := 32, acc := .RC, quiet := 0x100 }
  | .CTN_UNREACH_COUNT => { blk := .CTN, base := 0x1c, lo := 0, width := 32, acc := .RC, quiet := 0x100 }
  | .CTN_DENIED_COUNT => { blk := .CTN, base := 0x20, lo := 0, width := 32, acc := .RC, quiet := 0x100 }
  | .CTN_RECIRC_COUNT => { blk := .CTN, base := 0x24, lo := 0, width := 32, acc := .RC, quiet := 0x100 }
  | .CTN_BUSYDROP_COUNT => { blk := .CTN, base := 0x28, lo := 0, width := 32, acc := .RC, quiet := 0x100 }
  | .CTN_TIMEOUT_COUNT => { blk := .CTN, base := 0x2c, lo := 0, width := 32, acc := .RC, quiet := 0x100 }
  | .CTN_LATE_RPL_COUNT => { blk := .CTN, base := 0x30, lo := 0, width := 32, acc := .RC, quiet := 0x100 }
  | .CTN_LAST_DROP_REASON => { blk := .CTN, base := 0x40, lo := 0, width := 8, acc := .RO }
  | .CTN_LAST_DROP_STOP => { blk := .CTN, base := 0x40, lo := 8, width := 8, acc := .RO }
  | .CTN_LAST_DROP_KIND => { blk := .CTN, base := 0x40, lo := 16, width := 8, acc := .RO }
  | .CTN_LAST_DROP_SRC => { blk := .CTN, base := 0x40, lo := 24, width := 8, acc := .RO }
  | .CTN_PORT_RTX_COUNT => { blk := .CTN, base := 0x44, lo := 0, width := 32, acc := .RC, quiet := 0x100 }
  | .SEQ_MEM_SEL_CTX => { blk := .SEQ, base := 0x10, lo := 0, width := 7, acc := .RW }
  | .SEQ_MEM_SEL_SPACE => { blk := .SEQ, base := 0x10, lo := 10, width := 2, acc := .RW }
  | .SEQ_MEM_SEL_REFUSED => { blk := .SEQ, base := 0x10, lo := 12, width := 1, acc := .W1C }
  | .SEQ_MEM_ADDR_ADDR => { blk := .SEQ, base := 0x14, lo := 3, width := 15, acc := .RW }
  | .SEQ_MEM_DATA_DATA => { blk := .SEQ, base := 0x18, size := 8, lo := 0, width := 64, acc := .RW }
  | .SEQ_CTX_BIND_PART => { blk := .SEQ, base := 0x1000, n1 := 128, s1 := 0x40, lo := 0, width := 7, acc := .RO }
  | .SEQ_CTX_BIND_BOUND => { blk := .SEQ, base := 0x1000, n1 := 128, s1 := 0x40, lo := 7, width := 1, acc := .RO }
  | .SEQ_CTX_BIND_SIZE => { blk := .SEQ, base := 0x1000, n1 := 128, s1 := 0x40, lo := 8, width := 2, acc := .RO }
  | .SEQ_CTX_ENTRY_ENTRY => { blk := .SEQ, base := 0x1004, n1 := 128, s1 := 0x40, lo := 0, width := 16, acc := .RO }
  | .SEQ_CTX_STATE_STATE => { blk := .SEQ, base := 0x1008, n1 := 128, s1 := 0x40, lo := 0, width := 4, acc := .RO }
  | .SEQ_CTX_STATE_LOCKED => { blk := .SEQ, base := 0x1008, n1 := 128, s1 := 0x40, lo := 4, width := 1, acc := .RO }
  | .SEQ_CTX_STATE_PC => { blk := .SEQ, base := 0x1008, n1 := 128, s1 := 0x40, lo := 16, width := 16, acc := .RO }
  | .SEQ_CTX_EXC_CAUSE => { blk := .SEQ, base := 0x100c, n1 := 128, s1 := 0x40, lo := 0, width := 8, acc := .RO }
  | .SEQ_CTX_EXC_STATUS => { blk := .SEQ, base := 0x100c, n1 := 128, s1 := 0x40, lo := 8, width := 8, acc := .RO }
  | .SEQ_CTX_EXC_PC => { blk := .SEQ, base := 0x100c, n1 := 128, s1 := 0x40, lo := 16, width := 16, acc := .RO }
  | .SEQ_CTX_EXCW_WORD => { blk := .SEQ, base := 0x1010, n1 := 128, s1 := 0x40, lo := 0, width := 32, acc := .RO }
  | .SEQ_CTX_ID_LAYER => { blk := .SEQ, base := 0x1014, n1 := 128, s1 := 0x40, lo := 0, width := 16, acc := .RO }
  | .SEQ_CTX_ID_OPER => { blk := .SEQ, base := 0x1014, n1 := 128, s1 := 0x40, lo := 16, width := 16, acc := .RO }
  | .SEQ_CTX_RETIRED_COUNT => { blk := .SEQ, base := 0x1018, n1 := 128, s1 := 0x40, lo := 0, width := 32, acc := .RC, quiet := 0x10 }
  | .SEQ_CTX_LATE_COUNT => { blk := .SEQ, base := 0x101c, n1 := 128, s1 := 0x40, lo := 0, width := 32, acc := .RC, quiet := 0x10 }
  | .SEQ_CTX_LOCKFAIL_COUNT => { blk := .SEQ, base := 0x1020, n1 := 128, s1 := 0x40, lo := 0, width := 32, acc := .RC, quiet := 0x10 }
  | .SEQ_SEM_HELD => { blk := .SEQ, base := 0x3000, n1 := 128, s1 := 0x10, lo := 0, width := 32, acc := .RO }
  | .SEQ_SHR_BASE => { blk := .SEQ, base := 0x3004, n1 := 128, s1 := 0x10, lo := 0, width := 13, acc := .RO }
  | .SEQ_SHR_SIZE => { blk := .SEQ, base := 0x3004, n1 := 128, s1 := 0x10, lo := 16, width := 13, acc := .RO }
  | .CHK_CTRL_DIV_STOP => { blk := .CHK, base := 0x0, lo := 0, width := 1, acc := .RW }
  | .CHK_CLASS_DCLASS => { blk := .CHK, base := 0x4, lo := 0, width := 8, acc := .RO }
  | .CHK_RUN_FLAGS => { blk := .CHK, base := 0x1000, n1 := 128, s1 := 0x40, lo := 0, width := 6, acc := .RO }
  | .CHK_NDC_COUNT => { blk := .CHK, base := 0x1004, n1 := 128, s1 := 0x40, lo := 0, width := 32, acc := .RO }
  | .CHK_PC_CNT_COUNT => { blk := .CHK, base := 0x1008, n1 := 128, s1 := 0x40, size := 8, lo := 0, width := 64, acc := .RO }
  | .CHK_PC_SKIP_COUNT => { blk := .CHK, base := 0x1010, n1 := 128, s1 := 0x40, size := 8, lo := 0, width := 64, acc := .RO }
  | .CHK_SH_CNT_COUNT => { blk := .CHK, base := 0x1018, n1 := 128, s1 := 0x40, size := 8, lo := 0, width := 64, acc := .RO }
  | .CHK_CE_CNT_COUNT => { blk := .CHK, base := 0x1020, n1 := 128, s1 := 0x40, size := 8, lo := 0, width := 64, acc := .RO }
  | .CHK_RPL_CNT_COUNT => { blk := .CHK, base := 0x1028, n1 := 128, s1 := 0x40, size := 8, lo := 0, width := 64, acc := .RO }
  | .CHK_DIV_ENTRY => { blk := .CHK, base := 0x1030, n1 := 128, s1 := 0x40, size := 8, lo := 0, width := 32, acc := .RO }
  | .CHK_DIV_CAUSE => { blk := .CHK, base := 0x1030, n1 := 128, s1 := 0x40, size := 8, lo := 32, width := 3, acc := .RO }
  | .CHK_DIVCNT_COUNT => { blk := .CHK, base := 0x1038, n1 := 128, s1 := 0x40, size := 8, lo := 0, width := 32, acc := .RO }
  | .PRT_FREE_FREE => { blk := .PRT, base := 0x0, n1 := 4, s1 := 0x4, lo := 0, width := 32, acc := .RO, reset := 0xffffffff }
  | .PRT_GRAN_GRAN => { blk := .PRT, base := 0x1000, n1 := 128, s1 := 0x40, n2 := 4, s2 := 0x4, lo := 0, width := 32, acc := .RW }
  | .PRT_HBM_BASE_BASE => { blk := .PRT, base := 0x1010, n1 := 128, s1 := 0x40, lo := 0, width := 18, acc := .RW }
  | .PRT_HBM_SIZE_SIZE => { blk := .PRT, base := 0x1014, n1 := 128, s1 := 0x40, lo := 0, width := 18, acc := .RW }
  | .PRT_PORTS_PORTS => { blk := .PRT, base := 0x1018, n1 := 128, s1 := 0x40, lo := 0, width := 32, acc := .RW }
  | .PRT_LANES_LANES => { blk := .PRT, base := 0x101c, n1 := 128, s1 := 0x40, n2 := 3, s2 := 0x4, lo := 0, width := 32, acc := .RW }
  | .PRT_MPORT_MPORT => { blk := .PRT, base := 0x1028, n1 := 128, s1 := 0x40, lo := 0, width := 16, acc := .RW }
  | .PRT_LIMITS_CTXMAX => { blk := .PRT, base := 0x102c, n1 := 128, s1 := 0x40, lo := 0, width := 4, acc := .RW }
  | .PRT_LIMITS_SHR => { blk := .PRT, base := 0x102c, n1 := 128, s1 := 0x40, lo := 16, width := 13, acc := .RW }
  | .PRT_STAT_IMAGE => { blk := .PRT, base := 0x1030, n1 := 128, s1 := 0x40, lo := 0, width := 1, acc := .RO }
  | .PRT_STAT_CONFLICT => { blk := .PRT, base := 0x1030, n1 := 128, s1 := 0x40, lo := 1, width := 1, acc := .W1C }
  | .PRT_STAT_HELD => { blk := .PRT, base := 0x1030, n1 := 128, s1 := 0x40, lo := 2, width := 1, acc := .W1C }
  | .PWR_DOM_MODE_MODE => { blk := .PWR, base := 0x200, n1 := 5, s1 := 0x4, n2 := 16, l2 := 2, lo := 0, width := 2, acc := .RW }
  | .PWR_DOM_STAT_ON => { blk := .PWR, base := 0x220, n1 := 3, s1 := 0x4, lo := 0, width := 32, acc := .RO }
  | .PWR_DOM_NEED_NEED => { blk := .PWR, base := 0x230, n1 := 3, s1 := 0x4, lo := 0, width := 32, acc := .RO }
  | .PWR_DOM_ERR_OVERRIDDEN => { blk := .PWR, base := 0x240, lo := 0, width := 1, acc := .W1C }
  | .PWR_SHELF_ENTER => { blk := .PWR, base := 0x250, lo := 0, width := 1, acc := .WO }
  | .PWR_SHELF_WAKE => { blk := .PWR, base := 0x250, lo := 1, width := 1, acc := .WO }
  | .PWR_SHELF_STATE => { blk := .PWR, base := 0x250, lo := 4, width := 2, acc := .RO }
  | .PWR_SHELF_REFUSED => { blk := .PWR, base := 0x250, lo := 6, width := 1, acc := .W1C }
  | .PWR_SHELF_SRC => { blk := .PWR, base := 0x250, lo := 8, width := 2, acc := .RO }
  | .MON_DIE_TJ => { blk := .MON, base := 0x0, n1 := 8, s1 := 0x10, lo := 0, width := 8, acc := .RO }
  | .MON_DIE_POWER => { blk := .MON, base := 0x4, n1 := 8, s1 := 0x10, lo := 0, width := 16, acc := .RO }
  | .MON_DIE_PACE => { blk := .MON, base := 0x8, n1 := 8, s1 := 0x10, lo := 0, width := 9, acc := .RO }
  | .MON_BAND_TJ => { blk := .MON, base := 0x80, lo := 0, width := 8, acc := .RO }
  | .MON_BAND_PKGPWR => { blk := .MON, base := 0x84, lo := 0, width := 16, acc := .RO }
  | .CU_CTRL_EN => { blk := .MON, base := 0x1000, n1 := 16, s1 := 0x100, lo := 0, width := 1, acc := .RW }
  | .CU_CTRL_SNAP => { blk := .MON, base := 0x1000, n1 := 16, s1 := 0x100, lo := 1, width := 1, acc := .WO }
  | .CU_CTRL_CLRSNAP => { blk := .MON, base := 0x1000, n1 := 16, s1 := 0x100, lo := 2, width := 1, acc := .RW }
  | .CU_CTRL_MODE => { blk := .MON, base := 0x1000, n1 := 16, s1 := 0x100, lo := 3, width := 1, acc := .RW }
  | .CU_CTRL_PSCOPE => { blk := .MON, base := 0x1000, n1 := 16, s1 := 0x100, lo := 4, width := 1, acc := .RW }
  | .CU_CTRL_PART => { blk := .MON, base := 0x1000, n1 := 16, s1 := 0x100, lo := 8, width := 7, acc := .RW }
  | .CU_CTRL_SRC => { blk := .MON, base := 0x1000, n1 := 16, s1 := 0x100, lo := 16, width := 4, acc := .RW }
  | .CU_SCOPE_SCOPE => { blk := .MON, base := 0x1004, n1 := 16, s1 := 0x100, lo := 0, width := 32, acc := .RW }
  | .CU_BASE_BASE => { blk := .MON, base := 0x1008, n1 := 16, s1 := 0x100, lo := 0, width := 32, acc := .RW }
  | .CU_WIDTH_WIDTH => { blk := .MON, base := 0x100c, n1 := 16, s1 := 0x100, lo := 0, width := 32, acc := .RW, reset := 1 }
  | .CU_COUNT_COUNT => { blk := .MON, base := 0x1010, n1 := 16, s1 := 0x100, size := 8, lo := 0, width := 64, acc := .RO }
  | .CU_MIN_MIN => { blk := .MON, base := 0x1018, n1 := 16, s1 := 0x100, lo := 0, width := 32, acc := .RO, reset := 0xffffffff }
  | .CU_MAX_MAX => { blk := .MON, base := 0x101c, n1 := 16, s1 := 0x100, lo := 0, width := 32, acc := .RO }
  | .CU_LOST_LOST => { blk := .MON, base := 0x1020, n1 := 16, s1 := 0x100, lo := 0, width := 32, acc := .RO }
  | .CU_STAMP_TALLY => { blk := .MON, base := 0x1028, n1 := 16, s1 := 0x100, size := 8, lo := 0, width := 56, acc := .RO }
  | .CU_BIN_BIN => { blk := .MON, base := 0x1040, n1 := 16, s1 := 0x100, n2 := 16, s2 := 0x4, lo := 0, width := 32, acc := .RO }
  | .EVR_STAT_COUNT => { blk := .EVR, base := 0x0, lo := 0, width := 15, acc := .RO }
  | .EVR_STAT_FROZEN => { blk := .EVR, base := 0x0, lo := 15, width := 1, acc := .RO }
  | .EVR_STAT_HOLD => { blk := .EVR, base := 0x0, lo := 16, width := 4, acc := .RO }
  | .EVR_STAT_ARMED => { blk := .EVR, base := 0x0, lo := 20, width := 1, acc := .RO }
  | .EVR_STAT_STALE => { blk := .EVR, base := 0x0, lo := 21, width := 1, acc := .W1C }
  | .EVR_STAT_FRZ_TO => { blk := .EVR, base := 0x0, lo := 22, width := 1, acc := .W1C }
  | .EVR_WRITTEN_COUNT => { blk := .EVR, base := 0x4, lo := 0, width := 32, acc := .RO }
  | .EVR_OVF_COUNT => { blk := .EVR, base := 0x8, lo := 0, width := 32, acc := .RO }
  | .EVR_DROP_COUNT => { blk := .EVR, base := 0xc, lo := 0, width := 32, acc := .RO }
  | .EVR_FRZ_CNT_COUNT => { blk := .EVR, base := 0x10, lo := 0, width := 32, acc := .RO }
  | .EVR_MODE_FOLD => { blk := .EVR, base := 0x14, lo := 0, width := 16, acc := .RW, reset := 0xffff }
  | .EVR_VIS_VIS => { blk := .EVR, base := 0x18, lo := 0, width := 16, acc := .RW, reset := 0x74c }
  | .EVR_FREEZE_FREEZE => { blk := .EVR, base := 0x20, lo := 0, width := 1, acc := .RW }
  | .EVR_FREEZE_LIMIT => { blk := .EVR, base := 0x20, lo := 16, width := 16, acc := .RW, reset := 0x3e8 }
  | .EVR_PAGE_PAGE => { blk := .EVR, base := 0x24, lo := 0, width := 5, acc := .RW }
  | .EVR_NEXT_SLOT => { blk := .EVR, base := 0x28, lo := 0, width := 14, acc := .RO }
  | .EVR_CLR_ARM_QUOTE => { blk := .EVR, base := 0x30, lo := 0, width := 32, acc := .WO }
  | .EVR_CLR_COMMIT_QUOTE => { blk := .EVR, base := 0x34, lo := 0, width := 32, acc := .WO }
  | .EVR_STAMP_NEXT_SLOT => { blk := .EVR, base := 0x38, lo := 0, width := 6, acc := .RO }
  | .PNL_C_BUSY_COUNT => { blk := .PNL, base := 0x500, n1 := 1088, s1 := 0x4000, size := 8, lo := 0, width := 64, acc := .RO }
  | .PNL_C_MAC_COUNT => { blk := .PNL, base := 0x508, n1 := 1088, s1 := 0x4000, size := 8, lo := 0, width := 64, acc := .RO }
  | .PNL_C_OSB_COUNT => { blk := .PNL, base := 0x510, n1 := 1088, s1 := 0x4000, size := 8, lo := 0, width := 64, acc := .RO }
  | .PNL_C_PMB_COUNT => { blk := .PNL, base := 0x518, n1 := 1088, s1 := 0x4000, size := 8, lo := 0, width := 64, acc := .RO }
  | .PNL_C_INV_COUNT => { blk := .PNL, base := 0x520, n1 := 1088, s1 := 0x4000, lo := 0, width := 32, acc := .RO }
  | .PNL_C_OVF_COUNT => { blk := .PNL, base := 0x524, n1 := 1088, s1 := 0x4000, lo := 0, width := 32, acc := .RO }
  | .PNL_C_UNF_COUNT => { blk := .PNL, base := 0x528, n1 := 1088, s1 := 0x4000, lo := 0, width := 32, acc := .RO }
  | .PNL_C_SAT_COUNT => { blk := .PNL, base := 0x52c, n1 := 1088, s1 := 0x4000, lo := 0, width := 32, acc := .RO }
  | .DBG_CTRL_OPEN => { blk := .DBG, base := 0x0, lo := 0, width := 1, acc := .RW }
  | .DBG_CTRL_SESSION => { blk := .DBG, base := 0x0, lo := 16, width := 16, acc := .RW }
  | .DBG_DACC_ADDR_ADDR => { blk := .DBG, base := 0x10, size := 8, lo := 0, width := 52, acc := .RW }
  | .DBG_DACC_CTRL_GO => { blk := .DBG, base := 0x18, lo := 0, width := 1, acc := .WO }
  | .DBG_DACC_CTRL_SIDE => { blk := .DBG, base := 0x18, lo := 1, width := 1, acc := .RW }
  | .DBG_DACC_CTRL_BUSY => { blk := .DBG, base := 0x18, lo := 2, width := 1, acc := .RO }
  | .DBG_DACC_CTRL_ERR => { blk := .DBG, base := 0x18, lo := 3, width := 1, acc := .W1C }
  | .DBG_DACC_CTRL_PART => { blk := .DBG, base := 0x18, lo := 4, width := 7, acc := .RW }
  | .DBG_DACC_CTRL_STATUS => { blk := .DBG, base := 0x18, lo := 16, width := 8, acc := .RO }
  | .DBG_DACC_DATA_DATA => { blk := .DBG, base := 0x20, size := 8, lo := 0, width := 64, acc := .RO }
  | .DBG_OBW_USED_BYTES => { blk := .DBG, base := 0x30, lo := 0, width := 18, acc := .RO }
  | .DBG_SNAP_CTRL_GO => { blk := .DBG, base := 0x40, lo := 0, width := 1, acc := .WO }
  | .DBG_SNAP_CTRL_PART => { blk := .DBG, base := 0x40, lo := 8, width := 7, acc := .RW }
  | .DBG_SNAP_TALLY_TALLY => { blk := .DBG, base := 0x48, size := 8, lo := 0, width := 56, acc := .RO }
  | .DBG_SNAP_ENV_TJMAX => { blk := .DBG, base := 0x50, lo := 0, width := 8, acc := .RO }
  | .DBG_SNAP_ENV_PKGPWR => { blk := .DBG, base := 0x50, lo := 16, width := 16, acc := .RO }
  | .DBG_SNAP_CNT_COUNT => { blk := .DBG, base := 0x80, n1 := 7, s1 := 0x8, size := 8, lo := 0, width := 64, acc := .RO }
  | .DBG_HALT_STATE => { blk := .DBG, base := 0x1000, n1 := 128, s1 := 0x80, lo := 0, width := 2, acc := .RO }
  | .DBG_HALT_HARD => { blk := .DBG, base := 0x1000, n1 := 128, s1 := 0x80, lo := 2, width := 1, acc := .RO }
  | .DBG_HALT_LAPSED => { blk := .DBG, base := 0x1000, n1 := 128, s1 := 0x80, lo := 3, width := 1, acc := .W1C }
  | .DBG_HALT_CAUSE => { blk := .DBG, base := 0x1000, n1 := 128, s1 := 0x80, lo := 4, width := 4, acc := .RO }
  | .DBG_HSTEP_STEP => { blk := .DBG, base := 0x1004, n1 := 128, s1 := 0x80, lo := 0, width := 32, acc := .RO }
  | .DBG_HAT_TALLY => { blk := .DBG, base := 0x1008, n1 := 128, s1 := 0x80, size := 8, lo := 0, width := 56, acc := .RO }
  | .DBG_HLEN_H => { blk := .DBG, base := 0x1010, n1 := 128, s1 := 0x80, size := 8, lo := 0, width := 56, acc := .RO }
  | .DBG_BP_CTX => { blk := .DBG, base := 0x1020, n1 := 128, s1 := 0x80, n2 := 8, s2 := 0x4, lo := 0, width := 7, acc := .RW }
  | .DBG_BP_EN => { blk := .DBG, base := 0x1020, n1 := 128, s1 := 0x80, n2 := 8, s2 := 0x4, lo := 7, width := 1, acc := .RW }
  | .DBG_BP_PC => { blk := .DBG, base := 0x1020, n1 := 128, s1 := 0x80, n2 := 8, s2 := 0x4, lo := 16, width := 16, acc := .RW }
  | .DBG_BPHIT_HIT => { blk := .DBG, base := 0x1040, n1 := 128, s1 := 0x80, lo := 0, width := 8, acc := .W1C }
  | .DBG_TRC_CTRL_EN => { blk := .DBG, base := 0x1044, n1 := 128, s1 := 0x80, lo := 0, width := 4, acc := .RW }
  | .DBG_TRC_PROD_INDEX => { blk := .DBG, base := 0x1048, n1 := 128, s1 := 0x80, lo := 0, width := 32, acc := .RO }
  | .DBG_TRC_CONS_INDEX => { blk := .DBG, base := 0x104c, n1 := 128, s1 := 0x80, lo := 0, width := 32, acc := .RW }
  | .DBG_TRC_DROP_COUNT => { blk := .DBG, base := 0x1050, n1 := 128, s1 := 0x80, lo := 0, width := 32, acc := .RO }
  | .DBG_WDROP_COUNT => { blk := .DBG, base := 0x1054, n1 := 128, s1 := 0x80, lo := 0, width := 32, acc := .RO }
  | .DBG_TRC_SIZE_TSIZE => { blk := .DBG, base := 0x1058, n1 := 128, s1 := 0x80, lo := 0, width := 32, acc := .RO }
  | .DBG_WMASK_MASK => { blk := .DBG, base := 0x1060, n1 := 128, s1 := 0x80, size := 8, lo := 0, width := 64, acc := .RO }
  | .DBG_OBW_BYTES => { blk := .DBG, base := 0x1068, n1 := 128, s1 := 0x80, lo := 0, width := 18, acc := .RO }
  | .DBG_C_HBM_SRD_BYTES => { blk := .DBG, base := 0x8000, n1 := 128, s1 := 0x40, size := 8, lo := 0, width := 64, acc := .RO }
  | .DBG_C_HBM_SWR_BYTES => { blk := .DBG, base := 0x8008, n1 := 128, s1 := 0x40, size := 8, lo := 0, width := 64, acc := .RO }
  | .DBG_C_HBM_OTHER_BYTES => { blk := .DBG, base := 0x8010, n1 := 128, s1 := 0x40, size := 8, lo := 0, width := 64, acc := .RO }
  | .DBG_C_PORT_TX_TUFTS => { blk := .DBG, base := 0x8018, n1 := 128, s1 := 0x40, size := 8, lo := 0, width := 64, acc := .RO }
  | .DBG_C_PORT_RX_TUFTS => { blk := .DBG, base := 0x8020, n1 := 128, s1 := 0x40, size := 8, lo := 0, width := 64, acc := .RO }
  | .DBG_C_STITCH_TUFTS => { blk := .DBG, base := 0x8028, n1 := 128, s1 := 0x40, size := 8, lo := 0, width := 64, acc := .RO }
  | .DBG_C_OBS_BYTES => { blk := .DBG, base := 0x8030, n1 := 128, s1 := 0x40, size := 8, lo := 0, width := 64, acc := .RO }
  | .DBG_PORT_TX_CELLS => { blk := .DBG, base := 0x6000, n1 := 32, s1 := 0x10, size := 8, lo := 0, width := 64, acc := .RO }
  | .DBG_PORT_RX_CELLS => { blk := .DBG, base := 0x6008, n1 := 32, s1 := 0x10, size := 8, lo := 0, width := 64, acc := .RO }
  | .DBG_LANE_TUFTS => { blk := .DBG, base := 0x6200, n1 := 88, s1 := 0x8, size := 8, lo := 0, width := 64, acc := .RO }
  | .MBX_BOOT_STAGE => { blk := .MBX, base := 0x0, lo := 0, width := 4, acc := .RO, reset := 1 }
  | .MBX_BOOT_ERR => { blk := .MBX, base := 0x0, lo := 8, width := 4, acc := .RO }
  | .MBX_BOOT_SRC => { blk := .MBX, base := 0x0, lo := 12, width := 2, acc := .RO }
  | .MBX_BOOT_BOOTSEL => { blk := .MBX, base := 0x0, lo := 14, width := 2, acc := .RO }
  | .MBX_BOOT_TEST => { blk := .MBX, base := 0x0, lo := 16, width := 1, acc := .RO }
  | .MBX_BOOT_FAULT_IN => { blk := .MBX, base := 0x0, lo := 17, width := 1, acc := .RO }
  | .MBX_SETUP_COMMIT => { blk := .MBX, base := 0x4, lo := 0, width := 1, acc := .WO }
  | .MBX_SETUP_COMMITTED => { blk := .MBX, base := 0x4, lo := 1, width := 1, acc := .RO }
  | .MBX_SETUP_REFUSED => { blk := .MBX, base := 0x4, lo := 2, width := 1, acc := .W1C }
  | .MBX_PUSH_ADDR_ADDR => { blk := .MBX, base := 0x8, size := 8, lo := 0, width := 64, acc := .RW }
  | .MBX_PUSH_LEN_LEN => { blk := .MBX, base := 0x10, lo := 0, width := 24, acc := .RW }
  | .MBX_PUSH_CTRL_GO => { blk := .MBX, base := 0x14, lo := 0, width := 1, acc := .WO }
  | .MBX_PUSH_CTRL_BUSY => { blk := .MBX, base := 0x14, lo := 1, width := 1, acc := .RO }
  | .MBX_PUSH_CTRL_FAIL => { blk := .MBX, base := 0x14, lo := 2, width := 1, acc := .W1C }
  | .MBX_FAULT_FORCE => { blk := .MBX, base := 0x18, lo := 0, width := 1, acc := .RW }
  | .MBX_FAULT_OVERTEMP => { blk := .MBX, base := 0x18, lo := 1, width := 1, acc := .RO }
  | .MBX_FAULT_AVS => { blk := .MBX, base := 0x18, lo := 2, width := 1, acc := .W1C }
  | .MBX_FAULT_TRIP => { blk := .MBX, base := 0x18, lo := 3, width := 1, acc := .RO }
  | .IDN_DEV_STEPPING => { blk := .IDN, base := 0x0, lo := 0, width := 8, acc := .RO }
  | .IDN_DEV_GRADE => { blk := .IDN, base := 0x0, lo := 8, width := 2, acc := .RO }
  | .IDN_DEV_DCLASS => { blk := .IDN, base := 0x0, lo := 16, width := 8, acc := .RO }
  | .IDN_PART_PART => { blk := .IDN, base := 0x4, lo := 0, width := 16, acc := .RO, reset := 0xe710 }
  | .IDN_SVN_SVN_MIN => { blk := .IDN, base := 0x8, lo := 0, width := 16, acc := .RO }
  | .IDN_KEYDIG_KEYDIG => { blk := .IDN, base := 0x40, n1 := 6, s1 := 0x8, size := 8, lo := 0, width := 64, acc := .RO }
  | .IDN_DIE_POS => { blk := .IDN, base := 0x100, n1 := 9, s1 := 0x20, lo := 0, width := 4, acc := .RO }
  | .IDN_SERIAL_SERIAL => { blk := .IDN, base := 0x108, n1 := 9, s1 := 0x20, size := 8, lo := 0, width := 64, acc := .RO }
  | .IDN_FAIL_FAILCOL => { blk := .IDN, base := 0x110, n1 := 9, s1 := 0x20, n2 := 8, l2 := 8, size := 8, lo := 0, width := 5, acc := .RO }
  | .IDN_FAIL_SPARE_BAD => { blk := .IDN, base := 0x110, n1 := 9, s1 := 0x20, n2 := 8, l2 := 8, size := 8, lo := 5, width := 1, acc := .RO }

/-- Fields 0 and on. -/
def all0 : List Fld :=
  [.TIM_CTRL_CROWN, .TIM_CTRL_SERVO_EN, .TIM_CTRL_SET_ACCEPT, .TIM_CTRL_SET_ALL, .TIM_STATUS_LOCK, .TIM_STATUS_SERVO_LIMIT, .TIM_STATUS_SLIP, .TIM_STATUS_TREF_LOST, .TIM_STATUS_TREF_PRESENT, .TIM_STATUS_SET_REFUSED, .TIM_STATUS_CONFLICT, .TIM_PHASE_TRIM, .TIM_PHASE_OFFSET, .TIM_PHASE_EXCH, .TIM_SYNC_PARENT_PORT, .TIM_TALLY_TALLY, .TIM_TICK_TICK, .TIM_LAUNCH_LEAD_LEAD, .TIM_COMMIT_MARGIN_MARGIN, .TIM_EVT_CTRL_ARM, .TIM_EVT_CTRL_POLARITY, .TIM_EVT_CTRL_MISSED, .TIM_EVT_CTRL_WIDTH, .TIM_EVT_CTRL_PERIOD, .TIM_EVT_AT_AT, .TIM_CAP_CTRL_ENABLE, .TIM_CAP_CTRL_EDGE, .TIM_CAP_OVF_LOST, .TIM_CAP_FIFO_TALLY, .TIM_CAP_FIFO_FRACTION, .TIM_CAP_FIFO_VALID, .TIM_PHASE_BASE_BASE, .TIM_LAUNCH_AT_AT, .TIM_LAUNCH_STATE_STATE, .TIM_LAUNCH_STATE_DIL, .TIM_LAUNCH_STATE_REFUSE, .PWR_PACE_FLOOR_FLOOR, .PWR_SLACK_WARN_SLACK, .PWR_PACE_EVT_SLACK_WARN, .PWR_PACE_EVT_THERM_WARN]
/-- Fields 40 and on. -/
def all1 : List Fld :=
  [.PWR_PACE_EVT_LATE_STEP, .PWR_PACE_CTRL_TARGET, .PWR_PACE_CTRL_APPLIED, .PNL_STRETCH_COUNT, .PNL_SEAM_HOLD_COUNT, .PNL_SEAM_WAIT_COUNT, .PNL_STEP_STAT_LATE, .PNL_STEP_STAT_SLACK, .PNL_SL_CFG_SLR, .PNL_SL_CFG_DIRN, .PNL_SL_STAT_ACTIVE, .PNL_SL_STAT_QUEUED, .PNL_SL_STAT_LASTSEEN, .PNL_SL_STAT_ERR, .PNL_SL_STEP_STEP, .PNL_SL_POS_WORD, .PNL_SL_POS_DIR, .PNL_SL_ERRID_LAYER, .PNL_SL_ERRID_OPER, .PNL_SL_SBIND_SEND, .PNL_SL_RBIND_RECV, .LNK_CRC_FAIL_COUNT, .LNK_MISMATCH_COUNT, .LNK_SUBST_COUNT, .LNK_STRAY_COUNT, .LNK_MAP_SEL_PORT, .LNK_MAP_SEL_BANK, .LNK_MAP_INFO_OWNER, .LNK_MAP_INFO_USED, .LNK_MAP_INFO_FAR, .LNK_MAP_INFO_PEAK, .LNK_MAP_LEN_FLEN, .LNK_MAP_LEN_DEPS, .LNK_MAP_DATA_BITMAP, .LNK_BANK_ACTIVE, .LNK_BANK_PENDING, .LNK_BANK_REFUSED, .LNK_P_STAT_UP, .LNK_P_STAT_OPTICAL, .LNK_P_STAT_REACH]
/-- Fields 80 and on. -/
def all2 : List Fld :=
  [.LNK_P_STAT_OWNER, .LNK_P_STAT_OWNED, .LNK_P_PATH_FLIGHT, .LNK_P_PATH_ALLOW, .LNK_P_FEC_CORR_COUNT, .LNK_P_BAD_COUNT, .LNK_P_REPLAY_COUNT, .LNK_P_RPL_OK_COUNT, .LNK_P_ABANDON_COUNT, .LNK_P_LATE_COUNT, .MEM_CTRL_SR_REQ, .MEM_CTRL_SCRUB_EN, .MEM_STAT_TRAINED, .MEM_STAT_IN_SR, .MEM_STAT_STITCH_OK, .MEM_STAT_ID_OK, .MEM_STAT_SR_REFUSED, .MEM_STAT_QUOTA_REFUSED, .MEM_SCRUB_HOURS, .MEM_WIN_BASE, .MEM_REMAP_FAILCOL, .MEM_REMAP_SPARE_BAD, .MEM_QUOTA_QUOTA, .MEM_S_CE_COUNT, .MEM_S_UE_COUNT, .MEM_S_ADDR_ADDR, .MEM_S_TEMP_TEMP, .MEM_T_STAT_UP, .MEM_T_STAT_SPARE_E, .MEM_T_STAT_SPARE_W, .MEM_T_CRC_COUNT, .MEM_T_CTL_RPL_COUNT, .MEM_T_TEST_MODE, .MEM_T_TEST_ERRS, .PNL_HOOD_FENCED, .PNL_HOOD_FUSED, .PNL_HOOD_REMAPPED, .LNK_COORD_SLOT, .LNK_COORD_BOARD, .LNK_COORD_RACK]
/-- Fields 120 and on. -/
def all3 : List Fld :=
  [.LNK_COORD_BSIZE, .LNK_COORD_RACKSET, .LNK_COORD_STRAP_BAD, .LNK_CONF_CTRL_RUN, .LNK_CONF_CTRL_SYNC_AUTO, .LNK_CONF_CTRL_TSET, .LNK_CONF_CTRL_TPORT, .LNK_CONF_STAT_BUSY, .LNK_CONF_STAT_DONE, .LNK_CONF_STAT_REFUSED, .LNK_CONF_STAT_HOPS, .LNK_CONF_MASK_PORTS, .LNK_P_CONF_STATE, .LNK_P_CONF_FARPORT, .LNK_P_CONF_FAR, .LNK_P_LAT_LAT, .LNK_P_SPR_SPREAD, .LNK_P_SPR_FARHOPS, .HRE_CTRL_ENABLE, .HRE_POLL_PERIOD, .HRE_DMA_TO_TIMEOUT, .HRE_TAGS_INUSE, .HRE_TAGS_QUAR, .HRE_TO_CNT_COUNT, .HRE_LATE_CNT_COUNT, .HRE_LATE_LAST_TAG, .HRE_LATE_LAST_LATE, .RING_BASE_ADDR, .RING_DB_ADDR, .RING_CFG_LOG2N, .RING_CFG_ENABLE, .RING_CFG_GEN, .RING_WAIT_WAIT, .RING_STAT_DIDX, .RING_ERR_IDX_ERR, .RING_ERR_RD_ERR, .RING_ERR_OVF, .RING_ERR_LOCKED, .RING_DROP_COUNT, .RING_KICK_KICK]
/-- Fields 160 and on. -/
def all4 : List Fld :=
  [.PCX_LINK_RATE, .PCX_LINK_WIDTH, .PCX_LINK_FLIT, .PCX_VF_ACT_ACTIVE, .PCX_FLR_BUSY, .PCX_BAR2_DROP_COUNT, .PCX_EP_RX_COUNT, .PCX_UR_COUNT, .CTN_REQ_TO_TIMEOUT, .CTN_OVERDEPTH_COUNT, .CTN_BADLEN_COUNT, .CTN_BADCHAIN_COUNT, .CTN_UNREACH_COUNT, .CTN_DENIED_COUNT, .CTN_RECIRC_COUNT, .CTN_BUSYDROP_COUNT, .CTN_TIMEOUT_COUNT, .CTN_LATE_RPL_COUNT, .CTN_LAST_DROP_REASON, .CTN_LAST_DROP_STOP, .CTN_LAST_DROP_KIND, .CTN_LAST_DROP_SRC, .CTN_PORT_RTX_COUNT, .SEQ_MEM_SEL_CTX, .SEQ_MEM_SEL_SPACE, .SEQ_MEM_SEL_REFUSED, .SEQ_MEM_ADDR_ADDR, .SEQ_MEM_DATA_DATA, .SEQ_CTX_BIND_PART, .SEQ_CTX_BIND_BOUND, .SEQ_CTX_BIND_SIZE, .SEQ_CTX_ENTRY_ENTRY, .SEQ_CTX_STATE_STATE, .SEQ_CTX_STATE_LOCKED, .SEQ_CTX_STATE_PC, .SEQ_CTX_EXC_CAUSE, .SEQ_CTX_EXC_STATUS, .SEQ_CTX_EXC_PC, .SEQ_CTX_EXCW_WORD, .SEQ_CTX_ID_LAYER]
/-- Fields 200 and on. -/
def all5 : List Fld :=
  [.SEQ_CTX_ID_OPER, .SEQ_CTX_RETIRED_COUNT, .SEQ_CTX_LATE_COUNT, .SEQ_CTX_LOCKFAIL_COUNT, .SEQ_SEM_HELD, .SEQ_SHR_BASE, .SEQ_SHR_SIZE, .CHK_CTRL_DIV_STOP, .CHK_CLASS_DCLASS, .CHK_RUN_FLAGS, .CHK_NDC_COUNT, .CHK_PC_CNT_COUNT, .CHK_PC_SKIP_COUNT, .CHK_SH_CNT_COUNT, .CHK_CE_CNT_COUNT, .CHK_RPL_CNT_COUNT, .CHK_DIV_ENTRY, .CHK_DIV_CAUSE, .CHK_DIVCNT_COUNT, .PRT_FREE_FREE, .PRT_GRAN_GRAN, .PRT_HBM_BASE_BASE, .PRT_HBM_SIZE_SIZE, .PRT_PORTS_PORTS, .PRT_LANES_LANES, .PRT_MPORT_MPORT, .PRT_LIMITS_CTXMAX, .PRT_LIMITS_SHR, .PRT_STAT_IMAGE, .PRT_STAT_CONFLICT, .PRT_STAT_HELD, .PWR_DOM_MODE_MODE, .PWR_DOM_STAT_ON, .PWR_DOM_NEED_NEED, .PWR_DOM_ERR_OVERRIDDEN, .PWR_SHELF_ENTER, .PWR_SHELF_WAKE, .PWR_SHELF_STATE, .PWR_SHELF_REFUSED, .PWR_SHELF_SRC]
/-- Fields 240 and on. -/
def all6 : List Fld :=
  [.MON_DIE_TJ, .MON_DIE_POWER, .MON_DIE_PACE, .MON_BAND_TJ, .MON_BAND_PKGPWR, .CU_CTRL_EN, .CU_CTRL_SNAP, .CU_CTRL_CLRSNAP, .CU_CTRL_MODE, .CU_CTRL_PSCOPE, .CU_CTRL_PART, .CU_CTRL_SRC, .CU_SCOPE_SCOPE, .CU_BASE_BASE, .CU_WIDTH_WIDTH, .CU_COUNT_COUNT, .CU_MIN_MIN, .CU_MAX_MAX, .CU_LOST_LOST, .CU_STAMP_TALLY, .CU_BIN_BIN, .EVR_STAT_COUNT, .EVR_STAT_FROZEN, .EVR_STAT_HOLD, .EVR_STAT_ARMED, .EVR_STAT_STALE, .EVR_STAT_FRZ_TO, .EVR_WRITTEN_COUNT, .EVR_OVF_COUNT, .EVR_DROP_COUNT, .EVR_FRZ_CNT_COUNT, .EVR_MODE_FOLD, .EVR_VIS_VIS, .EVR_FREEZE_FREEZE, .EVR_FREEZE_LIMIT, .EVR_PAGE_PAGE, .EVR_NEXT_SLOT, .EVR_CLR_ARM_QUOTE, .EVR_CLR_COMMIT_QUOTE, .EVR_STAMP_NEXT_SLOT]
/-- Fields 280 and on. -/
def all7 : List Fld :=
  [.PNL_C_BUSY_COUNT, .PNL_C_MAC_COUNT, .PNL_C_OSB_COUNT, .PNL_C_PMB_COUNT, .PNL_C_INV_COUNT, .PNL_C_OVF_COUNT, .PNL_C_UNF_COUNT, .PNL_C_SAT_COUNT, .DBG_CTRL_OPEN, .DBG_CTRL_SESSION, .DBG_DACC_ADDR_ADDR, .DBG_DACC_CTRL_GO, .DBG_DACC_CTRL_SIDE, .DBG_DACC_CTRL_BUSY, .DBG_DACC_CTRL_ERR, .DBG_DACC_CTRL_PART, .DBG_DACC_CTRL_STATUS, .DBG_DACC_DATA_DATA, .DBG_OBW_USED_BYTES, .DBG_SNAP_CTRL_GO, .DBG_SNAP_CTRL_PART, .DBG_SNAP_TALLY_TALLY, .DBG_SNAP_ENV_TJMAX, .DBG_SNAP_ENV_PKGPWR, .DBG_SNAP_CNT_COUNT, .DBG_HALT_STATE, .DBG_HALT_HARD, .DBG_HALT_LAPSED, .DBG_HALT_CAUSE, .DBG_HSTEP_STEP, .DBG_HAT_TALLY, .DBG_HLEN_H, .DBG_BP_CTX, .DBG_BP_EN, .DBG_BP_PC, .DBG_BPHIT_HIT, .DBG_TRC_CTRL_EN, .DBG_TRC_PROD_INDEX, .DBG_TRC_CONS_INDEX, .DBG_TRC_DROP_COUNT]
/-- Fields 320 and on. -/
def all8 : List Fld :=
  [.DBG_WDROP_COUNT, .DBG_TRC_SIZE_TSIZE, .DBG_WMASK_MASK, .DBG_OBW_BYTES, .DBG_C_HBM_SRD_BYTES, .DBG_C_HBM_SWR_BYTES, .DBG_C_HBM_OTHER_BYTES, .DBG_C_PORT_TX_TUFTS, .DBG_C_PORT_RX_TUFTS, .DBG_C_STITCH_TUFTS, .DBG_C_OBS_BYTES, .DBG_PORT_TX_CELLS, .DBG_PORT_RX_CELLS, .DBG_LANE_TUFTS, .MBX_BOOT_STAGE, .MBX_BOOT_ERR, .MBX_BOOT_SRC, .MBX_BOOT_BOOTSEL, .MBX_BOOT_TEST, .MBX_BOOT_FAULT_IN, .MBX_SETUP_COMMIT, .MBX_SETUP_COMMITTED, .MBX_SETUP_REFUSED, .MBX_PUSH_ADDR_ADDR, .MBX_PUSH_LEN_LEN, .MBX_PUSH_CTRL_GO, .MBX_PUSH_CTRL_BUSY, .MBX_PUSH_CTRL_FAIL, .MBX_FAULT_FORCE, .MBX_FAULT_OVERTEMP, .MBX_FAULT_AVS, .MBX_FAULT_TRIP, .IDN_DEV_STEPPING, .IDN_DEV_GRADE, .IDN_DEV_DCLASS, .IDN_PART_PART, .IDN_SVN_SVN_MIN, .IDN_KEYDIG_KEYDIG, .IDN_DIE_POS, .IDN_SERIAL_SERIAL]
/-- Fields 360 and on. -/
def all9 : List Fld :=
  [.IDN_FAIL_FAILCOL, .IDN_FAIL_SPARE_BAD]

/-- Every field. -/
def all : List Fld := all0 ++ all1 ++ all2 ++ all3 ++ all4 ++ all5 ++ all6 ++ all7 ++ all8 ++ all9

/-- The number of elements of a field. -/
def count (f : Fld) : Nat := f.info.n1 * f.info.n2

/-- The key of element `i` of a field in the register file. -/
def key (f : Fld) (i : Nat) : Nat := i * 512 + f.ctorIdx

end Fld
end Sys2Proof.Machine
end

