-- ==== Sys2Proof/Machine/State.lean ====
section
/-! DEFINITION. The state of one Evone device (one member), as plain data. A register field's home is the register
file `regs`; everything the rules speak of and no register shows has a named field here. -/
namespace Sys2Proof.Machine

/-- One captured TALLY_CAP edge (R76). -/
structure CapEntry where
  tally : Nat := 0
  frac  : Nat := 0
  deriving DecidableEq, Repr

/-- The parent's side of a sync exchange on one port (R51). Times in 1/64 slot. -/
structure SyncSide where
  t1 : Nat := 0
  t2 : Nat := 0
  x  : Nat := 0
  t3 : Option Nat := none
  deriving DecidableEq, Repr

/-- Time base: slot clock source, servo, sync exchange, TALLY_EVT and TALLY_CAP (R44-R55, R74-R77, R779). `slots` counts the edges
of the slot clock, which no tally-set changes; widths and intervals in slots are counted on it. `exch` holds the child's exchanges
on the way, oldest first, as (t1, t4 once the reply cell has arrived); `pathLat` is the path latency of the last one in 1/64 slot
(R52). `evtSched` is TALLY_EVT's pulse schedule as (first count, period, 0 for one-shot); `evtWas` the schedule before a write of
TIM_EVT_AT in slot `.1`, in force until that slot ends (R88); `evtEnd` and `capLast` are counts of `slots`. -/
structure TimeBase where
  slots    : Nat := 0
  holdover : Bool := false
  lockOk   : Bool := false
  goodExch : Nat := 0
  exch     : List (Nat × Option Nat) := []
  pathLat  : Int := 0
  parent   : SMap SyncSide := []
  marks    : List Nat := []
  syncMsgs : List (Nat × Nat × Nat × Nat) := []
  evtSched : Option (Nat × Nat) := none
  evtWas   : Option (Nat × Option (Nat × Nat)) := none
  evtEnd   : Option Nat := none
  evtLevel : Bool := false
  capLast  : Option Nat := none
  cap      : List CapEntry := []
  deriving DecidableEq, Repr

/-- An event record (R652). -/
structure Rec where
  code   : Nat := 0
  sev    : Nat := 0
  folded : Bool := false
  tlock  : Bool := false
  held   : Bool := false
  froze  : Bool := false
  part   : Option Nat := none
  skind  : Nat := 0
  sindex : Nat := 0
  rept   : Nat := 0
  tick   : Nat := 0
  tally  : Nat := 0
  order  : Nat := 0
  detail : Nat := 0
  deriving DecidableEq, Repr

/-- The event recorder (R651-R665): the log in order of creation with each record's slot, per class the slot of its
most recent record, the holding area, records kept apart during a freeze, the freeze deadline, the armed clear and
the stamp index. -/
structure Recorder where
  log      : List (Nat × Rec) := []
  last     : SMap Nat := []
  hold     : List Rec := []
  kept     : List Ev := []
  deadline : Nat := 0
  armed    : Option (Nat × Nat) := none
  stamps   : SMap (List Byte) := []
  deriving DecidableEq, Repr

/-- What a request with RXP = 1 was sent for (R461, R488, R690); a debug read carries its SIDE. -/
inductive Purp where
  | ldr (x : Nat) (rd : Nat)
  | str (x : Nat)
  | dacc (side : Bool)
  | tap (side : Bool)
  deriving DecidableEq, Repr

/-- An outstanding request of a stop: its purpose and the local tick of its timeout (R461). -/
structure Req where
  purp : Purp
  due  : Nat := 0
  deriving DecidableEq, Repr

/-- The control rings. Keys: `2 * stop + reply` for packets waiting to enter and for ejection queues,
`4 * stop + 2 * reply + urgent` for ring buffers, `256 * stop + rtag` for requests and retired tags. -/
structure Ctl where
  wait    : SMap (List Packet) := []
  bufs    : SMap (List Packet) := []
  ejq     : SMap (List Packet) := []
  reqs    : SMap Req := []
  retired : SMap Nat := []
  deriving DecidableEq, Repr

/-- A frame staged for an egress ring (R409, R427). `due` is the local tick at which its wait ends (R428). -/
structure Frame where
  fseq  : Nat := 0
  part  : Nat := 0
  watch : Bool := false
  step  : Nat := 0
  layer : Nat := 0
  oper  : Nat := 0
  src   : Nat := 0
  bytes : List Byte := []
  due   : Option Nat := none
  dropped : Bool := false
  deriving DecidableEq, Repr

/-- One ring of one function beyond its registers (R391-R395, R398, R406, R413, R414, R420, R427-R430). `dgen` is the generation last
accepted; `infl` counts the descriptors that a read on the way fetches; `owed` says that a shadow could not be written while the link
was down; `polled` is the local tick of the last background read; `part` the partition whose image the ring serves. -/
structure Ring where
  hidx    : Nat := 0
  dgen    : Nat := 0
  infl    : Nat := 0
  owed    : Bool := false
  polled  : Nat := 0
  part    : Option Nat := none
  pause   : Bool := false
  notify  : Bool := false
  stopped : Bool := false
  ovf     : Bool := false
  fetched : List (List Byte) := []
  fidx    : Nat := 0
  frames  : List Frame := []
  gap     : Option (Nat × Nat) := none
  fseq    : Nat := 0
  eseq    : Nat := 0
  lost    : Nat := 0
  seen    : List (Nat × Nat) := []
  deriving DecidableEq, Repr

/-- A completion record formed at tally `formed` and not yet written (R410). -/
structure Cplr where
  kind   : Nat := 0
  irq    : Bool := false
  status : Nat := 0
  tag    : Nat := 0
  detail : List Byte := []
  cont   : List Byte := []
  formed : Nat := 0
  deriving DecidableEq, Repr

/-- An MSI-X table entry (R417, R419). -/
structure Msix where
  addr    : Nat := 0
  data    : Nat := 0
  masked  : Bool := true
  pending : Bool := false
  deriving DecidableEq, Repr

/-- A function of the endpoint (R386, R415-R419). `lost` counts records lost and not yet reported; `flr` says that its rings are disabled
once its partition's run has stopped (R439). -/
structure Func where
  cq      : List Cplr := []
  backlog : List Cplr := []
  lost    : Nat := 0
  msix    : Msix := {}
  vfEn    : Bool := false
  flr     : Bool := false
  deriving DecidableEq, Repr

/-- What a DMA read is for (R426): a doorbell word in the background; descriptors of a submission ring or of an egress ring; of intake
point `k` of partition `q` the doorbell word, the `n` descriptors from the `i`-th on, or the bytes of input `j` from `off` on; the bytes
of a LOAD source from `off` on, on the second pass or the first; a firmware push (R734); or nothing, because a reset or a new enable of the
ring has ended what it was for. -/
inductive DmaPurp where
  | doorbell (fn r : Nat)
  | sub (fn idx n : Nat)
  | bufs (fn r idx n : Nat)
  | point (q k : Nat)
  | desc (q k i n : Nat)
  | input (q k j off : Nat)
  | load (fn : Nat) (second : Bool) (off : Nat)
  | push
  | void
  deriving DecidableEq, Repr

/-- An outstanding DMA read (R422): the local tick of its timeout, and the timeout it was issued under. -/
structure Dma where
  purp : DmaPurp
  addr : Nat := 0
  len  : Nat := 0
  due  : Nat := 0
  limit : Nat := 0
  deriving DecidableEq, Repr

/-- A LOAD command whose source the ring engine reads from host memory (R397, R426, R523): its descriptor, what the two passes have
returned so far by offset, the reads of the pass not yet returned, and whether the second pass is being read. -/
structure LoadJob where
  desc   : List Byte := []
  got1   : SMap (List Byte) := []
  got2   : SMap (List Byte) := []
  left   : Nat := 0
  second : Bool := false
  deriving DecidableEq, Repr

/-- The ring engine: rings by `16 * fn + r`, functions, outstanding reads and quarantined tags with the tick of
their expiry and the tick at which they leave quarantine (R422, R423); LOAD commands being read, by function; the ring slot after the
one that the background poll read last (R420); the maximum payload and read request sizes of the Device Control register, as that
register encodes them (R384). -/
structure Hre where
  rings : SMap Ring := []
  funcs : SMap Func := []
  dma   : SMap Dma := []
  quar  : SMap (Nat × Nat) := []
  dmaWait : List (DmaPurp × Nat × Nat) := []
  loads : SMap LoadJob := []
  pollNext : Nat := 0
  payCode  : Nat := 0
  readCode : Nat := 2
  deriving DecidableEq, Repr

/-- Where an intake point stands (R401-R404): not reached; its read issued; performed; skipped; its read failed; its fault
reported. -/
inductive IntakeSt where
  | waiting | reading | done | skipped | failed | faulted
  deriving DecidableEq, Repr

/-- What the reads of an intake point have returned (R401-R403): how many new descriptors the doorbell word showed from index `base` on,
whether it had an index error, the descriptors that the point takes, their bytes by place, the inputs by `2 ^ 32 * place + offset`, and
the reads not yet returned. -/
structure InRead where
  shown  : Nat := 0
  bad    : Bool := false
  base   : Nat := 0
  takes  : Nat := 0
  descs  : SMap (List Byte) := []
  inputs : SMap (List Byte) := []
  left   : Nat := 0
  deriving DecidableEq, Repr

/-- What a partition holds of its block image (R520-R527). `memb` is the packed (i, j, s) this device is bound to. -/
structure Image where
  digest    : List Byte := []
  pace      : Nat := 0
  nrsys     : Nat := 1
  nbsys     : Nat := 1
  nr        : Nat := 1
  nb        : Nat := 1
  bsize     : Bool := false
  steps     : Nat := 1
  stopreach : Nat := 0
  hopb      : Nat := 0
  foldkey   : List Byte := []
  rOrg      : Nat := 0
  bOrg      : Nat := 0
  memb      : Nat := 0
  img       : BlockImage := {}
  deriving DecidableEq, Repr

/-- A debug halt of a run (R678-R686). -/
structure HaltSt where
  msg      : HaltMsg := {}
  commit   : Bool := false
  armedBy  : List Nat := []
  cmds     : List (Nat × Nat × Bool) := []
  deriving DecidableEq, Repr

/-- One partition. `loadFn` is the function that submitted the last LOAD (R412), `loadBy` the one whose LOAD is being applied, with its TAG
and IRQ, `ringFn` the one whose rings serve the image held. `msg` is the arm message the member took, `cmsg` the launch that the device coordinates as the crown; `ends` the
reports that wait for the end of the step, each with the panel window that reports it, if one does, the event's DETAIL and whether an
event is due (R244, R265); `plan` the contexts that the image being applied will get, as (place in its declaration, context). Launch and run bookkeeping of R63-R68, R533-R546, R539-R542, R566-R573, R583, R585. `inLog` holds the hashed
parts of the log entries by intake point; `flrStop` says that a function or PCIe reset met it, `missCommit` that a PCIe reset met
it before its commit (R439, R725, R757). -/
structure Part where
  image     : Option Image := none
  loading   : Option Image := none
  loadFn    : Nat := 0
  loadBy    : Nat := 0
  ringFn    : Nat := 0
  loadTag   : Nat := 0
  loadIrq   : Bool := false
  msg       : LaunchMsg := {}
  cmsg      : LaunchMsg := {}
  coording  : Bool := false
  armedBy   : List Nat := []
  refusedBy : Option (Nat × Nat) := none
  crowned   : Bool := false
  launchFn  : Nat := 0
  launchTag : Nat := 0
  launchIrq : Bool := false
  commit    : Bool := false
  base      : Nat := 0
  startStep : Nat := 0
  stop      : Option StopNote := none
  haltedAt  : Option Nat := none
  faulted   : Bool := false
  reports   : List FinishRep := []
  finished  : Bool := false
  stamped   : Bool := false
  ckArea    : Nat := 0
  ckDone    : List Nat := []
  ckPend    : List (Nat × Nat) := []
  intakes   : SMap IntakeSt := []
  inReads   : SMap InRead := []
  inLog     : SMap (List Byte) := []
  inSum     : Nat := 0
  outRings  : SMap (List Byte) := []
  outSum    : Nat := 0
  nFrames   : Nat := 0
  nDrops    : Nat := 0
  firstDiv  : Nat := 2 ^ 56 - 1
  refBad    : Bool := false
  refSeen   : Bool := false
  lastEgr   : SMap Nat := []
  staged    : Nat := 0
  semWait   : List Nat := []
  semOwner  : SMap Nat := []
  halt      : Option HaltSt := none
  obwTok    : Nat := 0
  obwPrev   : Nat := 0
  wmaskNext : Option Nat := none
  traceLost : Nat := 0
  lossFull  : Bool := false
  lossBudget : Bool := false
  resumedAt : Option Nat := none
  flrStop   : Bool := false
  missCommit : Bool := false
  ends      : List (Option Nat × FaultMsg × Nat × Bool) := []
  plan      : List (Nat × Nat) := []
  deriving DecidableEq, Repr

/-- A lane of a panel (R92): an 80-bit fuller (value scaled by 2^32, flags, products added) or an FP32 word. -/
structure Lane where
  v      : Int := 0
  flags  : Nat := 0
  prods  : Nat := 0
  f      : Nat := 0
  poison : Bool := false
  deriving DecidableEq, Repr

/-- A row or column checksum (R577): the exact sum and the exact sum of magnitudes scaled by 2^160, d and P, and
whether a special value entered. -/
structure Chk where
  sum  : Int := 0
  mag  : Int := 0
  d    : Nat := 0
  p    : Nat := 0
  skip : Bool := false
  deriving DecidableEq, Repr

/-- The lane kind of R92: unset, fullers, FP32. -/
inductive LaneKind where
  | unset | fuller | fp
  deriving DecidableEq, Repr

/-- An operand region (R189). -/
structure Region where
  space   : Nat := 0
  fmt     : Nat := 0
  addr    : Nat := 0
  split   : Bool := false
  rows    : Nat := 0
  cols    : Nat := 0
  rstride : Nat := 0
  cmask   : Nat := 0
  deriving DecidableEq, Repr

/-- A send or receive binding (R202-R207). `done` says that it is complete; `got` the sequences arrived or
substituted of a receive binding; `w` the largest COUNT of a completed WAIT.RECV. -/
structure Binding where
  stream : Nat := 0
  reg    : Region := {}
  step   : Nat := 0
  layer  : Nat := 0
  oper   : Nat := 0
  done   : Bool := false
  got    : List Nat := []
  w      : Nat := 0
  deriving DecidableEq, Repr

/-- What a panel is doing in its window (R155, R156, R160, R210, R212, R214). A list abandoned after a decode check keeps the head
word of the operation that failed. -/
inductive PnlSt where
  | idle | running | waitSlot (at_ : Nat) | waitRecv (at_ bind count : Nat) | rest (at_ : Nat) | done | abandoned (head : Nat)
  deriving DecidableEq, Repr

/-- An entry in a seam buffer (R164): its bytes with their poison, the step and the deadline of the window that sent it. -/
structure SeamEntry where
  bytes : List (Byte × Bool) := []
  step  : Nat := 0
  due   : Nat := 0
  deriving DecidableEq, Repr

/-- A full watch buffer (R213, R697): the egress ring of its watch, the MARK's LAYER and OPER, and its frame. -/
structure Dump where
  ring  : Nat := 0
  layer : Nat := 0
  oper  : Nat := 0
  bytes : List Byte := []
  deriving DecidableEq, Repr

/-- One physical panel (R91-R96, R179-R187). `seams` are the four buffers at this receiver, from north, south, east,
west (R164); `seamPos` counts the entries that the MOVE in progress has sent, `seamGot` are those that it has taken; `memPsn`, `osPsn` the poison bits of the 8-byte words (R576), `memLate` the
words a late step poisoned (R161); `undef` the epoch in which it lost its contents and `known` the bytes written since (R619,
R724); `lost` says that the panel's part of the retention region kept nothing through shelf state (R622); `bads` the rejected
issue records as (slot of their report, step, code) (R219); `faults` what the step's settle slots will report, with the event's DETAIL and whether an event is due; `stretch`,
`holds`, `vcyc` what the window has counted; `lastOp` LAYER and OPER of the last complete operation. START of an
accepted record is held extended (R73). Operand-store byte `a` of cluster `c` has key `c * 0x8000 + a`. -/
structure Panel where
  part    : Option Nat := none
  logical : Nat := 0
  gated   : Bool := true
  mem     : SMap Byte := []
  memPsn  : SMap Bool := []
  memLate : SMap Bool := []
  lost    : Bool := false
  undef   : Option Nat := none
  known   : SMap Bool := []
  os      : SMap Byte := []
  osPsn   : SMap Bool := []
  queue   : List IssueRec := []
  prev    : Option IssueRec := none
  win     : Option IssueRec := none
  bads    : List (Nat × Nat × Nat) := []
  st      : PnlSt := .idle
  lanes   : List Lane := []
  kind    : LaneKind := .unset
  written : Bool := false
  rows    : List Chk := []
  colsum  : List Chk := []
  sbind   : SMap Binding := []
  rbind   : SMap Binding := []
  psnAll  : Bool := false
  faults  : List (FaultMsg × Nat × Bool) := []
  seams   : SMap (List SeamEntry) := []
  seamPos : Nat := 0
  seamGot : List (List (Byte × Bool)) := []
  vcyc    : Nat := 0
  stretch : Nat := 0
  holds   : Nat := 0
  lastOp  : Nat × Nat := (0xFFFF, 0xFFFF)
  dumps   : SMap Dump := []
  deriving DecidableEq, Repr

/-- One slice of one node: two banks, the active one, and the accepted switches not yet at their slot, as (B, to bank B)
(R239-R248). `lo`, `hi` bound the slice. -/
structure Slice where
  lo      : Nat := 0
  hi      : Nat := 0
  a       : Bank := {}
  b       : Bank := {}
  activeB : Bool := false
  pending : List (Nat × Bool) := []
  deriving DecidableEq, Repr

/-- Data of a scheduled HBM read issued ahead (R309): the tally slot in which its entry fires, partition, entry, unit
contents and whether a word was poisoned. -/
structure Held where
  at_   : Nat := 0
  q     : Nat := 0
  k     : Nat := 0
  bytes : List Byte := []
  psn   : Bool := false
  deriving DecidableEq, Repr

/-- One data-plane node: its slices by partition, the tufts that become available at its inputs with their tally slot
(R232, R244), and on a memory node the reads issued ahead. -/
structure Node where
  slices : SMap Slice := []
  inputs : SMap (List (Nat × Tuft)) := []
  held   : List Held := []
  deriving DecidableEq, Repr

/-- A departure waiting for its cell slot, or a cell kept for replay (R253, R260): LSN, partition, tally slot of the
departure, the tally slot of the replay limit d + D - F - 1, the slot it was sent in, whether a NAK names it and
whether it was retransmitted. -/
structure Kept where
  lsn   : Nat := 0
  part  : Nat := 0
  dep   : Nat := 0
  limit : Nat := 0
  sent  : Nat := 0
  tuft  : Tuft := {}
  nak   : Bool := false
  again : Bool := false
  deriving DecidableEq, Repr

/-- One port: link layer (R252-R262), conformateur (R352-R358), control frames (R462, R463). `naks` are the bad cells to
name, with the slot of each; `delivery` the delivery buffer with each tuft's KIND; `missed` the run's substituted deliveries as
(STREAM, SEQ, last step in which the tuft can have departed); `taken` what the delivery slot gave, with its tally slot, for every band
output node that takes it (R251). Conformateur times count the slot clock in 1/64 slot (R353). -/
structure Port where
  txQ      : List Kept := []
  lsn      : Nat := 0
  rxLsn    : Nat := 0
  kept     : List Kept := []
  naks     : List (Nat × Nat) := []
  delivery : List (Nat × Tuft) := []
  missed   : List (Nat × Nat × Nat) := []
  taken    : List (Nat × Tuft) := []
  msgs     : List MaintMsg := []
  txFrames : List (Nat × List Fragment) := []
  txNext   : Nat := 0
  txSince  : Nat := 0
  rxFrames : Nat := 0
  rxFrags  : List Byte := []
  rxCount  : Nat := 0
  rxAny    : Bool := false
  ackDue   : Bool := false
  probeT1  : Option Nat := none
  probes   : Nat := 0
  results  : List Nat := []
  unanswered : Bool := false
  answer   : ConfMsg := {}
  probeIn  : Option (ConfMsg × Nat) := none
  crown    : Nat := 0
  deriving DecidableEq, Repr

/-- A sequencer context beyond its registers (R478-R518): g1-g31, the bits of PC above the 16 that SEQ_CTX_STATE shows, memories,
reservation, issue queue, waits, its place `decl` in the image's declaration and its resume entries. -/
structure Ctx where
  g       : SMap (BitVec 64) := []
  pcHi    : Nat := 0
  imem    : SMap Byte := []
  dmem    : SMap Byte := []
  resv    : Option Nat := none
  lock    : Option (Nat × Nat) := none
  queue   : List (List Byte) := []
  waitArg : Nat := 0
  waitReg : Nat := 0
  since   : Nat := 0
  haltSt  : Nat := 0
  haltPend : Bool := false
  reply   : Option (Nat × Nat) := none
  notTaken : Nat := 0
  resume  : List Nat := []
  decl    : Nat := 0
  lastIss : Nat := 0
  egr     : Option Frame := none
  egrRing : Nat := 0
  deriving DecidableEq, Repr

/-- HBM: bytes, poisoned 32-byte words, the next word of each stack's scrubber, refreshes issued, and the units that
scheduled writes changed in the last 512 slots with their contents before: (count of the slot clock, unit address, bytes, poisoned
words) (R310, R318-R320). The check bits of a word follow from its contents and its address (R315). -/
structure Hbm where
  bytes  : SMap Byte := []
  poison : SMap Bool := []
  scrub  : SMap Nat := []
  refr   : SMap Nat := []
  recent : List (Nat × Nat × List Byte × List Nat) := []
  deriving DecidableEq, Repr

/-- A stitch: down for the rest of the run, and the control frames its senders keep until they are acknowledged, as (toward the east or
south, bytes), oldest first (R292, R296). -/
structure Stitch where
  down : Bool := false
  held : List (Bool × List Byte) := []
  deriving DecidableEq, Repr

/-- A capture unit: the queue of samples waiting to be counted, the live values, and the snapshots asked for, oldest first
(samples of the queue to count before it, whether it clears) (R632, R633, R636, R647). -/
structure Cap where
  queue : List Nat := []
  count : Nat := 0
  min_  : Nat := 0xFFFFFFFF
  max_  : Nat := 0
  bins  : SMap Nat := []
  lost  : Nat := 0
  snaps : List (Nat × Bool) := []
  deriving DecidableEq, Repr

/-- Boot, package pins, TAP, management interface, fuses, rails, shelf wake, crown conflict (R286, R358, R716, R722-R757).
`released` is set while neither PWR_OK nor SYS_RST_N nor a boundary-scan instruction holds the device in reset;
`perst` while PERST_N is low; `wait` while stage 2 waits for a push; `push` the bytes pushed; `wake` a wake pending
during shelf entry; `tap*` the TAP; `ptest` port test modes with their errors; `mcDown`: the management controller did not respond at the last refresh (R177); `confMask`, `confUp` the ports whose results the last
conformateur run reset, and those of them that it probes (R352, R780). `conflictSince` counts the slot clock. -/
structure Boot where
  straps   : Straps := {}
  fuseStep : Nat := 0xB1
  fuseGrade : Nat := 0
  fuseClass : Nat := 0
  fuseSvn  : Nat := 0
  fuseKey  : SMap Nat := []
  fusePos  : SMap Nat := []
  fuseSer  : SMap Nat := []
  fuseFail : SMap Nat := []
  fuseBad  : SMap Nat := []
  powered  : Bool := true
  released : Bool := false
  perst    : Bool := true
  wait     : Bool := false
  push     : SMap Byte := []
  pushSrc  : Nat := 0
  tripped  : Bool := false
  faultLow : Bool := false
  rails    : SMap Nat := []
  wake     : Option Nat := none
  tapInstr : Nat := 0x02
  tapData  : Nat := 0
  tapDie   : Nat := 8
  boundary : Nat := 0
  ptest    : SMap (Nat × Nat) := []
  conflictSince : Nat := 0
  mcDown   : Bool := false
  confMask : List Nat := []
  confUp   : List Nat := []
  deriving DecidableEq, Repr

/-- What the device puts out: to the host, to its ports, to its pins and its buses. -/
inductive Out where
  | readData (who off len v : Nat)
  | unsupported (off len : Nat)
  | bar2Data (bytes : List Byte) (ep : Bool)
  /-- A memory write to the host with its attributes Relaxed Ordering and No Snoop (R387). -/
  | hostWrite (fn addr : Nat) (bytes : List Byte) (relaxed : Bool := false) (noSnoop : Bool := false)
  | hostRead (tag addr len : Nat)
  | msix (fn addr data : Nat)
  | cell (port : Nat) (c : Cell)
  | alignment (port : Nat) (bytes : List Byte)
  | maint (port : Nat) (bytes : List Byte)
  | tallySet (port value frac : Nat)
  | stitchControl (t : Nat) (east : Bool) (bytes : List Byte)
  | pin (name : String) (level : Bool)
  | smbus (bytes : List Byte)
  | aer (fn : Nat)
  | avs (rail mv : Nat)
  | tdo (v : Nat)
  deriving DecidableEq, Repr

/-- One Evone device. -/
structure State where
  regs    : SMap Nat := []
  tb      : TimeBase := {}
  evr     : Recorder := {}
  ctl     : Ctl := {}
  hre     : Hre := {}
  parts   : SMap Part := []
  panels  : SMap Panel := []
  nodes   : SMap Node := []
  ports   : SMap Port := []
  ctxs    : SMap Ctx := []
  shr     : SMap Byte := []
  hbm     : Hbm := {}
  stitch  : SMap Stitch := []
  caps    : SMap Cap := []
  boot    : Boot := {}
  out     : List Out := []
  free    : Nat := 0
  pending : List Instr := []
  deriving DecidableEq, Repr

/-- Why a command stops the block. -/
inductive Fault where
  /-- An operand the spec calls reserved and gives no effect: a reserved MODE of STITCHTEST or a
  reserved die of DIESEL (R746). Raised by those commands. Safe: no next state is claimed. -/
  | reservedOperand (value : Nat)
  deriving DecidableEq, Repr

/-- A command without a meaning. -/
inductive Refusal where
  /-- The command has no meaning in the model. Raised by an arm of `exec` and nowhere else. Safe. -/
  | notModelled (mnemonic : String)
  deriving DecidableEq, Repr

/-- The device right after power-up: every register at its reset value (R12), every queue and memory empty. -/
def State.reset : State := {}

end Sys2Proof.Machine
end

