-- ==== Sys2Proof/Machine/Ops.lean ====
section
/-! DEFINITION. The shared operations: registers, time, indexed parts of the state, control packets, host memory
writes, events, faults, completion records, schedule slots, HBM. -/
namespace Sys2Proof.Machine

/-- Element `i` of register field `f`. -/
def State.get (s : State) (f : Fld) (i : Nat := 0) : Nat := look f.info.reset s.regs (f.key i)

/-- `s` with element `i` of register field `f` holding `v`, cut to the field's width. -/
def State.set (s : State) (f : Fld) (v : Nat) (i : Nat := 0) : State :=
  { s with regs := put f.info.reset s.regs (f.key i) (v % 2 ^ f.info.width) }

/-- A counter field plus `n`, saturating at its width. -/
def State.inc (s : State) (f : Fld) (i : Nat := 0) (n : Nat := 1) : State :=
  s.set f (satAdd f.info.width (s.get f i) n) i

/-- Does a one-bit field read 1? -/
def State.is (s : State) (f : Fld) (i : Nat := 0) : Bool := s.get f i == 1

/-- Bit `n` of a field. -/
def State.getBit (s : State) (f : Fld) (n : Nat) (i : Nat := 0) : Bool := bit (s.get f i) n

/-- Bit `n` of a field set or cleared. -/
def State.setBit (s : State) (f : Fld) (n : Nat) (b : Bool) (i : Nat := 0) : State :=
  let v := s.get f i
  s.set f (v - b2n (bit v n) * 2 ^ n + b2n b * 2 ^ n) i

/-- A fresh free value (log entry 8): the value and the state with its counter advanced. -/
def State.fresh (s : State) : State := { s with free := s.free + 1 }

/-- The free value that stands at the counter. -/
def State.freeV (s : State) : Nat := Config.freeValue s.free

/-- Output `o` after everything put out so far. -/
def State.emit (s : State) (o : Out) : State := { s with out := s.out ++ [o] }

def State.part (s : State) (q : Nat) : Part := look {} s.parts q
def State.setPart (s : State) (q : Nat) (p : Part) : State := { s with parts := ins s.parts q p }
def State.panel (s : State) (w : Nat) : Panel := look {} s.panels w
def State.setPanel (s : State) (w : Nat) (p : Panel) : State := { s with panels := ins s.panels w p }
def State.node (s : State) (n : Nat) : Node := look {} s.nodes n
def State.setNode (s : State) (n : Nat) (x : Node) : State := { s with nodes := ins s.nodes n x }
def State.port (s : State) (p : Nat) : Port := look {} s.ports p
def State.setPort (s : State) (p : Nat) (x : Port) : State := { s with ports := ins s.ports p x }
def State.ctx (s : State) (x : Nat) : Ctx := look {} s.ctxs x
def State.setCtx (s : State) (x : Nat) (c : Ctx) : State := { s with ctxs := ins s.ctxs x c }
def State.ring (s : State) (fn r : Nat) : Ring := look {} s.hre.rings (16 * fn + r)
def State.setRing (s : State) (fn r : Nat) (x : Ring) : State :=
  { s with hre := { s.hre with rings := ins s.hre.rings (16 * fn + r) x } }
def State.func (s : State) (fn : Nat) : Func := look {} s.hre.funcs fn
def State.setFunc (s : State) (fn : Nat) (x : Func) : State :=
  { s with hre := { s.hre with funcs := ins s.hre.funcs fn x } }
def State.stitchOf (s : State) (t : Nat) : Stitch := look {} s.stitch t
def State.setStitch (s : State) (t : Nat) (x : Stitch) : State := { s with stitch := ins s.stitch t x }
def State.cap (s : State) (n : Nat) : Cap := look {} s.caps n
def State.setCap (s : State) (n : Nat) (x : Cap) : State := { s with caps := ins s.caps n x }

/-! Time (R42, R57, R61, R62). -/

def State.tally (s : State) : Nat := s.get .TIM_TALLY_TALLY
def State.tick (s : State) : Nat := s.get .TIM_TICK_TICK

/-- Local ticks in `n` microseconds: 781.25 MHz (R61). -/
def usTicks (n : Nat) : Nat := n * 3125 / 4

/-- The scheduled comparison of count `c` against tally `t` (R57). -/
def cmp32 (c t : Nat) : Int := sint 32 (ofSint 32 ((c : Int) - (t : Int)))

/-- Numerator and denominator of a dilation code (R69). -/
def dilation (d : Nat) : Nat × Nat :=
  match d with
  | 1 => (9, 8) | 2 => (5, 4) | 3 => (3, 2) | 4 => (2, 1) | _ => (1, 1)

/-- The run state of a partition (TIM_LAUNCH_STATE): 0 idle, 1 armed, 2 committed, 3 running, 4 stopped. -/
def State.runSt (s : State) (q : Nat) : Nat := s.get .TIM_LAUNCH_STATE_STATE q

/-- Armed, committed or running. -/
def State.busy (s : State) (q : Nat) : Bool := s.runSt q == 1 || s.runSt q == 2 || s.runSt q == 3

/-- Some partition of the device is armed, committed or running. -/
def State.anyBusy (s : State) : Bool := (List.range 128).any s.busy

/-- Slots from the launch count to the tally slot of schedule slot `sl` of partition `q` (R70, R531). -/
def State.slotOff (s : State) (q sl : Nat) : Nat :=
  let d := dilation (s.get .TIM_LAUNCH_STATE_DIL q)
  (sl - (s.part q).base) * d.1 / d.2

/-- The tally slot of schedule slot `sl` of partition `q` (R70, R531). -/
def State.slotTally (s : State) (q sl : Nat) : Nat := (s.get .TIM_LAUNCH_AT_AT q + s.slotOff q sl) % 2 ^ 56

/-- The step clock of partition `q` (R62). -/
def State.stepClock (s : State) (q : Nat) : Nat :=
  (s.tally + 2 ^ 56 - s.get .TIM_LAUNCH_AT_AT q) % 2 ^ 56

/-- The current schedule slot of partition `q`: the last one that maps to the tally or before (R70). -/
def State.curSlot (s : State) (q : Nat) : Nat :=
  let d := dilation (s.get .TIM_LAUNCH_STATE_DIL q)
  (s.part q).base + ((s.stepClock q + 1) * d.2 - 1) / d.1

/-- Extension of a 32-bit schedule-slot field against the current schedule slot (R73). -/
def State.extend (s : State) (q v : Nat) : Int :=
  let c := s.curSlot q
  (c : Int) + sint 32 (ofSint 32 ((v : Int) - (c : Int)))

/-- Tally slots from now to schedule slot `sl` of partition `q`, negative when it is past. Both are counted from the launch count in
full, so that a run may last any number of slots (R73). -/
def State.slotsAhead (s : State) (q : Nat) (sl : Int) : Int :=
  let d := dilation (s.get .TIM_LAUNCH_STATE_DIL q)
  (sl - ((s.part q).base : Int)) * d.1 / d.2 - s.stepClock q

/-- The image a partition holds. -/
def State.image (s : State) (q : Nat) : Image := (s.part q).image.getD {}

/-- Boundary b_n of the step grid (R521). -/
def State.boundary (s : State) (q n : Nat) : Nat := (s.image q).img.grid.getD n 0

/-- The step whose window holds schedule slot `sl` (R521). -/
def State.stepOf (s : State) (q sl : Nat) : Nat :=
  ((s.image q).img.grid.filter (fun b => b ≤ sl)).length - 1

/-- The member's current step (R522). -/
def State.curStep (s : State) (q : Nat) : Nat := s.stepOf q (s.curSlot q)

/-- The device's own coordinate, rack [11:8], board [7:4], slot [3:0] (R453). -/
def State.coord (s : State) : Nat :=
  s.get .LNK_COORD_RACK * 256 + s.get .LNK_COORD_BOARD * 16 + s.get .LNK_COORD_SLOT

/-- Coordinate of member (i, j, k) of an image under its slice origin (R525). -/
def Image.coordOf (m : Image) (ijk : Nat) : Nat :=
  ((m.rOrg + ijk / 256) % m.nrsys) * 256 + ((m.bOrg + ijk / 16 % 16) % m.nbsys) * 16 + ijk % 16

/-- The members of an image in ascending packed order (R362, R525). -/
def Image.members (m : Image) : List Nat :=
  (List.range m.nr).flatMap (fun i => (List.range m.nb).flatMap (fun j =>
    (List.range (if m.bsize then 16 else 8)).map (fun k => i * 256 + j * 16 + k)))

/-! Control packets (R446-R455). -/

/-- `pk` waits to enter a ring at `stop`. -/
def State.sendPk (s : State) (stop : Nat) (reply : Bool) (pk : Packet) : State :=
  let k := 2 * stop + b2n reply
  { s with ctl := { s.ctl with wait := ins s.ctl.wait k (look [] s.ctl.wait k ++ [pk]) } }

/-- A packet from `stop` to unit `dst` of this device for partition `q` (R454). -/
def localPk (stop dst q : Nat) (pl : Payload) : Packet := { dst := dst, src := stop, part := q, payload := pl }

/-- A packet from `stop` to unit `dst` of the device at `coord`; remote unless that is this device (R453, R455). -/
def State.pkTo (s : State) (stop dst q coord : Nat) (pl : Payload) : Packet :=
  if coord = s.coord then localPk stop dst q pl
  else { dst := dst, src := stop, part := q, remote := true, dcoord := coord, tunnel := some (s.coord, 4), payload := pl }

/-- The stop from which a fault's source sends (log entry 10): batt-die gateway, sequencer quad, ring engine,
port gateway. -/
def faultStopOf (f : FaultMsg) : Nat :=
  match f.srck with
  | 0 => f.panel / 256 % 8
  | 1 => f.panel / 256 % 8
  | 2 => f.node % 8
  | 3 => 20
  | 4 => f.node % 8
  | 5 => 8 + f.node / 16 % 8
  | _ => 16

/-! Host memory (R387, R390, R391). -/

/-- Number of descriptors of a ring (R390, LOG2N limits of R431). -/
def State.ringN (s : State) (fn r : Nat) : Nat := 2 ^ (min 16 (max 6 (s.get .RING_CFG_LOG2N (16 * fn + r))))

/-- Host address of the descriptor for index `i` (R390). -/
def State.descAddr (s : State) (fn r i : Nat) : Nat :=
  s.get .RING_BASE_ADDR (16 * fn + r) * 4096 + 64 * (i % s.ringN fn r)

/-- Host address of a ring's doorbell word. -/
def State.dbAddr (s : State) (fn r : Nat) : Nat := s.get .RING_DB_ADDR (16 * fn + r) * 16

/-- The PCI Express link is up (R438). -/
def State.linkUp (s : State) : Bool := s.get .PCX_LINK_RATE != 0

/-- A ring is in use: the engine runs, the ring is enabled and not stopped on an index error (R395). -/
def State.ringUse (s : State) (fn r : Nat) : Bool :=
  s.is .HRE_CTRL_ENABLE && s.is .RING_CFG_ENABLE (16 * fn + r) && !(s.ring fn r).stopped
    && (fn == 0 || (s.func fn).vfEn)

/-- The device can act on a ring: it is in use and the link is up. -/
def State.ringOn (s : State) (fn r : Nat) : Bool := s.ringUse fn r && s.linkUp

/-- Bytes 8-15 of a ring's doorbell word (R391). -/
def State.shadowBytes (s : State) (fn r : Nat) : List Byte :=
  let x := s.ring fn r
  toLE 4 (s.get .RING_STAT_DIDX (16 * fn + r)) ++ toLE 1 x.dgen ++ toLE 3 (b2n x.stopped + 2 * b2n x.ovf)

/-- The device writes bytes 8-15 of a doorbell word (R391, R392), at once or when the link is up again (log entry 151). -/
def State.shadow (s : State) (fn r : Nat) : State :=
  if s.linkUp then s.emit (.hostWrite fn (s.dbAddr fn r + 8) (s.shadowBytes fn r))
  else s.setRing fn r { s.ring fn r with owed := true }

/-- A completion record joins the records its function has to write (R388, R410). While PERST_N is low it is lost (R725). -/
def State.complete (s : State) (fn : Nat) (c : Cplr) : State :=
  let f := s.func fn
  if s.boot.perst then s else s.setFunc fn { f with cq := f.cq ++ [{ c with formed := s.tally }] }

/-- Function to which records that no submission causes go (R412). -/
def State.home (s : State) (q : Nat) : Nat := (s.part q).loadFn

/-- A notify record for egress or event ring `r` of function `fn`, which serves partition `q` (R391, R410, R412). The physical
function's event ring serves none: its record goes to that function and its partition byte is free (log entry 62). -/
def State.notifyRing (s : State) (fn r : Nat) (q : Option Nat) : State :=
  let rec_ (q : Nat) : Cplr :=
    { kind := 7, irq := true, detail := toLE 1 q ++ toLE 1 r ++ toLE 2 0 ++ toLE 4 (s.get .RING_STAT_DIDX (16 * fn + r)) }
  if (s.ring fn r).notify then
    match q with
    | some q => s.complete (s.home q) (rec_ q)
    | none => s.complete fn (rec_ (Config.notifyPart (s.get .RING_STAT_DIDX (16 * fn + r)) % 128))
  else s

/-! Events (R652-R661). -/

/-- Severity of an event code (tables Event codes and Debug event codes). -/
def evSev (code : Nat) : Nat :=
  if code ∈ [0x200A, 0x4005, 0x5004, 0x9004, 0xB002, 0xB003, 0xD002, 0xD003, 0xD008] then 0
  else if code ∈ [0x1003, 0x1004, 0x2005, 0x3004, 0x5006, 0x6001, 0x6002, 0x6003, 0x6005, 0x6006, 0x8002, 0xB001,
    0xC002, 0xC003, 0xD001, 0xD004, 0xD006, 0xD007] then 1
  else if code ∈ [0x1001, 0x1002, 0x4001, 0x4003, 0x4004, 0x4006, 0x5001, 0x5002, 0x5003, 0x6004, 0x9001, 0xC001] then 3
  else 2

/-- Codes marked F: they always fold. -/
def evFolds (code : Nat) : Bool :=
  code ∈ [0x1003, 0x2005, 0x200A, 0x4005, 0x5004, 0x5006, 0x6001, 0x6002, 0x6005, 0xB001, 0xD002, 0xD006, 0xD007]

/-- The record of an event that arrives now (R652). -/
def State.mkRec (s : State) (e : Ev) : Rec :=
  { code := e.code, sev := evSev e.code, tlock := s.is .TIM_STATUS_LOCK, part := e.part, skind := e.skind,
    sindex := e.sindex, tick := s.tick, tally := s.tally, order := s.get .EVR_WRITTEN_COUNT % 2 ^ 16, detail := e.detail }

/-- The 32 bytes of an event record (table Event record). -/
def recBytes (r : Rec) : List Byte :=
  toLE 2 r.code
  ++ toLE 1 (r.sev + 4 * b2n r.folded + 8 * b2n r.tlock + 16 * b2n r.held + 32 * b2n r.froze)
  ++ toLE 1 (match r.part with | none => 0 | some q => q % 128 + 128)
  ++ toLE 2 (r.skind * 4096 + r.sindex % 4096) ++ toLE 2 r.rept
  ++ toLE 7 r.tick ++ toLE 7 r.tally ++ toLE 2 r.order ++ toLE 8 r.detail

/-- One event ring is offered a record (R413, R414). ESEQ counts the records offered before this one (log entry 11). The shadow's OVF
bit tells of the first record lost (R391). A record that comes while the link is down is not copied (log entry 151). -/
def State.offerTo (s : State) (fn : Nat) (r : Rec) : State :=
  if s.ringUse fn 2 then
    let x := s.ring fn 2
    let i := s.get .RING_STAT_DIDX (16 * fn + 2)
    let n := s.ringN fn 2
    if (i + 2 ^ 32 - x.hidx) % 2 ^ 32 < n ∧ s.linkUp then
      let d := toLE 4 (1 - i / n % 2) ++ toLE 4 x.eseq ++ toLE 2 x.lost ++ List.replicate 22 0 ++ recBytes r
      let s := s.emit (.hostWrite fn (s.descAddr fn 2 i) d)
      let s := s.setRing fn 2 { x with eseq := (x.eseq + 1) % 2 ^ 32, lost := 0 }
      (((s.set .RING_STAT_DIDX (i + 1) (16 * fn + 2)).shadow fn 2).notifyRing fn 2 (if fn = 0 then none else some (fn - 1)))
    else
      let s := s.setRing fn 2 { x with eseq := (x.eseq + 1) % 2 ^ 32, lost := satAdd 16 x.lost 1, ovf := true }
      if x.ovf then s else s.shadow fn 2
  else s

/-- The event rings that may see a record are offered it (R661). -/
def State.offer (s : State) (r : Rec) : State :=
  let s := s.offerTo 0 r
  match r.part with
  | some q => if s.getBit .EVR_VIS_VIS (r.code / 4096) then s.offerTo (1 + q) r else s
  | none => s

/-- The record a full log gives up for one of severity `sev` (R656). -/
def victim (log : List (Nat × Rec)) (sev : Nat) : Option Nat :=
  let c := log.filter (fun e => e.2.sev ≤ sev && e.2.sev < 3)
  let low := c.foldl (fun m e => min m e.2.sev) 3
  (c.find? (fun e => e.2.sev == low)).map (·.1)

/-- Record `r` takes a slot of the log, or is discarded and counted (R656, R657). -/
def State.logPut (s : State) (r : Rec) : State :=
  let e := s.evr
  let place (slot : Nat) : State :=
    { s with evr := { e with log := e.log.filter (fun x => x.1 ≠ slot) ++ [(slot, r)],
                             last := ins (e.last.filter (fun x => x.2 ≠ slot)) (r.code / 4096) slot } }
  if e.log.length < 16384 then
    let slot := s.get .EVR_NEXT_SLOT
    ((place slot).set .EVR_NEXT_SLOT (slot + 1)).set .EVR_WRITTEN_COUNT (s.get .EVR_WRITTEN_COUNT + 1)
  else match victim e.log r.sev with
    | some slot => (place slot).set .EVR_WRITTEN_COUNT (s.get .EVR_WRITTEN_COUNT + 1)
    | none => if r.sev = 3 then s.inc .EVR_OVF_COUNT else s.inc .EVR_DROP_COUNT

/-- The slot of the record an event folds into (R654). -/
def State.foldSlot (s : State) (r : Rec) : Option Nat :=
  let c := r.code / 4096
  if s.getBit .EVR_MODE_FOLD c || evFolds r.code then
    match look? s.evr.last c with
    | some slot =>
      if s.evr.log.any (fun x => x.1 == slot && x.2.code == r.code && x.2.part == r.part && x.2.skind == r.skind
          && x.2.sindex == r.sindex && decide (x.2.rept < 65535)) then some slot else none
    | none => none
  else none

/-- A record enters the unfrozen log: it folds, takes a slot or is discarded (R654-R657). -/
def State.enter (s : State) (r : Rec) : State :=
  match s.foldSlot r with
  | some slot => { s with evr := { s.evr with
      log := s.evr.log.map (fun x => if x.1 = slot then (x.1, { x.2 with rept := x.2.rept + 1, folded := true }) else x) } }
  | none => s.logPut { r with order := s.get .EVR_WRITTEN_COUNT % 2 ^ 16 }

/-- An event reaches stop 17 (R652-R661, R782). -/
def State.raiseEv (s : State) (e : Ev) : State :=
  let r := s.mkRec e
  if s.is .EVR_FREEZE_FREEZE then
    let s := s.offer { r with froze := true }
    if r.sev = 3 then
      if s.evr.hold.length < 8 then { s with evr := { s.evr with hold := s.evr.hold ++ [r] } } else s.inc .EVR_OVF_COUNT
    else s.inc .EVR_FRZ_CNT_COUNT
  else match s.foldSlot r with
    | some _ => s.enter r
    | none => (s.enter r).offer r

/-- A bit of PWR_PACE_EVT is set: the register stops updating while the management controller does not respond (R159, R177). -/
def State.paceEvt (s : State) (f : Fld) (d : Nat) : State := if s.boot.mcDown then s else s.setBit f d true

/-! Faults (R468, R533). -/

/-- DETAIL of the codes laid out as 0x2001 (step, layer, operator). -/
def FaultMsg.detail (f : FaultMsg) : Nat := f.step.getD 0 % 2 ^ 32 + f.layer % 2 ^ 16 * 2 ^ 32 + f.oper % 2 ^ 16 * 2 ^ 48

/-- One FAULT packet goes to stop 18 (R468). -/
def State.sendFault (s : State) (f : FaultMsg) : State :=
  s.sendPk (faultStopOf f) false (localPk (faultStopOf f) 18 f.part (.fault f))

/-- A unit that detects a fault records its event and sends one FAULT packet (R468). -/
def State.raiseFault (s : State) (f : FaultMsg) (detail : Nat) : State :=
  (s.raiseEv { code := f.code, part := some f.part, skind := f.srck,
               sindex := if f.srck ≤ 1 then f.panel else f.node, detail := detail }).sendFault f

/-! HBM (R312, R324). -/

/-- `n` bytes of HBM from a device-local address. -/
def State.hbmRead (s : State) (a n : Nat) : List Byte := readBytes s.hbm.bytes a n

/-- Bytes written to HBM. -/
def State.hbmWrite (s : State) (a : Nat) (bs : List Byte) : State :=
  { s with hbm := { s.hbm with bytes := writeBytes s.hbm.bytes a bs } }

/-- The words (32 bytes) that `n` bytes from `a` touch. -/
def words (a n sz : Nat) : List Nat :=
  if n = 0 then [] else (List.range ((a + n - 1) / sz - a / sz + 1)).map (fun i => a / sz + i)

/-- Does any word of a range carry poison (R318)? -/
def State.hbmPoisoned (s : State) (a n : Nat) : Bool := (words a n 32).any (fun w => look false s.hbm.poison w)

/-- The words of a range marked poisoned or clean. -/
def State.hbmMark (s : State) (a n : Nat) (b : Bool) : State :=
  { s with hbm := { s.hbm with poison := (words a n 32).foldl (fun m w => put false m w b) s.hbm.poison } }

/-- The words that an unscheduled write of `n` bytes at `a` fills whole are no longer poisoned (R318, R334). -/
def State.hbmClean (s : State) (a n : Nat) : State :=
  let ws := (words a n 32).filter (fun w => decide (a ≤ 32 * w) && decide (32 * w + 32 ≤ a + n))
  { s with hbm := { s.hbm with poison := ws.foldl (fun m w => put false m w false) s.hbm.poison } }

/-- The partition's HBM range as (first byte, length), from its allotment in 2 MiB units (R602). -/
def State.hbmRange (s : State) (q : Nat) : Nat × Nat :=
  (s.get .PRT_HBM_BASE_BASE q * 2 ^ 21, s.get .PRT_HBM_SIZE_SIZE q * 2 ^ 21)

/-- The partition's observation bucket spends `n` bytes (R677). -/
def State.spendObs (s : State) (q n : Nat) : State :=
  (s.setPart q { s.part q with obwTok := (s.part q).obwTok - n }).set .DBG_C_OBS_BYTES (s.get .DBG_C_OBS_BYTES q + n) q

/-- Bytes of a trace record (table Trace record). `body` is its 96 bits. -/
def traceBytes (type q src tally step layer oper body : Nat) : List Byte :=
  toLE 1 type ++ toLE 1 q ++ toLE 2 src ++ toLE 7 tally ++ toLE 1 0 ++ toLE 4 step ++ toLE 2 layer ++ toLE 2 oper ++ toLE 12 body

/-- One record is written at the producer index (R692). -/
def State.tracePut (s : State) (q : Nat) (bs : List Byte) : State :=
  let n := s.get .DBG_TRC_SIZE_TSIZE q
  let i := s.get .DBG_TRC_PROD_INDEX q
  ((if s.boot.tripped then s else s.hbmWrite ((s.image q).img.traceBase + 32 * (i % n)) bs).spendObs q 32).set .DBG_TRC_PROD_INDEX (i + 1) q

/-- A trace record is written, preceded by a LOSS record when records were lost, or dropped (R692, R693). -/
def State.trace (s : State) (q type src step layer oper body : Nat) : State :=
  let n := s.get .DBG_TRC_SIZE_TSIZE q
  let p := s.part q
  if n = 0 then s
  else
    let room := n - 1 - (s.get .DBG_TRC_PROD_INDEX q + 2 ^ 32 - s.get .DBG_TRC_CONS_INDEX q) % 2 ^ 32
    let k := if 0 < p.traceLost then 2 else 1
    if k ≤ room ∧ 32 * k ≤ p.obwTok then
      let s := if 0 < p.traceLost then
          let b := p.traceLost % 2 ^ 32 + b2n p.lossFull * 2 ^ 32 + b2n p.lossBudget * 2 ^ 33
          let s := s.tracePut q (traceBytes 8 q (11 * 4096) s.tally 0 0 0 b)
          let s := s.setPart q { s.part q with traceLost := 0, lossFull := false, lossBudget := false }
          s.raiseEv { code := 0xD006, part := some q, detail := p.traceLost % 2 ^ 32 }
        else s
      s.tracePut q (traceBytes type q src s.tally step layer oper body)
    else
      let s := s.setPart q { p with traceLost := p.traceLost + 1, lossFull := p.lossFull || decide (room < k),
                                    lossBudget := p.lossBudget || decide (p.obwTok < 32 * k) }
      s.inc .DBG_TRC_DROP_COUNT q

/-- Dropped frames at the head of the queue join the pending gap (R430, R436). -/
def settleGap (gap : Option (Nat × Nat)) : List Frame → Option (Nat × Nat) × List Frame
  | [] => (gap, [])
  | f :: r => if f.dropped then settleGap (match gap with | none => some (f.fseq, 1) | some (a, c) => some (a, c + 1)) r
              else (gap, f :: r)

/-- Frames dropped at the head have left the queue, and the frame at the head has its wait running (R428, R436). -/
def State.headWait (s : State) (fn r : Nat) : State :=
  let x := s.ring fn r
  let g := settleGap x.gap x.frames
  let fs := match g.2 with
    | f :: t => (if f.due.isNone then { f with due := some (s.tick + usTicks (s.get .RING_WAIT_WAIT (16 * fn + r))) } else f) :: t
    | [] => []
  s.setRing fn r { x with gap := g.1, frames := fs }

/-- A frame takes the next FSEQ of its egress ring and is staged, or dropped when the staging area has no room
(R409, R429); the stamp's DROPS leaves watch dumps out (R584). The frame keeps its place in FSEQ order: dropped, it joins the pending
gap when no frame stands before it (R430, R436). -/
def State.stageFrame (s : State) (q r : Nat) (f : Frame) : State :=
  let fn := (s.part q).ringFn
  let k := 16 * fn + r
  let x := s.ring fn r
  let p := s.part q
  let fits := decide (p.staged + f.bytes.length ≤ (s.image q).img.egSize)
  let s := (s.setRing fn r { x with frames := x.frames ++ [{ f with fseq := x.fseq, part := q, dropped := !fits, due := none }],
                                    fseq := (x.fseq + 1) % 2 ^ 32 }).headWait fn r
  if fits then s.setPart q { p with staged := p.staged + f.bytes.length }
  else (s.setPart q { p with nDrops := p.nDrops + b2n (!f.watch) }).inc .RING_DROP_COUNT k

end Sys2Proof.Machine
end

