-- ==== Sys2Proof/Machine/Regs.lean ====
section
/-! DEFINITION. Registers by offset: which field elements lie at a BAR0 offset, what a virtual function sees, and the
effect of a write under the access codes (R13-R15, R20, R21, R386, R759-R768). -/
namespace Sys2Proof.Machine

/-- BAR0 offset of a block (R759, R766). -/
def blkBase : Blk → Nat
  | .IDN => 0 | .TIM => 0x10000 | .HRE => 0x20000 | .PCX => 0x30000 | .PRT => 0x40000 | .SEQ => 0x50000
  | .CTN => 0x60000 | .LNK => 0x70000 | .MEM => 0x80000 | .PWR => 0x90000 | .MON => 0xA0000 | .EVR => 0xB0000
  | .DBG => 0xC0000 | .CHK => 0xD0000 | .MBX => 0xE0000 | .PNL => 0x1000000

/-- BAR0 offset of the register that holds element `i` of field `f`. -/
def addrOf (f : Fld) (i : Nat := 0) : Nat :=
  let x := f.info
  blkBase x.blk + x.base + x.s1 * (i / x.n2) + x.s2 * (i % x.n2)

/-- Lowest bit of element `i` in its register. -/
def loOf (f : Fld) (i : Nat) : Nat := f.info.lo + f.info.l2 * (i % f.info.n2)

/-- The function whose register view a requester has: the management controller has the physical function's (R762). -/
def fnOf (who : Nat) : Nat := if who = 129 then 0 else who

/-- Is `who` the physical function or the management controller? -/
def privileged (who : Nat) : Bool := who == 0 || who == 129

/-- The elements of field `f` at 4-byte offset `o` of its block, with the half of the register. Ring sets show the
requester's own function (R431). -/
def elems (f : Fld) (o fn : Nat) : List (Nat × Nat) :=
  let x := f.info
  (List.range x.n2).flatMap fun j => (List.range (x.size / 4)).filterMap fun h =>
    let b := x.base + x.s2 * j + 4 * h
    if o < b then none
    else if x.s1 = 0 then (if o = b then some ((if x.n1 = 129 then fn else 0) * x.n2 + j, h) else none)
    else if (o - b) % x.s1 = 0 ∧ (o - b) / x.s1 < x.n1 then some ((o - b) / x.s1 * x.n2 + j, h) else none

/-- Partition whose set element `i` of a partition-set field belongs to. -/
def setOf (f : Fld) (i : Nat) : Nat := i / f.info.n2

/-- The physical panels that serve logical panels of a partition (R768). -/
def State.ownsPanel (s : State) (q w : Nat) : Bool := (s.panel w).part == some q

/-- Does virtual function `k` see element `i` of `f` (R80, R170, R271, R386, R431, R509, R589, R634, R637, R702, R764,
R768)? -/
def State.vfSees (s : State) (k : Nat) (f : Fld) (i : Nat) : Bool :=
  match f.info.blk with
  | .TIM => f == .TIM_TALLY_TALLY || f == .TIM_TICK_TICK || (f.info.n1 == 128 && i == k)
  | .HRE => f.info.n1 == 129
  | .PRT => f.info.n1 == 128 && setOf f i == k
  | .SEQ => (f.info.n1 == 128 && f.info.base ≥ 0x3000 && i == k)
      || (f.info.base ≥ 0x1000 && f.info.base < 0x3000 && s.is .SEQ_CTX_BIND_BOUND i && s.get .SEQ_CTX_BIND_PART i == k)
  | .CHK => f == .CHK_CLASS_DCLASS || (f.info.n1 == 128 && i == k)
  | .LNK => (f.info.base ≥ 0x400 && f.info.n1 == 128 && i == k)
      || (f.info.base ≥ 0x1000 && f.info.base < 0x2000 && f.info.n1 == 32 && s.getBit .PRT_PORTS_PORTS i k)
  | .MON => f.info.n1 == 16 && f.info.base ≥ 0x1010 && s.is .CU_CTRL_PSCOPE (i / f.info.n2)
      && s.get .CU_CTRL_PART (i / f.info.n2) == k
  | .DBG => (f.info.n1 == 128 && f.info.base ≥ 0x1000 && setOf f i == k)
      || (f.info.base ≥ 0x6000 && f.info.n1 == 32 && s.getBit .PRT_PORTS_PORTS i k)
  | .IDN => f == .IDN_DEV_STEPPING || f == .IDN_DEV_GRADE || f == .IDN_DEV_DCLASS || f == .IDN_PART_PART
  | .PNL => s.ownsPanel k i && !(f == .PNL_HOOD_FENCED) && !(f == .PNL_HOOD_FUSED) && !(f == .PNL_HOOD_REMAPPED)
  | _ => false

/-- Fields in a virtual function's view that it only reads (R271, R634, R637, R702). -/
def vfReadOnly (f : Fld) : Bool :=
  match f.info.blk with
  | .LNK => f != .LNK_BANK_REFUSED
  | .MON => true
  | .PRT => true
  | .DBG => !(f == .DBG_BP_EN || f == .DBG_BP_CTX || f == .DBG_BP_PC || f == .DBG_TRC_CTRL_EN || f == .DBG_TRC_CONS_INDEX)
  | _ => false

/-- Does the requester see the element? -/
def State.sees (s : State) (who : Nat) (f : Fld) (i : Nat) : Bool := privileged who || s.vfSees (who - 1) f i

/-- May the requester write it? Only the physical function clears FENCED (R300). -/
def State.mayWrite (s : State) (who : Nat) (f : Fld) (i : Nat) : Bool :=
  if f = .PNL_HOOD_FENCED then who == 0
  else privileged who || (s.vfSees (who - 1) f i && !vfReadOnly f)

/-- Batt die of panel window `w`, its row, its column (R766). -/
def dieOf (w : Nat) : Nat := w / 136
def rowOf (w : Nat) : Nat := w % 136 / 17
def colOf (w : Nat) : Nat := w % 17
/-- Window index of a physical panel id (R94, R766), and the id of a window. -/
def winOf (id : Nat) : Nat := 136 * (id / 256) + 17 * (id / 32 % 8) + id % 32
def idOf (w : Nat) : Nat := 256 * dieOf w + 32 * rowOf w + colOf w

/-- The state of power domain `d` (R615, R617): powered and past its turn-on. -/
def State.domOn (s : State) (d : Nat) : Bool := s.getBit .PWR_DOM_STAT_ON (d % 32) (d / 32)

/-- A panel's registers answer only while its row domain is on and the panel is active (R617, R699, R770). -/
def State.panelLive (s : State) (w : Nat) : Bool := s.domOn (9 * dieOf w + rowOf w) && !(s.panel w).gated

/-- The power domain that holds an element's register, from the table Power domains (log entry 39). -/
def domOf (f : Fld) (i : Nat) : Option Nat :=
  match f.info.blk with
  | .HRE | .PCX => some 72
  | .SEQ => some 75
  | .CTN | .CHK => some 76
  | .DBG => some 77
  | .LNK => if f.info.n1 = 32 then some (if i < 16 then 73 else 74) else none
  | .MEM => if 0x1000 ≤ f.info.base ∧ f.info.base < 0x2000 then some (9 * i + 8) else none
  | _ => none

/-- Does the element's register answer (R617)? PNL_HOOD.FENCED lives in the always-on domain. The set of the reserved ring slot 3 answers
nothing (R389, log entry 150). -/
def State.live (s : State) (f : Fld) (i : Nat) : Bool :=
  if f.info.n1 = 129 ∧ i % 16 = 3 then false
  else if f.info.blk = .PNL then f == .PNL_HOOD_FENCED || s.panelLive i
  else match domOf f i with
    | some d => s.domOn d
    | none => true

/-- Value of a field after a write of its written bits (R13): `new` the merged value, `w` the bits written. -/
def accWrite (s : State) (f : Fld) (i new w : Nat) : State :=
  match f.info.acc with
  | .RW => s.set f new i
  | .RL => if s.is .MBX_SETUP_COMMITTED then s else s.set f new i
  | .W1C => s.set f (s.get f i ^^^ (s.get f i &&& w)) i
  | _ => s

/-- The merged value and the written bits of an element when 4-byte word `w` is written to half `h` of its register. -/
def mergeWord (f : Fld) (i cur h w : Nat) : Nat × Nat :=
  let lo := loOf f i
  let mask := ((2 ^ 32 - 1) <<< (32 * h)) &&& ((2 ^ f.info.width - 1) <<< lo)
  let nw := w <<< (32 * h)
  let old := cur <<< lo
  ((old ^^^ ((old ^^^ nw) &&& mask)) >>> lo, (nw &&& mask) >>> lo)

/-- Does half `h` of the register hold bits of the element? -/
def covers (f : Fld) (i h : Nat) : Bool :=
  let lo := loOf f i
  decide (lo < 32 * h + 32) && decide (32 * h < lo + f.info.width)

/-- Fields whose write has an effect of its own, given by the rules of their command; the register layer leaves them
to it. -/
def ownEffect (f : Fld) : Bool :=
  f ∈ [.TIM_EVT_CTRL_ARM, .TIM_EVT_AT_AT, .PWR_PACE_CTRL_TARGET, .MEM_CTRL_SR_REQ, .MEM_QUOTA_QUOTA,
    .LNK_P_STAT_OPTICAL, .LNK_COORD_RACK, .LNK_CONF_CTRL_RUN, .LNK_CONF_CTRL_TSET, .RING_CFG_ENABLE,
    .SEQ_MEM_DATA_DATA, .PRT_GRAN_GRAN, .PRT_HBM_BASE_BASE, .PRT_HBM_SIZE_SIZE, .PRT_PORTS_PORTS, .PRT_LANES_LANES,
    .PRT_MPORT_MPORT, .PRT_LIMITS_CTXMAX, .PRT_LIMITS_SHR, .SEQ_SHR_BASE, .SEQ_SHR_SIZE, .PWR_DOM_MODE_MODE,
    .PWR_SHELF_ENTER, .CU_CTRL_EN, .EVR_FREEZE_FREEZE, .MBX_SETUP_COMMIT, .MBX_PUSH_CTRL_GO]

/-- Ring registers locked while the function's partition is armed, committed or running (R432); PRT, TIM_CTRL and the
rest have their own rules in their commands. -/
def State.locked (s : State) (f : Fld) (i : Nat) : Bool :=
  (f == .RING_BASE_ADDR || f == .RING_DB_ADDR || f == .RING_CFG_LOG2N || f == .RING_CFG_ENABLE || f == .RING_CFG_GEN)
    && (i / 16 ≥ 1) && (i % 16 == 1 || i % 16 ≥ 4) && s.busy (i / 16 - 1)

/-- One 4-byte word written to one element. -/
def writeElem (who : Nat) (s : State) (f : Fld) (ih : Nat × Nat) (w : Nat) : State :=
  let i := ih.1
  if covers f i ih.2 && !ownEffect f && s.mayWrite who f i && s.live f i && !s.locked f i then
    let m := mergeWord f i (s.get f i) ih.2 w
    accWrite s f i m.1 m.2
  else s

/-- A 4-byte write at BAR0 offset `off` (4-aligned), without the effects that fields of `ownEffect` have. Quiet
aliases are no field's place, so a write to one is ignored (R15). -/
def writeWord (who : Nat) (s : State) (off w : Nat) : State :=
  Fld.all.foldl (fun s f =>
    if off < blkBase f.info.blk then s
    else (elems f (off - blkBase f.info.blk) (fnOf who)).foldl (fun s ih => writeElem who s f ih w) s) s

/-- The write of the 4-byte register of a single-register command: every plain field of it, each under its access code. -/
def plainWrite (who : Nat) (s : State) (off v : Nat) : State := writeWord who s off (v % 2 ^ 32)

/-- The bits of element `i` in a register value. -/
def fieldOf (f : Fld) (i v : Nat) : Nat := bits v (loOf f i) f.info.width

end Sys2Proof.Machine
end

