-- ==== Sys2Proof/Machine/Submit.lean ====
section
/-! DEFINITION. Submission descriptors (R397, R398) and the completion records that commands and runs form (R410-R412). -/
namespace Sys2Proof.Machine

/-- A submission descriptor read from its 64 bytes. `bad` says it is malformed (R397). -/
structure Sub where
  op   : Nat := 0
  irq  : Bool := false
  q    : Nat := 0
  tag  : Nat := 0
  arg  : List Byte := []
  bad  : Bool := false
  deriving DecidableEq, Repr

/-- The descriptor `bs` on the submission ring of function `fn` (table Submission descriptor). -/
def parseSub (fn : Nat) (bs : List Byte) : Sub :=
  let op := fieldLE bs 0 1
  let part := bits (fieldLE bs 3 1) 0 7
  let pv := bit (fieldLE bs 3 1) 7
  { op := op, irq := bit (fieldLE bs 1 1) 0, tag := fieldLE bs 4 4, arg := bs.drop 8,
    q := if fn = 0 then part else fn - 1,
    bad := op = 0 ∨ 8 < op ∨ fieldLE bs 1 1 / 2 ≠ 0 ∨ fieldLE bs 2 1 ≠ 0
      ∨ (fn = 0 ∧ pv = false) ∨ (fn ≠ 0 ∧ (pv = true ∨ part ≠ 0)) }

/-- Argument bytes `lo` to `lo + n - 1`, counted as the table Commands counts them. -/
def Sub.argN (d : Sub) (lo n : Nat) : Nat := fieldLE d.arg (lo - 8) n

/-- STOP, WATCH, HALT and RESUME execute as soon as they are fetched (R398). -/
def immediateOp (op : Nat) : Bool := 5 ≤ op && op ≤ 8

/-- A LOAD or LAUNCH of function `fn` is in progress (R398). -/
def State.cmdBusy (s : State) (fn : Nat) : Bool :=
  (look? s.hre.loads fn).isSome || (List.range 128).any (fun q =>
    ((s.part q).loading.isSome && (s.part q).loadBy == fn) || ((s.part q).coording && (s.part q).launchFn == fn))

/-- A LOAD of partition `q` is in progress (R443). -/
def State.loadBusy (s : State) (q : Nat) : Bool :=
  (s.part q).loading.isSome || s.hre.loads.any (fun e => (parseSub e.1 e.2.desc).q == q)

/-- The descriptor a command `op` executes on ring 0 of `fn`, and the fetched queue without it. -/
def State.subFor (s : State) (fn op : Nat) : Option (Sub × List (List Byte)) :=
  let q := (s.ring fn 0).fetched
  if immediateOp op then
    match q.find? (fun b => (parseSub fn b).op == op && !(parseSub fn b).bad) with
    | some b => some (parseSub fn b, q.erase b)
    | none => none
  else match q with
    | b :: r => if (parseSub fn b).op = op ∧ (parseSub fn b).bad = false ∧ s.cmdBusy fn = false then
        some (parseSub fn b, r) else none
    | [] => none

/-- The fetched queue of ring 0 of `fn`. -/
def State.setFetched (s : State) (fn : Nat) (q : List (List Byte)) : State :=
  s.setRing fn 0 { s.ring fn 0 with fetched := q }

/-- A command done record (kind 0x01). -/
def State.done (s : State) (fn : Nat) (d : Sub) (status : Nat) : State :=
  s.complete fn { kind := 1, irq := d.irq, status := status, tag := d.tag, detail := toLE 1 d.q ++ toLE 1 d.op }

/-- SUBMISSION_MALFORMED (R397): the front descriptor is malformed and completes with STATUS 1. -/
def execSubmissionMalformed (fn : Nat) (s : State) : Host.Outcome State Fault Refusal :=
  match (s.ring fn 0).fetched with
  | b :: r =>
    if (parseSub fn b).bad ∧ s.cmdBusy fn = false then
      .next ((s.setFetched fn r).done fn (parseSub fn b) 1)
    else .next s
  | [] => .next s

/-- NOP (R397): completes with STATUS 0. -/
def execNop (fn : Nat) (s : State) : Host.Outcome State Fault Refusal :=
  match s.subFor fn 1 with
  | some (d, r) => .next ((s.setFetched fn r).done fn d 0)
  | none => .next s

end Sys2Proof.Machine
end

