-- ==== Sys2Proof/Machine/Run.lean ====
section
/-! DEFINITION. Launch handshake and commit (R63-R70, R529-R531, R568), fault stop (R533-R536, R547, R548, R553),
finish reports and the stamp (R545, R546, R586, R587). -/
namespace Sys2Proof.Machine

/-- The members of partition `q`'s run as coordinates; without an image, the device alone. -/
def State.memberCoords (s : State) (q : Nat) : List Nat :=
  match (s.part q).image with
  | some m => m.members.map m.coordOf
  | none => [s.coord]

/-- A launch message goes to every member from stop 22 (R63, R65). -/
def State.toMembers (s : State) (q : Nat) (pl : Payload) : State :=
  (s.memberCoords q).foldl (fun s c => s.sendPk 22 false (s.pkTo 22 22 q c pl)) s

/-- The checks of R359 and R366 on one port the image uses. -/
def State.portOk (s : State) (m : Image) (p : ImgPort) : Bool :=
  s.is .LNK_P_STAT_UP p.port
    && (s.get .LNK_P_CONF_STATE p.port == 1 || s.get .LNK_P_CONF_STATE p.port == 2)
    && s.get .LNK_P_CONF_FAR p.port == m.coordOf p.far && s.get .LNK_P_CONF_FARPORT p.port == p.farport
    && s.is .LNK_P_STAT_REACH p.port

/-- A port as the arm checks it: the checks of R359 with the allowance of R256 (R366). -/
def State.portFits (s : State) (m : Image) (p : ImgPort) : Bool :=
  s.portOk m p && decide (s.get .LNK_P_PATH_ALLOW p.port ≤ p.allow)

/-- A checkpoint record at `a` is valid for a launch of `m` (R540). -/
def State.ckptValid (s : State) (m : Image) (a : Nat) : Bool :=
  let h := s.hbmRead a 256
  let n := fieldLE h 80 8
  fieldLE h 142 1 == 2 && (h.drop 16).take 32 == m.digest && fieldLE h 140 2 == m.memb
    && (h.drop 48).take 32 == sha256 (s.hbmRead (a + 256) (n - 256))

/-- The refusal code of an arm (R530), 0 for none. The test for a late launch is R57's on the low 32 bits, also of a count 2^32 slots or
more ahead: such a count can read as future, and the member then starts at the full count (R66, log entry 132). -/
def State.armRefusal (s : State) (m : LaunchMsg) : Nat :=
  let p := s.part m.part
  if cmp32 m.l s.tally < 0 then 1
  else if 4 < m.dil then 6
  else if s.runSt m.part ≠ 0 then 7
  else match p.image with
    | none => 4
    | some im =>
      if im.digest ≠ toLE 32 m.image ∨ ¬ im.img.ports.all (s.portFits im) ∨ (m.ckpt ≠ 0 ∧ ¬ s.ckptValid im m.ckpt) then 4
      else if ¬ s.is .TIM_STATUS_LOCK then 5
      else if m.dclass ≠ s.get .CHK_CLASS_DCLASS ∧ ¬ m.allowMix then 3
      else if s.get .PWR_PACE_FLOOR_FLOOR * (dilation m.dil).1 < im.pace * (dilation m.dil).2 then 2
      else 0

/-- Launch refused (0x03) or aborted (0x04) record: part, code, coordinate. On the crown that its own host launched,
it answers the LAUNCH (R412). -/
def State.refusedRec (s : State) (q kind code coord : Nat) : State :=
  let p := s.part q
  s.complete (if p.crowned then p.launchFn else p.loadFn)
    { kind := kind, irq := true, status := 5, tag := if p.crowned then p.launchTag else 0,
      detail := toLE 1 q ++ toLE 1 code ++ toLE 2 coord }

/-- A refusal is recorded in TIM_LAUNCH_STATE and as event 0x1005. -/
def State.noteRefusal (s : State) (q code l : Nat) : State :=
  (s.set .TIM_LAUNCH_STATE_REFUSE code q).raiseEv
    { code := 0x1005, part := some q, detail := code + l % 2 ^ 48 * 256 }

/-- LAUNCH (R63, R397, R399, R568). The crown chooses L at or after the tally plus TIM_LAUNCH_LEAD; which count is
free (log entry 14). -/
def execLaunch (fn : Nat) (s : State) : Host.Outcome State Fault Refusal :=
  match s.subFor fn 4 with
  | none => .next s
  | some (d, r) =>
    let s := s.setFetched fn r
    let fl := d.argN 17 1
    let ref := d.argN 32 8
    if (bit fl 0 && bit fl 1) || ((bit fl 0 || bit fl 1) && ref == 0) then .next (s.done fn d 1)
    else if ¬ s.is .TIM_CTRL_CROWN then .next (s.done fn d 6)
    else if (s.part d.q).coording then .next (s.done fn d 3)
    else
      let lead := max 0x4000 (s.get .TIM_LAUNCH_LEAD_LEAD)
      let l := (s.tally + lead + s.freeV % (2 ^ 31 - min lead (2 ^ 31 - 1))) % 2 ^ 56
      let s := s.fresh
      let m : LaunchMsg :=
        { part := d.q, src := s.coord, dil := bits (d.argN 16 1) 0 3, record := bit fl 0, replay := bit fl 1,
          allowMix := bit fl 2, dclass := s.get .CHK_CLASS_DCLASS, l := l, seed := d.argN 8 8, ckpt := d.argN 24 8,
          image := ofLE (s.image d.q).digest, ref := ref }
      let p := s.part d.q
      let s := s.setPart d.q { p with coording := true, crowned := true, armedBy := [], refusedBy := none,
                                      launchFn := fn, launchTag := d.tag, launchIrq := d.irq, cmsg := m }
      .next (s.toMembers d.q (.launch 1 m))

/-- Every stack leaves self-refresh and SR_REQ clears (R323). -/
def State.leaveSelfRefresh (s : State) : State :=
  if s.get .MEM_STAT_IN_SR ≠ 0 then (s.set .MEM_STAT_IN_SR 0).set .MEM_CTRL_SR_REQ 0 else s

/-- The message leaves the ejection queue of `stop` if it stands there. -/
def State.takeEj (s : State) (stop : Nat) (reply : Bool) (f : Packet → Bool) : State :=
  let k := 2 * stop + b2n reply
  let q := look [] s.ctl.ejq k
  match q.find? f with
  | some pk => { s with ctl := { s.ctl with ejq := ins s.ctl.ejq k (q.erase pk) } }
  | none => s

/-- ARM (R64, R68, R69, R323, R530, R81, R86). -/
def execArm (m : LaunchMsg) (s : State) : Host.Outcome State Fault Refusal :=
  let s := (s.takeEj 22 false (fun p => p.payload == .launch 1 m)).leaveSelfRefresh
  let q := m.part
  let c := s.armRefusal m
  let reply := { m with src := s.coord, refuse := c, dclass := s.get .CHK_CLASS_DCLASS }
  if c = 0 then
    let s := s.set .TIM_LAUNCH_STATE_STATE 1 q
    let s := s.setPart q { s.part q with msg := m, commit := false, flrStop := false, missCommit := false }
    .next (s.sendPk 22 false (s.pkTo 22 22 q m.src (.launch 2 reply)))
  else
    let s := (s.noteRefusal q c m.l).refusedRec q 3 c s.coord
    .next (s.sendPk 22 false (s.pkTo 22 22 q m.src (.launch 3 reply)))

/-- ARMED (R65, R399): the crown commits once every member has answered. -/
def execArmed (m : LaunchMsg) (s : State) : Host.Outcome State Fault Refusal :=
  let s := s.takeEj 22 false (fun p => p.payload == .launch 2 m)
  let q := m.part
  let p := s.part q
  if p.coording ∧ m.l = p.cmsg.l then
    let by_ := if m.src ∈ p.armedBy then p.armedBy else p.armedBy ++ [m.src]
    let s := s.setPart q { p with armedBy := by_ }
    if (s.memberCoords q).all (fun c => c ∈ by_) then
      let s := s.setPart q { p with armedBy := by_, coording := false }
      let s := s.complete p.launchFn { kind := 1, irq := p.launchIrq, tag := p.launchTag, detail := toLE 1 q ++ toLE 1 4 }
      .next (s.toMembers q (.launch 4 p.cmsg))
    else .next s
  else .next s

/-- REFUSE (R65): the crown aborts on every member. -/
def execRefuse (m : LaunchMsg) (s : State) : Host.Outcome State Fault Refusal :=
  let s := s.takeEj 22 false (fun p => p.payload == .launch 3 m)
  let q := m.part
  let p := s.part q
  if p.coording ∧ m.l = p.cmsg.l then
    let s := s.setPart q { p with coording := false, refusedBy := some (m.refuse, m.src) }
    .next (s.toMembers q (.launch 5 p.cmsg))
  else .next s

/-- COMMIT (R66, R83): held when it arrives by L minus the commit margin. A device that a PCIe reset met since the arm misses it
(R757). -/
def execCommit (m : LaunchMsg) (s : State) : Host.Outcome State Fault Refusal :=
  let s := s.takeEj 22 false (fun p => p.payload == .launch 4 m)
  let q := m.part
  let margin := max 0x400 (s.get .TIM_COMMIT_MARGIN_MARGIN)
  if s.runSt q = 1 ∧ (s.part q).missCommit = false ∧ m.l = (s.part q).msg.l ∧ (margin : Int) ≤ cmp32 m.l s.tally then
    .next ((s.set .TIM_LAUNCH_STATE_STATE 2 q).setPart q { s.part q with commit := true })
  else .next s

/-- The launch of an armed partition came to nothing: it is idle again, or, when a function level reset has met it, stopped with event
0x9003 (R439, R444, log entry 158). -/
def State.unarm (s : State) (q : Nat) : State :=
  let p := s.part q
  let flr := p.flrStop && !p.missCommit
  let s := (s.set .TIM_LAUNCH_STATE_STATE (if flr then 4 else 0) q).setPart q { p with commit := false, flrStop := false, missCommit := false }
  if flr then s.raiseEv { code := 0x9003, part := some q, skind := 6, sindex := 0, detail := 0 } else s

/-- ABORT (R65): an armed member returns to idle with an aborted record, as R81 says for every cause; R36 speaks of a refused record on
every member for one of them (log entry 133). A member other than the crown is not told
the refusing member or its code: free values (log entry 15). -/
def execAbort (m : LaunchMsg) (s : State) : Host.Outcome State Fault Refusal :=
  let s := s.takeEj 22 false (fun p => p.payload == .launch 5 m)
  let q := m.part
  if (s.runSt q = 1 ∨ s.runSt q = 2) ∧ m.l = (s.part q).msg.l then
    let w := match (s.part q).refusedBy with
      | some x => x
      | none => (s.freeV % 256, s.fresh.freeV % 4096)
    let s := s.fresh.fresh
    .next ((s.unarm q).refusedRec q 4 w.1 w.2)
  else .next s

/-- LAUNCH_NOT_COMMITTED (R67, R82, R83): no commit by L minus the margin. -/
def execLaunchNotCommitted (q : Nat) (s : State) : Host.Outcome State Fault Refusal :=
  let m := (s.part q).msg
  let margin := max 0x400 (s.get .TIM_COMMIT_MARGIN_MARGIN)
  if s.runSt q = 1 ∧ cmp32 m.l s.tally ≤ (margin : Int) then
    let s := (s.unarm q).noteRefusal q 8 m.l
    let s := s.sendPk 22 false (s.pkTo 22 22 q m.src (.launch 3 { m with src := s.coord, refuse := 8 }))
    .next (s.refusedRec q 3 8 s.coord)
  else .next s

/-! Fault stop. -/

/-- A notice goes out on every port the run uses (R534). -/
def State.flood (s : State) (q : Nat) (n : StopNote) : State :=
  let m := s.image q
  m.img.ports.foldl (fun s p => s.sendPk 18 false (s.pkTo 18 18 q (m.coordOf p.far) (.stopnote n))) s

/-- A debug halt not yet reached is discarded by a fault stop (R683, R705); a HALT command that waits for it completes with
STATUS 5, as one that lapses. -/
def State.discardHalt (s : State) (q : Nat) : State :=
  if s.get .DBG_HALT_STATE q = 1 then
    let cm := match (s.part q).halt with | some h => h.cmds | none => []
    let s := (s.set .DBG_HALT_STATE 0 q).setPart q { s.part q with halt := none }
    cm.foldl (fun s c => s.complete c.1 { kind := 1, irq := c.2.2, status := 5, tag := c.2.1, detail := toLE 1 q ++ toLE 1 7 }) s
  else s

/-- A member learns of a stop step: it keeps the lowest and forwards what is new (R534, R547, R548). -/
def State.learnStop (s : State) (q : Nat) (n : StopNote) : State :=
  let new := match (s.part q).stop with
    | none => true
    | some h => decide (n.stopStep < h.stopStep)
  if new then
    let s := s.discardHalt q
    let s := s.setPart q { s.part q with stop := some n, faulted := false }
    s.flood q n
  else s

/-- The stop note of a fault on this member (R533); while the partition is halted the fault step is h - 1 (R683). -/
def State.noteOf (s : State) (m : FaultMsg) : StopNote :=
  let st := if 2 ≤ s.get .DBG_HALT_STATE m.part then s.get .DBG_HSTEP_STEP m.part - 1
    else m.step.getD (s.curStep m.part)
  { part := m.part, stopStep := st, boundary := s.slotTally m.part (s.boundary m.part (st + 1)), srck := m.srck,
    fcoord := s.coord, panel := m.panel, code := m.code, layer := m.layer, oper := m.oper,
    launch := s.get .TIM_LAUNCH_AT_AT m.part }

/-- Does the member still take part in stopping the run: it runs, or it has halted at a fault stop and no stamp was written (R547, R548)? -/
def State.stopping (s : State) (q : Nat) : Bool :=
  (s.runSt q == 3 || (s.runSt q == 4 && (s.part q).haltedAt.isSome)) && !(s.part q).stamped

/-- FAULT_PACKET (R31, R468, R533, R547): stop 18 receives a FAULT packet. -/
def execFaultPacket (m : FaultMsg) (s : State) : Host.Outcome State Fault Refusal :=
  let s := s.takeEj 18 false (fun p => p.payload == .fault m)
  if s.stopping m.part then .next (s.learnStop m.part (s.noteOf m)) else .next s

/-- STOPNOTE (R534, R547, R548): a notice of a run this member is in. -/
def execStopnote (m : StopNote) (s : State) : Host.Outcome State Fault Refusal :=
  let s := s.takeEj 18 false (fun p => p.payload == .stopnote m)
  if s.stopping m.part ∧ m.launch = s.get .TIM_LAUNCH_AT_AT m.part then .next (s.learnStop m.part m)
  else .next s

/-- Has the tally reached schedule slot `sl` of partition `q`? While the partition is halted, slots from b_h on wait (R681). -/
def State.reached (s : State) (q sl : Nat) : Bool :=
  decide (s.stepClock q < 2 ^ 55) && decide (s.slotOff q sl ≤ s.stepClock q)
    && !(decide (2 ≤ s.get .DBG_HALT_STATE q) && decide (s.boundary q (s.get .DBG_HSTEP_STEP q) ≤ sl))

/-- FAULT_COMPLETION (R536, R548, R416, R439): STOPREACH after the halt. -/
def execFaultCompletion (q : Nat) (s : State) : Host.Outcome State Fault Refusal :=
  let p := s.part q
  match p.haltedAt, p.stop with
  | some b, some n =>
    if p.faulted = false ∧ s.reached q (b + (s.image q).stopreach) then
      let s := s.setPart q { p with faulted := true }
      let s := s.raiseEv
        { code := 0x9001, part := some q, detail := n.stopStep + n.code * 2 ^ 32 + n.fcoord % 4096 * 2 ^ 48 }
      .next (s.complete (if p.flrStop then 0 else p.loadFn)
        { kind := 5, irq := true,
          detail := toLE 1 q ++ toLE 1 0 ++ toLE 2 n.fcoord ++ toLE 2 n.panel ++ toLE 2 0 ++ toLE 4 n.stopStep
            ++ toLE 2 n.layer ++ toLE 2 n.oper ++ toLE 2 n.code ++ toLE 6 0 ++ toLE 7 n.boundary })
    else .next s
  | _, _ => .next s

/-- A fault raised by the ring engine for partition `q` (SRCK 6): event `code` with `detail`, fault step `step`. -/
def State.hreFault (s : State) (q fn code : Nat) (step : Option Nat) (detail : Nat) : State :=
  s.raiseFault { part := q, code := code, step := step, srck := 6, node := fn } detail

/-- STOP (R397, R443, R553). -/
def execStop (fn : Nat) (s : State) : Host.Outcome State Fault Refusal :=
  match s.subFor fn 5 with
  | none => .next s
  | some (d, r) =>
    if s.loadBusy d.q then .next s
    else
      let s := s.setFetched fn r
      let st := s.curStep d.q
      let s := if s.runSt d.q = 3 then s.hreFault d.q fn 0x9002 (some st) st else s
      .next (s.done fn d 0)

/-! Finish and stamp. -/

/-- FINISH_REPORT (R545): the crown keeps a member's report. -/
def execFinishReport (m : FinishRep) (s : State) : Host.Outcome State Fault Refusal :=
  let s := s.takeEj 22 false (fun p => match p.payload with
    | .report _ m' => m' == m
    | _ => false)
  let p := s.part m.part
  if p.crowned ∧ s.runSt m.part = 3 ∧ ¬ p.reports.any (fun r => r.member == m.member) then
    .next (s.setPart m.part { p with reports := p.reports ++ [m] })
  else .next s

/-- A sum saturating at `2^w - 1` with whether it saturated (R586). -/
def sumSat (w : Nat) (l : List Nat) : Nat × Bool := (min (l.foldl (· + ·) 0) (2 ^ w - 1), decide (2 ^ w ≤ l.foldl (· + ·) 0))

/-- A sum modulo 2^256 as 32 bytes, byte 0 most significant (R583, R586). -/
def sum256 (l : List Nat) : List Byte := toBE 32 (l.foldl (· + ·) 0 % 2 ^ 256)

/-- A report put in its place in ascending packed member order. -/
def insRep (r : FinishRep) : List FinishRep → List FinishRep
  | [] => [r]
  | x :: xs => if r.member ≤ x.member then r :: x :: xs else x :: insRep r xs

/-- The reports in ascending packed member order. -/
def sortReps (l : List FinishRep) : List FinishRep := l.foldr insRep []

/-- The 512-byte stamp (R586, R587, tables Stamp and Finish report body). -/
def State.stampBytes (s : State) (q : Nat) : List Byte :=
  let m := s.image q
  let p := s.part q
  let rs := sortReps p.reports
  let cnt (f : FinishRep → Nat) := sumSat 64 (rs.map f)
  let ndc := sumSat 32 (rs.map (·.ndc))
  let cl := rs.map (·.dclass)
  let lo := cl.foldl min 255
  let hi := cl.foldl max 0
  let fd := rs.foldl (fun x r => min x r.firstDiv) (2 ^ 56 - 1)
  let dc := match rs.find? (fun r => r.firstDiv == fd && decide (fd < 2 ^ 56 - 1)) with | some r => r.coord | none => 0
  let divc := sumSat 32 (rs.map (·.divCount))
  let sat := rs.any (·.saturated) || ndc.2 || divc.2
    || [cnt (·.pchecks), cnt (·.pskip), cnt (·.shadow), cnt (·.ecc), cnt (·.replays), cnt (·.frames), cnt (·.drops)].any (·.2)
  let flags := b2n (lo != hi) + 2 * b2n p.msg.record + 4 * b2n p.msg.replay + 8 * b2n (rs.any (·.diverged))
    + 16 * b2n (rs.any (·.logbad)) + 32 * b2n (p.msg.ckpt != 0) + 64 * b2n sat
  let body := ([0x45, 0x56, 0x4E, 0x53, 0x54, 0x50] : List Byte) ++ toLE 2 1 ++ toLE 2 flags
    ++ toLE 1 (s.get .TIM_LAUNCH_STATE_DIL q) ++ toLE 1 lo ++ toLE 1 hi ++ toLE 1 0 ++ toLE 2 m.pace ++ m.digest ++ m.foldkey
    ++ toLE 8 p.msg.seed ++ toLE 2 m.members.length
    ++ [m.rOrg, m.bOrg, m.nr, m.nb, m.nrsys, m.nbsys, b2n m.bsize, 0].flatMap (toLE 1)
    ++ toLE 2 s.coord ++ toLE 4 m.steps ++ toLE 8 (s.get .TIM_LAUNCH_AT_AT q)
    ++ toLE 8 (s.slotTally q (s.boundary q m.steps)) ++ toLE 4 p.startStep ++ toLE 4 ndc.1
    ++ sha256 (rs.flatMap (fun r => toLE 2 r.coord))
    ++ sha256 (rs.flatMap (·.indig)) ++ sum256 (rs.map (·.insum))
    ++ sha256 (rs.flatMap (·.outdig)) ++ sum256 (rs.map (·.outsum))
    ++ toLE 8 (cnt (·.pchecks)).1 ++ toLE 8 (cnt (·.pskip)).1 ++ toLE 8 (cnt (·.shadow)).1 ++ toLE 8 (cnt (·.ecc)).1
    ++ toLE 8 (cnt (·.replays)).1 ++ toLE 8 fd ++ toLE 2 dc ++ toLE 2 0 ++ toLE 4 divc.1
    ++ toLE 8 (cnt (·.frames)).1 ++ toLE 8 (cnt (·.drops)).1 ++ List.replicate 136 0
  body ++ sha256 body

/-- No binding of the partition's panels outlives its run (R187). -/
def State.dropBindings (s : State) (q : Nat) : State :=
  let ws := (s.panels.filter (fun e => e.2.part == some q)).map (·.1)
  ws.foldl (fun s w => (((s.setPanel w { s.panel w with sbind := [], rbind := [] }).set .PNL_SL_SBIND_SEND 0 w).set
    .PNL_SL_RBIND_RECV 0 w)) s

/-- A written TARGET as it acts (R145). -/
def actTarget (t : Nat) : Nat := min 288 (max 64 t)

/-- A running partition has panels on die `d`. -/
def State.dieRuns (s : State) (d : Nat) : Bool :=
  s.panels.any (fun e => dieOf e.1 == d && (match e.2.part with | some q => s.runSt q == 3 | none => false))

/-- Dies on which nothing runs take their TARGET (R149, R175). -/
def State.repace (s : State) : State :=
  (List.range 8).foldl (fun s d =>
    if s.dieRuns d then s else s.set .PWR_PACE_CTRL_APPLIED (actTarget (s.get .PWR_PACE_CTRL_TARGET d)) d) s

/-- The stamp is written to the completion ring and the index, with event 0x9004, and the partition stops (R545,
R662, R187). -/
def State.stampOut (s : State) (q : Nat) (bytes : List Byte) : State :=
  let slot := s.get .EVR_STAMP_NEXT_SLOT
  let s := { s with evr := { s.evr with stamps := ins s.evr.stamps slot bytes } }
  let s := s.set .EVR_STAMP_NEXT_SLOT (slot + 1)
  let s := s.raiseEv
    { code := 0x9004, part := some q, detail := slot + s.slotTally q (s.boundary q (s.image q).steps) % 2 ^ 56 * 256 }
  let s := s.complete (s.home q) { kind := 6, irq := true, detail := toLE 1 q, cont := bytes }
  let s := s.setPart q { s.part q with stamped := true, reports := [] }
  ((s.set .TIM_LAUNCH_STATE_STATE 4 q).dropBindings q).repace

/-- STAMP_FORM (R545, R554): the crown holds every report and b_S + STOPREACH has passed with no stop step. -/
def execStampForm (q : Nat) (s : State) : Host.Outcome State Fault Refusal :=
  let p := s.part q
  let m := s.image q
  if p.crowned ∧ s.runSt q = 3 ∧ p.stop.isNone ∧ p.stamped = false
      ∧ m.members.all (fun x => p.reports.any (fun r => r.member == x))
      ∧ s.reached q (s.boundary q m.steps + m.stopreach) then
    let bytes := s.stampBytes q
    let others := (s.memberCoords q).filter (· ≠ s.coord)
    let s := others.foldl (fun s c => s.sendPk 22 false (s.pkTo 22 22 q c (.stamp p.msg bytes))) s
    .next (s.stampOut q bytes)
  else .next s

/-- STAMP (R545): a member receives the stamp. -/
def execStamp (q : Nat) (bytes : List Byte) (s : State) : Host.Outcome State Fault Refusal :=
  let s := s.takeEj 22 false (fun p => match p.payload with
    | .stamp _ b => b == bytes && p.part == q
    | _ => false)
  if s.runSt q = 3 ∧ (s.part q).stop.isNone ∧ (s.part q).stamped = false then .next (s.stampOut q bytes) else .next s

/-- FINISH_REPORT_MISSING (R546): the crown lacks a report at b_S + 2 x STOPREACH. -/
def execFinishReportMissing (q : Nat) (s : State) : Host.Outcome State Fault Refusal :=
  let p := s.part q
  let m := s.image q
  match m.members.find? (fun x => !p.reports.any (fun r => r.member == x)) with
  | some x =>
    if p.crowned ∧ s.runSt q = 3 ∧ p.stop.isNone ∧ p.stamped = false
        ∧ s.reached q (s.boundary q m.steps + 2 * m.stopreach) then
      .next (s.hreFault q (s.home q) 0x9008 (some (m.steps - 1)) x)
    else .next s
  | none => .next s

end Sys2Proof.Machine
end

