-- ==== Sys2Proof/Machine/EventRec.lean ====
section
/-! DEFINITION. The event recorder's commands (R652-R674, R782). -/
namespace Sys2Proof.Machine

/-- EVENT (R652): an event reaches stop 17. -/
def execEvent (e : Ev) (s : State) : Host.Outcome State Fault Refusal :=
  .next ((s.takeEj 17 false (fun p => p.payload == .event e)).raiseEv e)

/-- The log freezes (R658). -/
def State.freezeLog (s : State) : State :=
  if s.is .EVR_FREEZE_FREEZE then s
  else
    let s := ((s.set .EVR_FREEZE_FREEZE 1).set .EVR_STAT_FROZEN 1).set .EVR_FRZ_CNT_COUNT 0
    { s with evr := { s.evr with deadline := s.tick + usTicks (max 1 (s.get .EVR_FREEZE_LIMIT)) } }

/-- The log unfreezes (R659): held records enter in order with HELD set, then 0xC002 records kept apart, then, at the
limit, 0xC003. -/
def State.unfreezeLog (s : State) (limit : Bool) : State :=
  let hold := s.evr.hold
  let kept := s.evr.kept
  let s := (s.set .EVR_FREEZE_FREEZE 0).set .EVR_STAT_FROZEN 0
  let s := { s with evr := { s.evr with hold := [], kept := [] } }
  let s := hold.foldl (fun s r => s.enter { r with held := true }) s
  let s := kept.foldl State.raiseEv s
  if limit then
    (s.set .EVR_STAT_FRZ_TO 1).raiseEv { code := 0xC003, skind := 12, detail := s.get .EVR_FRZ_CNT_COUNT }
  else s

/-- A write of EVR_FREEZE (R658-R660). -/
def State.evrFreezeWrite (s : State) (who v : Nat) : State :=
  let s := plainWrite who s (addrOf .EVR_FREEZE_FREEZE) v
  if privileged who then
    if bit v 0 then s.freezeLog
    else if s.is .EVR_FREEZE_FREEZE then s.unfreezeLog false else s
  else s

/-- EVR_FREEZE (R658): a write of 1 to FREEZE. -/
def execEvrFreeze (who v : Nat) (s : State) : Host.Outcome State Fault Refusal :=
  if bit v 0 then .next (s.evrFreezeWrite who v) else .next s

/-- EVR_UNFREEZE (R659): a write of 0 to FREEZE. -/
def execEvrUnfreeze (who v : Nat) (s : State) : Host.Outcome State Fault Refusal :=
  if bit v 0 then .next s else .next (s.evrFreezeWrite who v)

/-- FREEZE_LIMIT (R659, R671): the freeze has lasted LIMIT by the local tick. -/
def execFreezeLimit (s : State) : Host.Outcome State Fault Refusal :=
  if s.is .EVR_FREEZE_FREEZE && decide (s.evr.deadline ≤ s.tick) then .next (s.unfreezeLog true) else .next s

/-- A record 0xC002: at once, or kept apart during a freeze (R658, R659). -/
def State.clearRefused (s : State) (quote reason : Nat) : State :=
  let e : Ev := { code := 0xC002, skind := 12, detail := quote % 2 ^ 32 + reason * 2 ^ 32 }
  if s.is .EVR_FREEZE_FREEZE then { s with evr := { s.evr with kept := s.evr.kept ++ [e] } } else s.raiseEv e

/-- The clear is no longer armed. -/
def State.disarm (s : State) : State :=
  { s.set .EVR_STAT_ARMED 0 with evr := { s.evr with armed := none } }

/-- A write of EVR_CLR_ARM: only the management controller or a packet with PRIV = 1 is privileged; a write from any function
is ignored and recorded (R663, R664). -/
def State.clearArm (s : State) (who quote : Nat) : State :=
  if who = 129 then
    { s.set .EVR_STAT_ARMED 1 with evr := { s.evr with armed := some (quote % 2 ^ 32, s.tick + usTicks 1000) } }
  else s.clearRefused quote 1

/-- CLEAR_ARM (R663, R664). -/
def execClearArm (who quote : Nat) (s : State) : Host.Outcome State Fault Refusal := .next (s.clearArm who quote)

/-- The clear is armed with `quote` and has not lapsed. -/
def State.armedWith (s : State) (quote : Nat) : Bool :=
  match s.evr.armed with
  | some (q, t) => q == quote % 2 ^ 32 && decide (s.tick < t)
  | none => false

/-- The log is emptied and record 0xC001 created (R665). -/
def State.clearLog (s : State) (quote : Nat) : State :=
  let ovf := s.get .EVR_OVF_COUNT
  let s := { s.disarm with evr := { s.disarm.evr with log := [], last := [] } }
  let s := (((s.set .EVR_NEXT_SLOT 0).set .EVR_WRITTEN_COUNT 0).set .EVR_DROP_COUNT 0).set .EVR_OVF_COUNT 0
  s.raiseEv { code := 0xC001, skind := 12, detail := quote % 2 ^ 32 + ovf * 2 ^ 32 }

/-- A write of EVR_CLR_COMMIT (R663-R665, R672, R673). -/
def State.clearCommit (s : State) (who quote : Nat) : State :=
  if who ≠ 129 then s.clearRefused quote 1
  else
    let reason := if s.is .EVR_FREEZE_FREEZE then 4
      else if ¬ s.armedWith quote then 2
      else if s.get .EVR_WRITTEN_COUNT ≠ quote % 2 ^ 32 then 3 else 0
    if reason = 0 then s.clearLog quote
    else (s.disarm.set .EVR_STAT_STALE 1).clearRefused quote reason

/-- CLEAR_COMMIT (R663-R665). -/
def execClearCommit (who quote : Nat) (s : State) : Host.Outcome State Fault Refusal := .next (s.clearCommit who quote)

/-- CLEAR_ARM_LAPSE (R664): 1 ms by the local tick has passed. -/
def execClearArmLapse (s : State) : Host.Outcome State Fault Refusal :=
  match s.evr.armed with
  | some (_, t) => if t ≤ s.tick then .next s.disarm else .next s
  | none => .next s

end Sys2Proof.Machine
end

