-- ==== Sys2Proof/Machine/Codec.lean ====
section
/-! DEFINITION. Control packets as bytes: headers (R453), payloads (tables Packet kinds, Fault packet payload, STOPNOTE
payload, LAUNCH payload, Finish report body, HALT packet, Event record), the checks of R457 and R458, and reading. -/
namespace Sys2Proof.Machine

/-- KIND of a payload (table Packet kinds). -/
def plKind (p : Payload) : Nat :=
  match p with
  | .issue _ _ _ _ => 0x01
  | .banksw _ _ => 0x02
  | .read _ _ => 0x03
  | .write _ _ => 0x04
  | .fault _ => 0x08
  | .stopnote _ => 0x09
  | .launch _ _ => 0x0A
  | .report _ _ => 0x0A
  | .stamp _ _ => 0x0A
  | .event _ => 0x0B
  | .halt _ _ => 0x0C
  | .data _ => 0x80
  | .ack => 0x81
  | .error _ => 0xFF
  | .raw k _ => k

/-- Does a packet travel on the reply ring? -/
def pkReply (p : Packet) : Bool := 0x80 ≤ plKind p.payload

/-- FAULT packets are urgent, all others normal. -/
def pkUrgent (p : Packet) : Bool := plKind p.payload == 0x08

/-- Bytes 0-71 of a LAUNCH payload (table LAUNCH payload). -/
def launchBytes (msg : Nat) (m : LaunchMsg) : List Byte :=
  toLE 1 msg ++ toLE 1 (m.dil % 8 + 8 * b2n m.record + 16 * b2n m.replay + 32 * b2n m.allowMix) ++ toLE 1 m.refuse
    ++ toLE 1 m.dclass ++ toLE 7 m.l ++ toLE 5 0 ++ toLE 8 m.seed ++ toLE 8 m.ckpt ++ toLE 32 m.image ++ toLE 8 m.ref

/-- Bytes 72-287 of a finish report (table Finish report body). -/
def reportBytes (m : FinishRep) : List Byte :=
  toLE 2 m.member ++ toLE 1 (b2n m.diverged + 2 * b2n m.logbad + 4 * b2n m.saturated) ++ toLE 1 0 ++ toLE 4 m.ndc
    ++ toLE 8 m.pchecks ++ toLE 8 m.pskip ++ toLE 8 m.shadow ++ toLE 8 m.ecc ++ toLE 8 m.replays
    ++ toLE 8 m.frames ++ toLE 8 m.drops ++ toLE 7 m.firstDiv ++ toLE 1 0 ++ toLE 4 m.divCount ++ toLE 12 0
    ++ (m.indig ++ List.replicate 32 0).take 32 ++ (toLE 32 m.insum).reverse
    ++ (m.outdig ++ List.replicate 32 0).take 32 ++ (toLE 32 m.outsum).reverse

/-- A FAULT packet's payload. A fault without a step carries 0 in STEP; stop 18 of the same device takes the decoded
message (log entry 19). -/
def faultBytes (m : FaultMsg) : List Byte :=
  toLE 2 m.code ++ toLE 2 (m.panel % 2048) ++ toLE 4 (m.step.getD 0) ++ toLE 2 m.layer ++ toLE 2 m.oper
    ++ toLE 1 (m.srck % 16) ++ toLE 1 m.node ++ toLE 2 0

/-- A STOPNOTE's payload. -/
def noteBytes (m : StopNote) : List Byte :=
  toLE 4 m.stopStep ++ toLE 7 m.boundary ++ toLE 1 m.srck ++ toLE 2 (m.fcoord % 4096) ++ toLE 2 m.panel ++ toLE 2 m.code
    ++ toLE 2 m.layer ++ toLE 2 m.oper ++ toLE 2 0 ++ toLE 7 m.launch ++ toLE 9 0

/-- A HALT packet's payload. -/
def haltBytes (msg : Nat) (m : HaltMsg) : List Byte :=
  toLE 1 msg ++ toLE 1 (b2n m.hard + 2 * (m.cause % 8)) ++ toLE 1 m.refuse ++ toLE 1 0 ++ toLE 4 m.hstep
    ++ toLE 7 m.r ++ toLE 1 0 ++ toLE 7 m.launch ++ toLE 1 0 ++ toLE 2 (m.tcoord % 4096) ++ toLE 38 0

/-- An EVENT's payload: the record's fields that the source supplies; stop 17 fills the others (R652). -/
def eventBytes (e : Ev) : List Byte :=
  recBytes { code := e.code, sev := evSev e.code, part := e.part, skind := e.skind, sindex := e.sindex, detail := e.detail }

/-- Payload bytes. A WRITE's length stands where a READ's does (log entry 19). -/
def plBytes (p : Payload) : List Byte :=
  match p with
  | .issue r dies rows cols => toLE 16 r ++ toLE 1 dies ++ toLE 1 rows ++ toLE 2 cols
  | .banksw b bank => toLE 4 b ++ toLE 4 (bank % 2)
  | .read a n => toLE 8 (a % 2 ^ 48 + (n - 1) % 1024 * 2 ^ 48)
  | .write a d => toLE 8 (a % 2 ^ 48 + (d.length - 1) % 1024 * 2 ^ 48) ++ d
  | .fault m => faultBytes m
  | .stopnote m => noteBytes m
  | .launch k m => launchBytes k m
  | .report h m => launchBytes 6 { h with dclass := m.dclass } ++ reportBytes m
  | .stamp h b => launchBytes 7 h ++ b
  | .event e => eventBytes e
  | .halt k m => haltBytes k m
  | .data b => b
  | .ack => []
  | .error st => toLE 1 st
  | .raw _ b => b

/-- Payload bytes that a short KIND uses. -/
def shortBytes (k : Nat) : Nat :=
  match k with
  | 0x02 | 0x03 => 8
  | 0x08 => 16
  | 0xFF => 1
  | _ => 0

/-- Smallest and largest size of a KIND's packets with `n` headers (table Packet kinds); none for a reserved KIND. A short
packet whose payload does not fit behind its headers is 64 bytes long (log entry 44). -/
def kindSize (k n : Nat) : Option (Nat × Nat) :=
  match k with
  | 0x01 => some (64, 64)
  | 0x02 | 0x03 | 0x08 | 0x81 | 0xFF => if 8 * n + shortBytes k ≤ 32 then some (32, 32) else some (64, 64)
  | 0x04 => some (64, 2048)
  | 0x09 | 0x0A | 0x0B | 0x0C | 0x80 => some (32, 2048)
  | _ => none

/-- Number of headers of a packet (R453). -/
def pkHeaders (p : Packet) : Nat := 2 + b2n p.dbg.isSome + b2n p.remote

/-- PLEN: headers and payload rounded up to a packet size of the kind (R452, R529). -/
def pkLen (p : Packet) : Nat :=
  let t := 8 * pkHeaders p + (plBytes p.payload).length
  let n := if t ≤ 32 then 32 else max 64 (ceilDiv t 32 * 32)
  max n ((kindSize (plKind p.payload) (pkHeaders p)).getD (32, 2048)).1

/-- The packet's bytes. -/
def pkBytes (p : Packet) : List Byte :=
  let n := pkLen p
  let route := 1 + 16 + 32 * b2n p.rxp + 64 * b2n p.remote + plKind p.payload % 256 * 2 ^ 8 + p.dst % 256 * 2 ^ 16
    + p.src % 256 * 2 ^ 24 + (if p.remote then p.dcoord % 4096 * 2 ^ 32 else 0) + n % 4096 * 2 ^ 44 + p.rtag % 256 * 2 ^ 56
  let partn := 2 + 16 * b2n (p.dbg.isSome || p.remote) + p.part % 128 * 2 ^ 5 + b2n p.priv * 2 ^ 12
    + p.ctx.getD 0 % 128 * 2 ^ 16 + b2n p.ctx.isSome * 2 ^ 23
  let dbg := match p.dbg with
    | some (t, x) => toLE 8 (3 + 16 * b2n p.remote + 32 * b2n t + x % 2 ^ 16 * 2 ^ 16)
    | none => []
  let tun := if p.remote then
      let w := p.tunnel.getD (0, 0)
      toLE 8 (4 + w.1 % 4096 * 2 ^ 16 + w.2 % 16 * 2 ^ 28)
    else []
  let b := toLE 8 route ++ toLE 8 partn ++ dbg ++ tun ++ plBytes p.payload
  b ++ List.replicate (n - b.length) 0

/-- Header `i` of raw packet bytes, if they hold it. -/
def hdr (bs : List Byte) (i : Nat) : Option Nat := if 8 * i + 8 ≤ bs.length then some (fieldLE bs (8 * i) 8) else none

/-- The chain of headers by their MORE bits, at most five; a header the bytes do not hold ends it as none. -/
def walk (bs : List Byte) (i : Nat) : Nat → List (Option Nat)
  | 0 => []
  | n + 1 =>
    match hdr bs i with
    | none => [none]
    | some h => if bit h 4 then some h :: walk bs (i + 1) n else [some h]

/-- A size that R452 allows. -/
def sizeOk (n : Nat) : Bool := n == 32 || (64 ≤ n && n ≤ 2048 && n % 32 == 0)

/-- Reserved bits of a header are 0 (table Control headers). -/
def resvOk (h : Nat) : Bool :=
  match h % 16 with
  | 1 => bit h 7 == false && (bit h 6 || bits h 32 12 == 0)
  | 2 => bits h 13 3 == 0 && bits h 24 40 == 0
  | 3 => bits h 6 10 == 0 && bits h 32 32 == 0
  | 4 => bits h 5 11 == 0 && bits h 32 32 == 0
  | _ => false

/-- The status of the first check that fails, 0 for none (R453, R457, R458). A reserved KIND gives bad chain, a size
outside the KIND's class bad length, a reserved DST unreachable (log entry 20). -/
def checkBytes (bs : List Byte) : Nat :=
  let n := bs.length
  let hs := walk bs 0 5
  let h0 := match hs with | some h :: _ => h | _ => 0
  let route : Bool := h0 % 16 == 1
  if sizeOk n = false then 2
  else if route && bits h0 44 12 != n then 2
  else if n < 8 * hs.length then 2
  else if hs.length = 5 then 1
  else if route = false then 3
  else
    let ws := hs.filterMap id
    let remote := bit h0 6
    let types := ws.map (fun h => h % 16)
    let want := [1, 2] ++ (if (types.drop 2).head? = some 3 then [3] else []) ++ (if remote then [4] else [])
    if types ≠ want ∨ ws.all resvOk = false then 3
    else match kindSize (bits h0 8 8) hs.length with
      | none => 3
      | some (lo, hi) => if n < lo ∨ hi < n then 2 else if 23 < bits h0 16 8 then 4 else 0

/-- A LAUNCH payload read back. -/
def readLaunch (q src : Nat) (b : List Byte) : LaunchMsg :=
  let fl := fieldLE b 1 1
  { part := q, src := src, dil := fl % 8, record := bit fl 3, replay := bit fl 4, allowMix := bit fl 5, refuse := fieldLE b 2 1,
    dclass := fieldLE b 3 1, l := fieldLE b 4 7, seed := fieldLE b 16 8, ckpt := fieldLE b 24 8, image := fieldLE b 32 32,
    ref := fieldLE b 64 8 }

/-- A finish report read back. -/
def readReport (q coord : Nat) (b : List Byte) : FinishRep :=
  let fl := fieldLE b 74 1
  { part := q, member := fieldLE b 72 2, coord := coord, dclass := fieldLE b 3 1, diverged := bit fl 0, logbad := bit fl 1,
    saturated := bit fl 2, ndc := fieldLE b 76 4, pchecks := fieldLE b 80 8, pskip := fieldLE b 88 8, shadow := fieldLE b 96 8,
    ecc := fieldLE b 104 8, replays := fieldLE b 112 8, frames := fieldLE b 120 8, drops := fieldLE b 128 8,
    firstDiv := fieldLE b 136 7, divCount := fieldLE b 144 4, indig := (b.drop 160).take 32,
    insum := ofLE ((b.drop 192).take 32).reverse, outdig := (b.drop 224).take 32,
    outsum := ofLE ((b.drop 256).take 32).reverse }

/-- A HALT payload read back. -/
def readHalt (q src : Nat) (b : List Byte) : HaltMsg :=
  let fl := fieldLE b 1 1
  { part := q, src := src, hard := bit fl 0, cause := bits fl 1 3, refuse := fieldLE b 2 1, hstep := fieldLE b 4 4,
    r := fieldLE b 8 7, launch := fieldLE b 16 7, tcoord := fieldLE b 24 2 % 4096 }

/-- A payload read back; `src` is the sender's coordinate. -/
def readPayload (k q src : Nat) (b : List Byte) : Payload :=
  match k with
  | 0x01 => .issue (fieldLE b 0 16) (fieldLE b 16 1) (fieldLE b 17 1) (fieldLE b 18 2)
  | 0x02 => .banksw (fieldLE b 0 4) (fieldLE b 4 1 % 2)
  | 0x03 => .read (fieldLE b 0 6) (bits (fieldLE b 6 2) 0 10 + 1)
  | 0x04 => .write (fieldLE b 0 6) ((b.drop 8).take (bits (fieldLE b 6 2) 0 10 + 1))
  | 0x08 => .fault { part := q, code := fieldLE b 0 2, panel := fieldLE b 2 2 % 2048, step := some (fieldLE b 4 4),
                     layer := fieldLE b 8 2, oper := fieldLE b 10 2, srck := fieldLE b 12 1 % 16, node := fieldLE b 13 1 }
  | 0x09 => .stopnote { part := q, stopStep := fieldLE b 0 4, boundary := fieldLE b 4 7, srck := fieldLE b 11 1,
                        fcoord := fieldLE b 12 2 % 4096, panel := fieldLE b 14 2, code := fieldLE b 16 2,
                        layer := fieldLE b 18 2, oper := fieldLE b 20 2, launch := fieldLE b 24 7 }
  | 0x0A =>
    match fieldLE b 0 1 with
    | 6 => .report (readLaunch q src b) (readReport q src b)
    | 7 => .stamp (readLaunch q src b) ((b.drop 72).take 512)
    | m => .launch m (readLaunch q src b)
  | 0x0B => .event { code := fieldLE b 0 2, skind := fieldLE b 4 2 / 4096, sindex := fieldLE b 4 2 % 4096,
                     part := if bit (fieldLE b 3 1) 7 then some (fieldLE b 3 1 % 128) else none, detail := fieldLE b 24 8 }
  | 0x0C => .halt (fieldLE b 0 1) (readHalt q src b)
  | 0x80 => .data b
  | 0x81 => .ack
  | 0xFF => .error (fieldLE b 0 1)
  | _ => .raw k b

/-- A packet read from bytes that passed every check. -/
def readPacket (own : Nat) (bs : List Byte) : Packet :=
  let hs := (walk bs 0 4).filterMap id
  let r := hs.getD 0 0
  let p := hs.getD 1 0
  let dbg := hs.find? (fun h => h % 16 == 3)
  let tun := hs.find? (fun h => h % 16 == 4)
  let q := bits p 5 7
  let sc := match tun with | some h => bits h 16 12 | none => own
  { rxp := bit r 5, remote := bit r 6, dst := bits r 16 8, src := bits r 24 8, dcoord := bits r 32 12, rtag := bits r 56 8,
    part := q, priv := bit p 12, ctx := if bit p 23 then some (bits p 16 7) else none,
    dbg := dbg.map (fun h => (bit h 5, bits h 16 16)), tunnel := tun.map (fun h => (bits h 16 12, bits h 28 4)),
    payload := readPayload (bits r 8 8) q sc (bs.drop (8 * hs.length)) }

end Sys2Proof.Machine
end

