-- ==== Sys2Proof/Machine/SeqOps.lean ====
section
/-! DEFINITION. Shared operations of the sequencer contexts: registers, windows, exceptions, semaphores, requests
(R478-R509). -/
namespace Sys2Proof.Machine

/-- The contexts bound to partition `q`. -/
def State.ctxsOf (s : State) (q : Nat) : List Nat :=
  (List.range 128).filter (fun x => s.is .SEQ_CTX_BIND_BOUND x && s.get .SEQ_CTX_BIND_PART x == q)

/-- PC of context `x`: the 16 bits that SEQ_CTX_STATE shows, and those above them (R478, R485). -/
def State.pcOf (s : State) (x : Nat) : Nat := s.get .SEQ_CTX_STATE_PC x + 2 ^ 16 * (s.ctx x).pcHi

/-- PC set; it counts modulo 2^64 (R485). -/
def State.setPc (s : State) (x v : Nat) : State :=
  (s.setCtx x { s.ctx x with pcHi := v / 2 ^ 16 % 2 ^ 48 }).set .SEQ_CTX_STATE_PC v x

/-- A context executes only during its partition's run, until the run ends or the member halts (R482, R508). -/
def State.ctxRuns (s : State) (x : Nat) : Bool :=
  let q := s.get .SEQ_CTX_BIND_PART x
  s.is .SEQ_CTX_BIND_BOUND x && s.runSt q == 3 && (s.part q).haltedAt.isNone && !(s.part q).finished

/-- Context `x` gives up semaphore `n` of partition `q`: the first waiter takes it, counted when two or more wait
(R492, R497). -/
def State.semRelease (s : State) (q n : Nat) : State :=
  let ws := (s.part q).semWait.filter (fun x => (s.ctx x).waitArg == n)
  match ws with
  | [] => (s.setBit .SEQ_SEM_HELD n false q).setPart q { s.part q with semOwner := del (s.part q).semOwner n }
  | x :: _ =>
    let s := if 2 ≤ ws.length then s.inc .CHK_NDC_COUNT q else s
    let p := s.part q
    let s := s.setPart q { p with semOwner := ins p.semOwner n x, semWait := p.semWait.erase x }
    let c := s.ctx x
    let s := if bit (s.get .DBG_TRC_CTRL_EN q) 1 then
        s.trace q 4 (5 * 4096 + x) c.lastIss (s.get .SEQ_CTX_ID_LAYER x) (s.get .SEQ_CTX_ID_OPER x)
          (2 + n * 256 + (look 0 p.semOwner n) * 2 ^ 16 + 2 ^ 23 + c.since * 2 ^ 24)
      else s
    let s := s.setCtx x { c with g := if c.waitReg = 0 then c.g else ins c.g c.waitReg 1 }
    let s := (s.setPc x (s.pcOf x + 4)).inc .SEQ_CTX_RETIRED_COUNT x
    if s.get .SEQ_CTX_STATE_STATE x = 4 then s.set .SEQ_CTX_STATE_STATE 2 x
    else s.setCtx x { s.ctx x with haltSt := 2 }

/-- Every semaphore that context `x` holds is released (R498). -/
def State.releaseAll (s : State) (q x : Nat) : State :=
  (List.range 32).foldl (fun s n =>
    if s.getBit .SEQ_SEM_HELD n q && look? (s.part q).semOwner n == some x then s.semRelease q n else s) s

/-- Register g`r` of context `x`; g0 reads as 0 (R485). -/
def State.g (s : State) (x r : Nat) : BitVec 64 := if r = 0 then 0 else look 0 (s.ctx x).g r

/-- Register g`r` written; a write to g0 is discarded (R485). -/
def State.setG (s : State) (x r : Nat) (v : BitVec 64) : State :=
  if r = 0 then s else s.setCtx x { s.ctx x with g := put 0 (s.ctx x).g r v }

/-- Bytes of a context's windows (R479). -/
def State.winSize (s : State) (x : Nat) : Nat := 16384 * 2 ^ s.get .SEQ_CTX_BIND_SIZE x

/-- Opens or closes the lock of context `x` (R499). -/
def State.setLock (s : State) (x : Nat) (l : Option (Nat × Nat)) (r : Option Nat) : State :=
  (s.setCtx x { s.ctx x with lock := l, resv := r }).set .SEQ_CTX_STATE_LOCKED (b2n l.isSome) x

/-- An exception (R507): before the instruction; the reservation is cancelled and semaphores released (R498, R500). -/
def State.except (s : State) (x cause status word : Nat) : State :=
  let q := s.get .SEQ_CTX_BIND_PART x
  let pc := s.get .SEQ_CTX_STATE_PC x
  let s := (((s.set .SEQ_CTX_EXC_CAUSE cause x).set .SEQ_CTX_EXC_STATUS status x).set .SEQ_CTX_EXC_PC pc x).set
    .SEQ_CTX_EXCW_WORD word x
  let s := (s.set .SEQ_CTX_STATE_STATE 10 x).releaseAll q x
  let s := s.setCtx x { s.ctx x with resv := none }
  s.raiseFault { part := q, code := 0x8001, step := some (s.ctx x).lastIss, layer := s.get .SEQ_CTX_ID_LAYER x,
                 oper := s.get .SEQ_CTX_ID_OPER x, srck := 5, node := x }
    (cause + status % 256 * 256 + pc * 2 ^ 16 + word * 2 ^ 32)

/-- The instruction completes: PC, RETIRED and the count of an open locked sequence (R501, R509). -/
def State.retireAt (s : State) (x pc : Nat) : State :=
  let c := s.ctx x
  let s := match c.lock with
    | some (a, n) => s.setCtx x { c with lock := some (a, n + 1) }
    | none => s
  (s.setPc x pc).inc .SEQ_CTX_RETIRED_COUNT x

def State.retire (s : State) (x : Nat) : State := s.retireAt x (s.pcOf x + 4)

/-- The lowest request tag of `stop` not in use (R461); none while 64 reservations are held (R451). -/
def State.freeRtag (s : State) (stop : Nat) : Option Nat :=
  if 64 ≤ (s.ctl.reqs.filter (fun e => e.1 / 256 == stop)).length then none
  else (List.range 256).find? (fun t =>
    (look? s.ctl.reqs (256 * stop + t)).isNone && (look? s.ctl.retired (256 * stop + t)).isNone)

/-- The stop that owns a device-local address (R304, R324, R488); reserved addresses go to stop 23 (log entry 18). -/
def ownerStop (a : Nat) : Nat :=
  if a < 0x4800000000 then a / 256 % 8
  else if 0x800000000000 ≤ a ∧ a < 0x800020000000 then (a - 0x800000000000) / 0x4000000
  else 23

/-- A request with RXP = 1 leaves `stop` for board address `ba`, if a tag is free (R451, R461, R488). -/
def State.request (s : State) (stop q ba : Nat) (x : Option Nat) (dbg : Option (Bool × Nat)) (purp : Purp) (pl : Payload) :
    Option State :=
  match s.freeRtag stop with
  | none => none
  | some t =>
    let a := ba % 2 ^ 48
    let slot := ba / 2 ^ 48 % 16
    let pk : Packet := { s.pkTo stop (ownerStop a) q (s.coord / 16 * 16 + slot) pl with
                         rxp := true, rtag := t, ctx := x, dbg := dbg }
    let due := s.tick + usTicks (max 1 (s.get .CTN_REQ_TO_TIMEOUT))
    some (({ s with ctl := { s.ctl with reqs := ins s.ctl.reqs (256 * stop + t) { purp := purp, due := due } } } : State).sendPk
      stop false pk)

/-- The waiting LDR or STR of context `x` completes: status 0 with the data, else an exception (R488, R489). -/
def State.boardReply (s : State) (x : Nat) (status data : Nat) : State :=
  let word := ofLE (readBytes (s.ctx x).imem (s.get .SEQ_CTX_STATE_PC x) 4)
  let s := s.set .SEQ_CTX_STATE_STATE 2 x
  if status = 0 then ((s.setG x (s.ctx x).waitReg (BitVec.ofNat 64 data)).retire x)
  else if status = 8 then s.except x 7 0 word else s.except x 6 status word

/-- A reply for context `x`: held while the context is stopped by a debug halt, discarded when it waits no longer
(R489, R508, R681). -/
def State.boardAnswer (s : State) (x status data : Nat) : State :=
  let st := s.get .SEQ_CTX_STATE_STATE x
  if s.ctxRuns x = false then s
  else if st = 6 then s.boardReply x status data
  else if st = 11 ∧ (s.ctx x).haltSt = 6 then s.setCtx x { s.ctx x with reply := some (status, data) }
  else s

/-- A context goes on after a debug halt, taking a reply that was held (R681, R686). -/
def State.resumeCtx (s : State) (x : Nat) : State :=
  if s.get .SEQ_CTX_STATE_STATE x = 11 then
    let c := s.ctx x
    let s := (s.setCtx x { c with reply := none, haltPend := false }).set .SEQ_CTX_STATE_STATE c.haltSt x
    match c.reply with
    | some (st, d) => s.boardReply x st d
    | none => s
  else s.setCtx x { s.ctx x with haltPend := false }

/-- Packets of one entry of an issue queue: ISSUE to each batt-die gateway of the mask, BANKSW to every gateway that
may hold a node of the slice (R466, R493, R494). -/
def State.issuePackets (s : State) (x : Nat) (b : List Byte) : List Packet :=
  let q := s.get .SEQ_CTX_BIND_PART x
  let stop := 8 + x / 16
  if b.length = 20 then
    let dies := fieldLE b 16 1
    (List.range 8).filterMap (fun d => if bit dies d then
      some { localPk stop d q (.issue (fieldLE b 0 16) dies (fieldLE b 17 1) (fieldLE b 18 2)) with ctx := some x } else none)
  else [0, 1, 2, 3, 4, 5, 6, 7, 20, 21].map (fun d =>
    { localPk stop d q (.banksw (fieldLE b 0 4) (fieldLE b 4 1)) with ctx := some x })

/-- A context that waits for a free entry of its issue queue goes on, or will after a debug halt (R493, R681). -/
def State.queueFree (s : State) (x : Nat) : State :=
  let st := s.get .SEQ_CTX_STATE_STATE x
  if s.ctxRuns x = false then s
  else if st = 8 then s.set .SEQ_CTX_STATE_STATE 2 x
  else if st = 11 ∧ (s.ctx x).haltSt = 8 then s.setCtx x { s.ctx x with haltSt := 2 }
  else s

/-- The quad sends the packets of queued entries in queue order once its stop has nothing waiting to enter, and a
context that waits for a free entry goes on (R466, R493). An entry that selects no die has no packet and leaves at once. -/
def State.quadPump (s : State) (x : Nat) : State :=
  let c := s.ctx x
  let stop := 8 + x / 16
  match c.queue.dropWhile (fun b => s.issuePackets x b == []) with
  | b :: r =>
    if look [] s.ctl.wait (2 * stop) = [] then
      let ps := s.issuePackets x b
      let s := (s.setCtx x { c with queue := r }).queueFree x
      ps.foldl (fun s p => s.sendPk stop false p) s
    else s
  | [] => if c.queue = [] then s else (s.setCtx x { c with queue := [] }).queueFree x

/-- Every context of a quad whose stop has room sends on. -/
def State.pumpStop (s : State) (stop : Nat) : State :=
  (List.range 16).foldl (fun s i => s.quadPump (16 * (stop - 8) + i)) s

/-- Partition's shared-store range in bytes (R480). -/
def State.shrBase (s : State) (q : Nat) : Nat := 64 * s.get .SEQ_SHR_BASE q
def State.shrSize (s : State) (q : Nat) : Nat := 64 * s.get .SEQ_SHR_SIZE q

/-- A store to the shared store cancels other contexts' reservations on the word (R500). -/
def State.shrStore (s : State) (q x a : Nat) (v : BitVec 64) : State :=
  let s : State := { s with shr := writeBytes s.shr (s.shrBase q + a) (toLE 8 v.toNat) }
  (s.ctxsOf q).foldl (fun s y =>
    if y ≠ x ∧ (s.ctx y).resv = some a then s.setCtx y { s.ctx y with resv := none } else s) s

end Sys2Proof.Machine
end

