-- ==== Sys2Proof/Machine/Control.lean ====
section
/-! DEFINITION. The control rings: entry, hops, ejection, drops, gateways, port control frames, replies (R445-R477). -/
namespace Sys2Proof.Machine

/-- The port a port gateway takes for a coordinate (R464). -/
def State.exitPort (s : State) (dc : Nat) : Option Nat :=
  let ok (p : Nat) : Bool := s.get .LNK_P_CONF_STATE p == 1 || s.get .LNK_P_CONF_STATE p == 2
  let far (p : Nat) : Nat := s.get .LNK_P_CONF_FAR p
  let ps := (List.range 32).filter ok
  match ps.find? (fun p => far p == dc) with
  | some p => some p
  | none => match ps.find? (fun p => decide (16 ≤ p) && far p / 16 == dc / 16) with
    | some p => some p
    | none => ps.find? (fun p => far p / 256 == dc / 256)

/-- Is the packet meant for another device? -/
def State.leaves (s : State) (pk : Packet) : Bool := pk.remote && pk.dcoord != s.coord

/-- The stop at which the packet leaves the rings of this device: its destination, or the gateway of its port; a packet
with no port goes to the board-port gateway, which drops it (R462, R464). -/
def State.target (s : State) (pk : Packet) : Nat :=
  if s.leaves pk then (match s.exitPort pk.dcoord with | some p => if p < 16 then 20 else 21 | none => 20) else pk.dst

/-- The counter of a drop reason (table CTN fields). -/
def dropFld (status : Nat) : Fld :=
  match status with
  | 1 => .CTN_OVERDEPTH_COUNT | 2 => .CTN_BADLEN_COUNT | 3 => .CTN_BADCHAIN_COUNT | 4 => .CTN_UNREACH_COUNT
  | 5 => .CTN_DENIED_COUNT | _ => .CTN_BUSYDROP_COUNT

/-- A drop is counted and recorded in CTN_LAST_DROP (R459). -/
def State.noteDrop (s : State) (stop status kind src : Nat) : State :=
  ((((s.inc (dropFld status)).set .CTN_LAST_DROP_REASON status).set .CTN_LAST_DROP_STOP stop).set
    .CTN_LAST_DROP_KIND kind).set .CTN_LAST_DROP_SRC src

/-- A reply to the sender of `pk` from `stop`: along SRC, and SCOORD when the packet crossed a port (R459). -/
def State.replyTo (s : State) (stop : Nat) (pk : Packet) (pl : Payload) : State :=
  let to_ := match pk.tunnel with | some (c, _) => c | none => s.coord
  if 24 ≤ pk.src then s
  else s.sendPk stop true { s.pkTo stop pk.src pk.part to_ pl with rtag := pk.rtag, dbg := pk.dbg }

/-- A packet that fails a check is dropped whole (R459). -/
def State.dropPk (s : State) (stop status : Nat) (pk : Packet) : State :=
  let s := s.noteDrop stop status (plKind pk.payload) pk.src
  if pk.rxp then s.replyTo stop pk (.error status) else s

/-- Raw bytes that fail a check are dropped whole; the reply goes out where the first header is a route header with
RXP 1 and the return path is known (R459, R470-R472). -/
def State.dropBytes (s : State) (stop status : Nat) (crossed : Bool) (bs : List Byte) : State :=
  let hs := (walk bs 0 4).filterMap id
  let r := hs.getD 0 0
  if r % 16 = 1 then
    let s := s.noteDrop stop status (bits r 8 8) (bits r 24 8)
    let tun := hs.find? (fun h => h % 16 == 4)
    if bit r 5 && (!crossed || tun.isSome) then
      let q := match hs.getD 1 0 with | h => if h % 16 = 2 then bits h 5 7 else 0
      s.replyTo stop { src := bits r 24 8, rtag := bits r 56 8, part := q,
                       tunnel := if crossed then tun.map (fun h => (bits h 16 12, 0)) else none } (.error status)
    else s
  else s.noteDrop stop status 0 0xFF

/-- Key of the buffers of a class at a stop. -/
def bufKey (stop : Nat) (reply urgent : Bool) : Nat := 4 * stop + 2 * b2n reply + b2n urgent

/-- Packets in the buffers of a class at a stop. -/
def State.bufs (s : State) (stop : Nat) (reply urgent : Bool) : List Packet := look [] s.ctl.bufs (bufKey stop reply urgent)

def State.setBufs (s : State) (stop : Nat) (reply urgent : Bool) (l : List Packet) : State :=
  { s with ctl := { s.ctl with bufs := ins s.ctl.bufs (bufKey stop reply urgent) l } }

/-- Buffers of a class at each stop of each ring (R447). -/
def bufCap (urgent : Bool) : Nat := if urgent then 2 else 4

/-- Packets waiting to enter, and their list replaced. -/
def State.waiting (s : State) (stop : Nat) (reply : Bool) : List Packet := look [] s.ctl.wait (2 * stop + b2n reply)
def State.setWaiting (s : State) (stop : Nat) (reply : Bool) (l : List Packet) : State :=
  { s with ctl := { s.ctl with wait := ins s.ctl.wait (2 * stop + b2n reply) l } }

/-- The ejection queue of a stop, and replaced. -/
def State.ejected (s : State) (stop : Nat) (reply : Bool) : List Packet := look [] s.ctl.ejq (2 * stop + b2n reply)
def State.setEjected (s : State) (stop : Nat) (reply : Bool) (l : List Packet) : State :=
  { s with ctl := { s.ctl with ejq := ins s.ctl.ejq (2 * stop + b2n reply) l } }

/-- The next stop of a ring (R445). -/
def nextStop (reply : Bool) (n : Nat) : Nat := if reply then (n + 23) % 24 else (n + 1) % 24

/-- The first waiting packet whose class has two free buffers: an urgent packet takes the next free urgent buffer
(R448, R474). -/
def State.mayEnter (s : State) (stop : Nat) (reply : Bool) : Option Packet :=
  let free (u : Bool) : Bool := decide ((s.bufs stop reply u).length + 2 ≤ bufCap u)
  match (s.waiting stop reply).find? (fun p => pkUrgent p && free true) with
  | some p => some p
  | none => (s.waiting stop reply).find? (fun p => !pkUrgent p && free false)

/-- The stop before `n` on a ring. -/
def prevStop (reply : Bool) (n : Nat) : Nat := if reply then (n + 1) % 24 else (n + 23) % 24

/-- Does a packet in a stop's buffers go on to the next stop: it is bound elsewhere, or it finds the ejection queue full and has
circuits left (R450)? -/
def State.goesOn (s : State) (reply : Bool) (stop : Nat) (p : Packet) : Bool :=
  s.target p != stop || (!reply && decide (8 ≤ (s.ejected stop reply).length) && decide (p.circuits < 256))

/-- A packet of a stop's buffers that is ready to move to the next stop (R447). -/
def State.mayHop (s : State) (reply : Bool) (stop : Nat) (u : Bool) : Option Packet :=
  if (s.bufs (nextStop reply stop) reply u).length < bufCap u then (s.bufs stop reply u).find? (s.goesOn reply stop) else none

/-- Is a normal packet held up on the link behind an urgent one that is ready to move (R449)? -/
def State.behind (s : State) (reply : Bool) (stop : Nat) (u : Bool) : Bool := !u && (s.mayHop reply stop true).isSome

/-- Is a packet in transit ready to move into a buffer of the class at `stop` (R448)? -/
def State.inTransit (s : State) (reply : Bool) (stop : Nat) (u : Bool) : Bool :=
  (s.mayHop reply (prevStop reply stop) u).isSome && !s.behind reply (prevStop reply stop) u

/-- RING_ENTRY (R448, R456): the packet enters after its checks, unless a packet in transit takes precedence. A quad whose stop has
nothing waiting sends on. -/
def execRingEntry (reply : Bool) (stop : Nat) (s : State) : Host.Outcome State Fault Refusal :=
  match s.mayEnter stop reply with
  | some pk =>
    if s.inTransit reply stop (pkUrgent pk) then .next s
    else
      let s := s.setWaiting stop reply ((s.waiting stop reply).erase pk)
      let st := checkBytes (pkBytes pk)
      let s := if st = 0 then s.setBufs stop reply (pkUrgent pk) (s.bufs stop reply (pkUrgent pk) ++ [pk])
        else s.dropPk stop st pk
      .next (if !reply && decide (8 ≤ stop ∧ stop < 16) then s.pumpStop stop else s)
  | none => .next s

/-- A packet moves to the next stop. One that passes its destination has made one more circuit, counted as a recirculation (R450). -/
def State.hop (s : State) (reply : Bool) (stop : Nat) (u : Bool) (pk : Packet) : State :=
  let here := s.target pk == stop
  let pk' := if here then { pk with circuits := pk.circuits + 1 } else pk
  let s := if here then s.inc .CTN_RECIRC_COUNT else s
  let s := s.setBufs stop reply u ((s.bufs stop reply u).erase pk)
  s.setBufs (nextStop reply stop) reply u (s.bufs (nextStop reply stop) reply u ++ [pk'])

/-- RING_HOP (R447, R449, R450): an urgent packet ready to move goes before a normal one. -/
def execRingHop (reply : Bool) (stop : Nat) (urgent : Bool) (s : State) : Host.Outcome State Fault Refusal :=
  match s.mayHop reply stop urgent with
  | some pk => if s.behind reply stop urgent then .next s else .next (s.hop reply stop urgent pk)
  | none => .next s

/-- Unacknowledged frames a port's sender may hold (R463). -/
def frameCap : Nat := 8

/-- Fragments of a packet sent as frame `f` (R462). -/
def fragsOf (f : Nat) (bs : List Byte) (i : Nat) : Nat → List Fragment
  | 0 => []
  | n + 1 => { fseq := f, fidx := i, last := n == 0, data := bs.take 32 } :: fragsOf f (bs.drop 32) (i + 1) n

/-- The port gateway at `stop` takes the packets of its ejection queue to their ports (R455, R462-R464). -/
def State.gatewayTake (s : State) (stop : Nat) (reply : Bool) : State :=
  match (s.ejected stop reply).find? s.leaves with
  | some pk =>
    let ttl := match pk.tunnel with | some (_, t) => t | none => 0
    let rest := (s.ejected stop reply).erase pk
    match s.exitPort pk.dcoord with
    | some p =>
      if ttl = 0 then (s.setEjected stop reply rest).dropPk stop 4 pk
      else
        let x := s.port p
        if x.txFrames.length < frameCap then
          let pk' := { pk with tunnel := pk.tunnel.map (fun w => (w.1, w.2 - 1)) }
          let bs := pkBytes pk'
          let fr := fragsOf x.txNext bs 0 (bs.length / 32)
          (s.setEjected stop reply rest).setPort p
            { x with txFrames := x.txFrames ++ [(x.txNext, fr)], txNext := (x.txNext + 1) % 16,
                     msgs := x.msgs ++ fr.map MaintMsg.frag }
        else s
    | none => (s.setEjected stop reply rest).dropPk stop 4 pk
  | none => s

/-- Both port gateways send what they can. -/
def State.gatewayPump (s : State) : State :=
  (List.range 8).foldl (fun s _ =>
    (((s.gatewayTake 20 false).gatewayTake 20 true).gatewayTake 21 false).gatewayTake 21 true) s

/-- A PACKET trace record at the ejecting stop (R694, R695). -/
def State.tracePacket (s : State) (stop : Nat) (pk : Packet) : State :=
  match pk.dbg with
  | some (true, _) =>
    if s.getBit .DBG_TRC_CTRL_EN 3 pk.part then
      s.trace pk.part 6 (8 * 4096 + stop) 0 0 0 (plKind pk.payload + pk.dst % 256 * 2 ^ 8 + pk.src % 256 * 2 ^ 16
        + (if pk.remote then pk.dcoord % 4096 else 0) * 2 ^ 24 + pkLen pk % 4096 * 2 ^ 36 + pk.rtag % 256 * 2 ^ 48)
    else s
  | _ => s

/-- PACKET_EJECT (R450, R451, R456): a reply always finds its reserved space; a request finds one of eight places or
passes on for another circuit. -/
def execPacketEject (reply : Bool) (stop : Nat) (urgent : Bool) (s : State) : Host.Outcome State Fault Refusal :=
  match (s.bufs stop reply urgent).find? (fun p => s.target p == stop) with
  | some pk =>
    let out := s.setBufs stop reply urgent ((s.bufs stop reply urgent).erase pk)
    let st := checkBytes (pkBytes pk)
    if st ≠ 0 then .next (out.dropPk stop st pk)
    else if reply = true ∨ (s.ejected stop reply).length < 8 then
      let s := (out.setEjected stop reply (out.ejected stop reply ++ [{ pk with circuits := 0 }])).tracePacket stop pk
      .next s.gatewayPump
    else if (s.bufs (nextStop reply stop) reply urgent).length < bufCap urgent ∧ pk.circuits < 256
        ∧ s.behind reply stop urgent = false then .next (s.hop reply stop urgent pk)
    else .next s
  | none => .next s

/-- RECIRCULATION_LIMIT (R450, R475): a request back at its stop after 256 circuits is dropped with status 6. -/
def execRecirculationLimit (stop : Nat) (s : State) : Host.Outcome State Fault Refusal :=
  match ([false, true] : List Bool).findSome? (fun u =>
      ((s.bufs stop false u).find? (fun p => s.target p == stop && decide (256 ≤ p.circuits))).map (fun p => (u, p))) with
  | some (u, pk) => .next ((s.setBufs stop false u ((s.bufs stop false u).erase pk)).dropPk stop 6 pk)
  | none => .next s

/-- A packet arrives whole at the gateway of `stop` (R456-R459): after the checks it waits to enter its ring. -/
def State.ingress (s : State) (stop : Nat) (crossed : Bool) (bs : List Byte) : State :=
  let st := checkBytes bs
  if st ≠ 0 then s.dropBytes stop st crossed bs
  else
    let pk := readPacket s.coord bs
    s.sendPk stop (pkReply pk) (if crossed then pk else { pk with tunnel := if s.leaves pk then pk.tunnel else none })

/-- GATEWAY_INGRESS (R456). -/
def execGatewayIngress (stop : Nat) (crossed : Bool) (data : List Byte) (s : State) : Host.Outcome State Fault Refusal :=
  .next (s.ingress stop crossed data)

/-! Port control frames (R462, R463). -/

/-- Frames up to and including `seq` are acknowledged, when the sender holds one of that number. -/
def ackFrames (l : List (Nat × List Fragment)) (seq : Nat) : List (Nat × List Fragment) :=
  if l.any (fun f => f.1 == seq) then (l.dropWhile (fun f => f.1 != seq)).drop 1 else l

/-- The gateway stop of a port. -/
def gatewayOf (port : Nat) : Nat := if port < 16 then 20 else 21

/-- One fragment arrives on a port (R463). A frame received before is acknowledged again; a frame that finds no free
normal buffer is not acknowledged. -/
def State.takeFragment (s : State) (port : Nat) (f : Fragment) : State :=
  let x := s.port port
  let x := if f.ackv then
      let l := ackFrames x.txFrames f.ackseq
      { x with txFrames := l, txSince := if l.length < x.txFrames.length then 0 else x.txSince }
    else x
  let s := (s.setPort port x).gatewayPump
  let x := s.port port
  if f.ackOnly then s
  else if f.fseq ≠ x.rxFrames % 16 then
    s.setPort port { x with rxCount := 0, rxFrags := [], ackDue := x.ackDue || decide ((x.rxFrames + 16 - f.fseq) % 16 ≤ 8) }
  else if f.fidx ≠ 0 ∧ f.fidx ≠ x.rxCount then s.setPort port { x with rxCount := 0, rxFrags := [] }
  else
    let bs := (if f.fidx = 0 then [] else x.rxFrags) ++ (f.data ++ List.replicate 32 0).take 32
    if f.last then
      let stop := gatewayOf port
      let reply := checkBytes bs == 0 && pkReply (readPacket s.coord bs)
      if (s.bufs stop reply false).length < 4 then
        let y := { x with rxCount := 0, rxFrags := [], rxFrames := (x.rxFrames + 1) % 16, rxAny := true, ackDue := true }
        (s.setPort port y).ingress stop true bs
      else s.setPort port { x with rxCount := 0, rxFrags := [] }
    else s.setPort port { x with rxCount := f.fidx + 1, rxFrags := bs }

/-- PORT_CONTROL_FRAME (R463): a frame's fragments arrive in order. -/
def execPortControlFrame (port : Nat) (frs : List Fragment) (s : State) : Host.Outcome State Fault Refusal :=
  .next (frs.foldl (fun s f => s.takeFragment port f) s)

/-- PORT_CONTROL_RESEND (R463): 64 maintenance slots without a new acknowledgement. -/
def execPortControlResend (port : Nat) (s : State) : Host.Outcome State Fault Refusal :=
  let x := s.port port
  if 64 ≤ x.txSince ∧ x.txFrames ≠ [] then
    let isFrag (m : MaintMsg) : Bool := match m with | .frag _ => true | _ => false
    let x' := { x with txSince := 0,
                       msgs := x.msgs.filter (fun m => !isFrag m) ++ x.txFrames.flatMap (fun f => f.2.map MaintMsg.frag) }
    .next ((s.setPort port x').inc .CTN_PORT_RTX_COUNT 0 x.txFrames.length)
  else .next s

/-! Replies and timeouts (R451, R461, R489, R690). -/

/-- A request completes at its requester with a status and, for a read, its data; a debug read that fails reads all ones (R326). -/
def State.finishReq (s : State) (p : Purp) (status : Nat) (data : List Byte) : State :=
  match p with
  | .ldr x _ => s.boardAnswer x status (fieldLE data 0 8)
  | .str x => s.boardAnswer x status 0
  | .dacc _ =>
    let s := ((s.set .DBG_DACC_CTRL_BUSY 0).set .DBG_DACC_CTRL_STATUS status)
    if status = 0 then s.set .DBG_DACC_DATA_DATA (fieldLE data 0 8)
    else (s.set .DBG_DACC_DATA_DATA (2 ^ 64 - 1)).set .DBG_DACC_CTRL_ERR 1
  | .tap _ =>
    let v := if status = 0 then fieldLE data 0 8 else 2 ^ 64 - 1
    { s with boot := { s.boot with tapData := v + status % 256 * 2 ^ 64 } }

/-- A reply reaches `stop`: it ends the request of its tag, or is discarded and counted (R461, R473). -/
def State.takeReply (s : State) (stop : Nat) (pk : Packet) (status : Nat) (data : List Byte) : State :=
  let s := s.takeEj stop true (fun p => p == pk)
  let k := 256 * stop + pk.rtag % 256
  match look? s.ctl.reqs k with
  | some r => ({ s with ctl := { s.ctl with reqs := del s.ctl.reqs k } } : State).finishReq r.purp status data
  | none => s.inc .CTN_LATE_RPL_COUNT

/-- DATA (R489). -/
def execData (stop : Nat) (pk : Packet) (s : State) : Host.Outcome State Fault Refusal :=
  match pk.payload with
  | .data b => .next (s.takeReply stop pk 0 b)
  | _ => .next s

/-- ACK (R489). -/
def execAck (stop : Nat) (pk : Packet) (s : State) : Host.Outcome State Fault Refusal :=
  match pk.payload with
  | .ack => .next (s.takeReply stop pk 0 [])
  | _ => .next s

/-- ERROR (R489). -/
def execError (stop : Nat) (pk : Packet) (s : State) : Host.Outcome State Fault Refusal :=
  match pk.payload with
  | .error st => .next (s.takeReply stop pk st [])
  | _ => .next s

/-- The request timeout in local ticks (R461, R469). -/
def State.reqTo (s : State) : Nat := usTicks (max 1 (s.get .CTN_REQ_TO_TIMEOUT))

/-- REQUEST_TIMEOUT (R461): status 8 at the requester; the tag is retired for four times the timeout. -/
def execRequestTimeout (stop rtag : Nat) (s : State) : Host.Outcome State Fault Refusal :=
  let k := 256 * stop + rtag
  match look? s.ctl.reqs k with
  | some r =>
    if r.due ≤ s.tick then
      let s := { s with ctl := { s.ctl with reqs := del s.ctl.reqs k,
                                            retired := ins s.ctl.retired k (r.due + 4 * s.reqTo) } }
      .next ((s.inc .CTN_TIMEOUT_COUNT).finishReq r.purp 8 [])
    else .next s
  | none => .next s

/-- RTAG_RELEASE (R461). -/
def execRtagRelease (stop rtag : Nat) (s : State) : Host.Outcome State Fault Refusal :=
  match look? s.ctl.retired (256 * stop + rtag) with
  | some t => if t ≤ s.tick then
      .next { s with ctl := { s.ctl with retired := del s.ctl.retired (256 * stop + rtag) } } else .next s
  | none => .next s

end Sys2Proof.Machine
end

