-- ==== Sys2Proof/Machine/Capture.lean ====
section
/-! DEFINITION. Capture units (R631-R636, R647). -/
namespace Sys2Proof.Machine

/-- Does unit `n` take a sample of source `src` whose place the SCOPE field selects by `inScope`, attributable to `part`
(R631, R634)? -/
def State.takes (s : State) (n src : Nat) (inScope : Nat → Bool) (part : Option Nat) : Bool :=
  s.is .CU_CTRL_EN n && s.get .CU_CTRL_SRC n == src && inScope (s.get .CU_SCOPE_SCOPE n)
    && (!s.is .CU_CTRL_PSCOPE n || part == some (s.get .CU_CTRL_PART n))

/-- One sample waits in the queue of every unit that takes it, or is lost (R631, R633). -/
def State.sample (s : State) (src : Nat) (inScope : Nat → Bool) (part : Option Nat) (v : Nat) : State :=
  (List.range 16).foldl (fun s n =>
    if s.takes n src inScope part then
      let c := s.cap n
      if c.queue.length < 2048 then s.setCap n { c with queue := c.queue ++ [min v (2 ^ 32 - 1)] }
      else s.setCap n { c with lost := satAdd 32 c.lost 1 }
    else s) s

/-- SCOPE as a die mask and a row mask, for a panel window. -/
def panelScope (w : Nat) (scope : Nat) : Bool := bit scope (w / 136) && bit scope (8 + w % 136 / 17)

/-- The bin of a sample (R632). -/
def binOf (log : Bool) (base width v : Nat) : Nat :=
  let base := max 1 base
  if log then (if v < base then 0 else min 15 (Nat.log2 (v / base) + 1))
  else if v < base then 0 else min 15 ((v - base) / max 1 width)

/-- A sample enters the live values (R632). -/
def Cap.enter (c : Cap) (log : Bool) (base width v : Nat) : Cap :=
  let k := binOf log base width v
  { c with count := satAdd 64 c.count 1, min_ := min c.min_ v, max_ := max c.max_ v,
           bins := put 0 c.bins k (satAdd 32 (look 0 c.bins k) 1) }

/-- The live values of a unit as cleared (R635, R636). -/
def Cap.clear (c : Cap) : Cap := { queue := c.queue, snaps := c.snaps }

/-- The samples in `l` enter the live values of unit `n`. -/
def State.enterAll (s : State) (n : Nat) (c : Cap) (l : List Nat) : Cap :=
  l.foldl (fun c v => c.enter (s.is .CU_CTRL_MODE n) (s.get .CU_BASE_BASE n) (s.get .CU_WIDTH_WIDTH n) v) c

/-- The live values go to the snapshot registers with the tally (R636). -/
def State.snapUnit (s : State) (n : Nat) (c : Cap) : State :=
  let s := ((((s.set .CU_COUNT_COUNT c.count n).set .CU_MIN_MIN c.min_ n).set .CU_MAX_MAX c.max_ n).set
    .CU_LOST_LOST c.lost n).set .CU_STAMP_TALLY s.tally n
  (List.range 16).foldl (fun s k => s.set .CU_BIN_BIN (look 0 c.bins k) (16 * n + k)) s

/-- The snapshots `l` are taken in order among the samples `q`, of which `k` have entered already. -/
def State.drainSnaps (s : State) (n : Nat) (c : Cap) (q : List Nat) : Nat → List (Nat × Bool) → State
  | k, [] => s.setCap n (s.enterAll n c (q.drop k))
  | k, (m, clr) :: r =>
    let live := s.enterAll n c ((q.take m).drop k)
    (s.snapUnit n live).drainSnaps n (if clr then live.clear else live) q m r

/-- CAPTURE_DRAIN (R633, R647): the controller drains unit `n`'s queue, and the snapshots asked for take effect among the
samples where they were asked for. -/
def execCaptureDrain (n : Nat) (s : State) : Host.Outcome State Fault Refusal :=
  let c := s.cap n
  .next (s.drainSnaps n { c with queue := [], snaps := [] } c.queue 0 c.snaps)

/-- The register of unit `n` that holds EN and SNAP. -/
def cuCtrl (n : Nat) : Nat := addrOf .CU_CTRL_EN n

/-- Configuration fields of a unit (R635). -/
def cuConfig : List Fld := [.CU_CTRL_MODE, .CU_CTRL_PSCOPE, .CU_CTRL_PART, .CU_CTRL_SRC, .CU_SCOPE_SCOPE, .CU_BASE_BASE,
  .CU_WIDTH_WIDTH]

/-- The snapshot of unit `n` (R636): at once when no sample waits, else when the queue is drained. -/
def State.askSnap (s : State) (n : Nat) : State :=
  let c := s.cap n
  let clr := s.is .CU_CTRL_CLRSNAP n
  if c.queue.isEmpty then
    let s := s.snapUnit n c
    if clr then s.setCap n c.clear else s
  else s.setCap n { c with snaps := c.snaps ++ [(c.queue.length, clr)] }

/-- A write of CU_CTRL by the physical function or the management controller (R634-R636). Configuration changes only
while EN is 0; writing EN from 0 to 1 clears the live values. -/
def State.cuCtrlWrite (s : State) (who n v : Nat) : State :=
  if privileged who && decide (n < 16) then
    let en := s.is .CU_CTRL_EN n
    let s := s.set .CU_CTRL_CLRSNAP (bits v 2 1) n
    let s := if en then s else
      (((s.set .CU_CTRL_MODE (bits v 3 1) n).set .CU_CTRL_PSCOPE (bits v 4 1) n).set .CU_CTRL_PART (bits v 8 7) n).set
        .CU_CTRL_SRC (bits v 16 4) n
    let s := s.set .CU_CTRL_EN (bits v 0 1) n
    let s := if !en && bit v 0 then s.setCap n (s.cap n).clear else s
    if bit v 1 then s.askSnap n else s
  else s

/-- CU_ENABLE (R635): a write of CU_CTRL with EN 1. -/
def execCuEnable (who n v : Nat) (s : State) : Host.Outcome State Fault Refusal := .next (s.cuCtrlWrite who n v)

/-- CU_SNAP (R636): a write of CU_CTRL with SNAP 1. -/
def execCuSnap (who n v : Nat) (s : State) : Host.Outcome State Fault Refusal := .next (s.cuCtrlWrite who n v)

end Sys2Proof.Machine
end

