-- ==== Sys2Proof/Machine/Rings.lean ====
section
/-! DEFINITION. The ring engine: DMA reads, doorbell words, egress frames, completion records and interrupts
(R387-R398, R406-R430, R434-R442). -/
namespace Sys2Proof.Machine

/-- Partition to which a function's ring attributes an event (R653). -/
def fnPart (fn : Nat) : Option Nat := if fn = 0 then none else some (fn - 1)

/-- The read timeout in local ticks (R422, HRE_DMA_TO limits of R431). -/
def State.dmaTo (s : State) : Nat := usTicks (50 * min 1280 (max 1 (s.get .HRE_DMA_TO_TIMEOUT)))

/-- The lowest tag neither outstanding nor quarantined (log entry 16), at most 4,096 outstanding (R384, R423). -/
def State.freeTag (s : State) : Option Nat :=
  if 4096 ≤ s.hre.dma.length then none
  else (List.range 16384).find? (fun t => (look? s.hre.dma t).isNone && (look? s.hre.quar t).isNone)

/-! Intake points as the ring engine sees them (R400-R407). -/

/-- The declaration of intake point `k` of partition `q`. -/
def State.point (s : State) (q k : Nat) : Option ImgIntake := (s.image q).img.intakes[k]?

/-- Where point `k` stands. -/
def State.intakeSt (s : State) (q k : Nat) : IntakeSt := look .waiting (s.part q).intakes k

def State.setIntake (s : State) (q k : Nat) (x : IntakeSt) : State :=
  s.setPart q { s.part q with intakes := ins (s.part q).intakes k x }

/-- What the reads of point `k` have returned. -/
def State.inRead (s : State) (q k : Nat) : InRead := look {} (s.part q).inReads k

def State.setInRead (s : State) (q k : Nat) (x : InRead) : State :=
  s.setPart q { s.part q with inReads := ins (s.part q).inReads k x }

/-- The ring of an intake point, of function `ringFn`. -/
def ringOf (p : ImgIntake) : Nat := 4 + p.ring

/-- An intake fault (R402, R403, R407, R441, R532): its step is the one whose window holds I. -/
def State.intakeFault (s : State) (q k code : Nat) (p : ImgIntake) : State :=
  (s.setIntake q k .faulted).hreFault q (s.home q) code (some (s.stepOf q p.slot)) (k % 256 + p.ring % 256 * 256)

/-- The point of partition `q` on ring `r` that is next to be performed: of those not yet performed the one with the lowest slot. -/
def State.nextPoint (s : State) (q r : Nat) : Option (ImgIntake × Nat) :=
  ((s.image q).img.intakes.zipIdx.filter (fun e => ringOf e.1 == r && decide ((s.part q).base ≤ e.1.slot)
    && (s.intakeSt q e.2 == .waiting || s.intakeSt q e.2 == .reading))).foldl
      (fun m e => match m with
        | none => some e
        | some x => if e.1.slot < x.1.slot then some e else some x) none

/-! DMA reads (R384, R422-R426). -/

/-- The largest read request in bytes (R384). -/
def State.readMax (s : State) : Nat := 128 * 2 ^ min 5 s.hre.readCode

/-- The largest payload of a write in bytes (R384). -/
def State.payMax (s : State) : Nat := 128 * 2 ^ min 2 s.hre.payCode

/-- `len` bytes at `addr` in pieces that end at multiples of `sz`, as (offset, length); the first argument bounds their number. -/
def piecesOf (sz addr : Nat) : Nat → Nat → Nat → List (Nat × Nat)
  | 0, _, _ => []
  | k + 1, off, len =>
    if len = 0 then []
    else
      let n := min len (sz - (addr + off) % sz)
      (off, n) :: piecesOf sz addr k (off + n) (len - n)

/-- The pieces of `len` bytes at `addr` (log entry 152). -/
def pieces (sz addr len : Nat) : List (Nat × Nat) := piecesOf sz addr len 0 len

/-- What reads were for is at an end: their data will be discarded, and those not yet issued are not made. -/
def State.voidDma (s : State) (f : DmaPurp → Bool) : State :=
  { s with hre := { s.hre with
      dma := s.hre.dma.map (fun e => (e.1, if f e.2.purp then { e.2 with purp := .void } else e.2)),
      dmaWait := s.hre.dmaWait.filter (fun e => !f e.1) } }

/-- A read for the LOAD of function `fn`? -/
def forLoad (fn : Nat) (p : DmaPurp) : Bool := match p with
  | .load f _ _ => f == fn
  | _ => false

/-- A read of descriptors of ring `r` of function `fn`? -/
def forDescs (fn r : Nat) (p : DmaPurp) : Bool := match p with
  | .sub f _ _ => f == fn && r == 0
  | .bufs f x _ _ => f == fn && x == r
  | _ => false

/-- A read of an intake point of partition `q`? -/
def forIntake (q : Nat) (p : DmaPurp) : Bool := match p with
  | .point x _ => x == q
  | .desc x _ _ _ => x == q
  | .input x _ _ _ => x == q
  | _ => false

/-- The command whose descriptor could not be read: its fields are free values (log entry 58). -/
def State.unreadSub (s : State) (fn : Nat) : State :=
  let v := s.freeV
  s.fresh.complete fn { kind := 1, irq := decide (v / 2 ^ 32 % 2 = 1), status := 2, tag := v % 2 ^ 32,
                        detail := toLE 1 (if fn = 0 then v / 2 ^ 33 % 128 else fn - 1) ++ toLE 1 (v / 2 ^ 40) }

/-- An intake read failed: the intake is late at its deadline (R404, R426). -/
def State.intakeFailed (s : State) (q k : Nat) : State :=
  let s := match s.point q k with
    | some p => s.set .RING_ERR_RD_ERR 1 (16 * (s.part q).ringFn + ringOf p)
    | none => s
  if s.intakeSt q k = .reading then s.setIntake q k .failed else s

/-- A failed read (R426): what it was for decides. -/
def State.readFailed (s : State) (p : DmaPurp) : State :=
  match p with
  | .doorbell fn r => s.set .RING_ERR_RD_ERR 1 (16 * fn + r)
  | .sub fn _ n =>
    let s := (s.set .RING_ERR_RD_ERR 1 (16 * fn)).setRing fn 0 { s.ring fn 0 with infl := 0 }
    let s := (List.range n).foldl (fun s _ => s.unreadSub fn) s
    (s.set .RING_STAT_DIDX (s.get .RING_STAT_DIDX (16 * fn) + n) (16 * fn)).shadow fn 0
  | .bufs fn r idx _ => (s.set .RING_ERR_RD_ERR 1 (16 * fn + r)).setRing fn r { s.ring fn r with fidx := idx, infl := 0 }
  | .point q k => s.intakeFailed q k
  | .desc q k _ _ => s.intakeFailed q k
  | .input q k _ _ => s.intakeFailed q k
  | .load fn _ _ =>
    match look? s.hre.loads fn with
    | some j =>
      let s : State := { s with hre := { s.hre with loads := del s.hre.loads fn } }
      (s.voidDma (forLoad fn)).done fn (parseSub fn j.desc) 2
    | none => s
  | .push => ((s.voidDma (· == .push)).set .MBX_PUSH_CTRL_BUSY 0).set .MBX_PUSH_CTRL_FAIL 1
  | .void => s

/-- A DMA read is issued, or waits for a free tag (R423). While the link is down it fails (R438). -/
def State.startDma (s : State) (p : DmaPurp) (addr len : Nat) : State :=
  if s.linkUp then
    match s.freeTag with
    | some t =>
      let d : Dma := { purp := p, addr := addr, len := len, due := s.tick + s.dmaTo, limit := s.dmaTo }
      ({ s with hre := { s.hre with dma := ins s.hre.dma t d } } : State).emit (.hostRead t addr len)
    | none => { s with hre := { s.hre with dmaWait := s.hre.dmaWait ++ [(p, addr, len)] } }
  else s.readFailed p

/-- `len` bytes at `addr` are read, in as many requests as the largest request needs (R384). -/
def State.readAll (s : State) (mk : Nat → Nat → DmaPurp) (addr len : Nat) : State :=
  (pieces s.readMax addr len).foldl (fun s x => s.startDma (mk x.1 x.2) (addr + x.1) x.2) s

/-- A waiting read takes a free tag (R423). -/
def State.pumpDma (s : State) : State :=
  match s.hre.dmaWait with
  | (p, a, n) :: r =>
    if s.freeTag.isSome || !s.linkUp then ({ s with hre := { s.hre with dmaWait := r } } : State).startDma p a n else s
  | [] => s

/-- The tag of a finished read is free. -/
def State.endDma (s : State) (tag : Nat) : State :=
  ({ s with hre := { s.hre with dma := del s.hre.dma tag } } : State).pumpDma

/-- The doorbell word of a ring is read (R420). -/
def State.readDb (s : State) (fn r : Nat) : State :=
  if s.ringOn fn r then s.startDma (.doorbell fn r) (s.dbAddr fn r) 16 else s

/-- RING_KICK (R406, R420). -/
def State.ringKick (s : State) (fn r v : Nat) : State := if bit v 0 && decide (r < 16) && s.domOn 72 then s.readDb fn r else s

def execRingKick (who r v : Nat) (s : State) : Host.Outcome State Fault Refusal := .next (s.ringKick (fnOf who) r v)

/-- A write of RING_CFG (R394, R395, R432). Commands already fetched stay (R442). -/
def State.ringCfgWrite (s : State) (who r v : Nat) : State :=
  let fn := fnOf who
  let k := 16 * fn + r
  if 16 ≤ r ∨ s.live .RING_CFG_ENABLE k = false then s
  else if s.locked .RING_CFG_ENABLE k then s.raiseEv { code := 0x6006, part := fnPart fn, skind := 6, sindex := fn, detail := r }
  else
    let was := s.is .RING_CFG_ENABLE k
    let s := plainWrite who s (addrOf .RING_CFG_ENABLE k) v
    let on := bit v 8
    let s := s.set .RING_CFG_ENABLE (b2n on) k
    if on && !was then
      let x := s.ring fn r
      let s := (s.setRing fn r { fseq := x.fseq, frames := x.frames, gap := x.gap, part := x.part, polled := s.tick,
                                 dgen := s.get .RING_CFG_GEN k, fetched := if r = 0 then x.fetched else [] }).voidDma (forDescs fn r)
      (s.set .RING_STAT_DIDX 0 k).shadow fn r
    else s

/-- RING_ENABLE (R394, R432). -/
def execRingEnable (who r v : Nat) (s : State) : Host.Outcome State Fault Refusal := .next (s.ringCfgWrite who r v)

/-! The background poll (R406, R420). -/

/-- The poll period in local ticks (HRE_POLL limits of R431). -/
def State.pollTicks (s : State) : Nat := usTicks (min 64 (max 1 (s.get .HRE_POLL_PERIOD)))

/-- Is ring `r` of function `fn` due for its background read: enabled, a period past its last one; an intake ring only in a run, from
its commit on (log entry 153)? -/
def State.pollDue (s : State) (fn r : Nat) : Bool :=
  s.ringOn fn r && decide ((s.ring fn r).polled + s.pollTicks ≤ s.tick)
    && (decide (r < 4) || decide (12 ≤ r)
      || (List.range 128).any (fun q => (s.part q).ringFn == fn && (s.runSt q == 2 || s.runSt q == 3)))

/-- The next ring to be polled, in turn, as `16 * fn + r`. -/
def State.nextPoll (s : State) : Option Nat :=
  ((List.range (16 * 129)).map (fun i => (s.hre.pollNext + i) % (16 * 129))).find? (fun k => s.pollDue (k / 16) (k % 16))

/-- BACKGROUND_POLL (R406, R420): the next ring due is read. In shelf state no poll runs (R624, R646). -/
def execBackgroundPoll (s : State) : Host.Outcome State Fault Refusal :=
  match s.nextPoll with
  | some k =>
    if s.get .PWR_SHELF_STATE ≠ 0 then .next s
    else
      let s : State := { s with hre := { s.hre with pollNext := k + 1 } }
      .next ((s.setRing (k / 16) (k % 16) { s.ring (k / 16) (k % 16) with polled := s.tick }).readDb (k / 16) (k % 16))
  | none => .next s

/-! Doorbell words and descriptors (R391-R398, R406, R407, R437, R442). -/

/-- A ring stops on an index error (R395). -/
def State.indexError (s : State) (fn r : Nat) : State :=
  let s := s.setRing fn r { s.ring fn r with stopped := true }
  let s := (s.set .RING_ERR_IDX_ERR 1 (16 * fn + r)).shadow fn r
  s.raiseEv { code := 0x6003, part := fnPart fn, skind := 6, sindex := fn, detail := r }

/-- An index error on an intake ring faults the next intake point there of every run in progress that the ring serves (R407, log entry
154). -/
def State.intakeIndexError (s : State) (fn r : Nat) : State :=
  (List.range 128).foldl (fun s q =>
    if s.runSt q = 3 ∧ (s.part q).haltedAt.isNone ∧ (s.part q).ringFn = fn then
      match s.nextPoint q r with
      | some (p, k) => s.intakeFault q k 0x9005 p
      | none => s
    else s) s

/-- Host-to-device rings (table Ring slots). -/
def hostToDev (r : Nat) : Bool := r != 1 && r != 2

/-- Descriptors are fetched in one read, while none is on the way (log entry 155): on a submission ring up to 16 beyond the command in
progress (R398), on an egress ring every posted buffer up to 256; nothing while PAUSE is 1 (R391). -/
def State.fetch (s : State) (fn r : Nat) : State :=
  let x := s.ring fn r
  let n := s.ringN fn r
  let posted := (x.hidx + 2 ^ 32 - x.fidx) % 2 ^ 32
  let room := (if r = 0 then (if s.cmdBusy fn then 16 else 17) else 256) - x.fetched.length
  let c := min (min posted room) (min (n - x.fidx % n) ((s.readMax - 64 * (x.fidx % n) % s.readMax) / 64))
  if x.pause || c == 0 || x.infl != 0 || !s.ringOn fn r then s
  else
    let s := s.setRing fn r { x with fidx := (x.fidx + c) % 2 ^ 32, infl := c }
    s.startDma (if r = 0 then .sub fn x.fidx c else .bufs fn r x.fidx c) (s.descAddr fn r x.fidx) (64 * c)

/-- First sightings of intake descriptors by a read of the doorbell word (R406). -/
def sightings (seen : List (Nat × Nat)) (didx hidx t : Nat) : List (Nat × Nat) :=
  (List.range ((hidx + 2 ^ 32 - didx) % 2 ^ 32)).foldl (fun l j =>
    let i := (didx + j) % 2 ^ 32
    if l.any (fun e => e.1 == i) then l else l ++ [(i, t)]) seen

/-- How far the host index of a doorbell word lies from the device's index, in the direction of the ring (R395). -/
def State.idxDist (s : State) (fn r : Nat) (w : List Byte) : Nat :=
  let h := fieldLE w 0 4
  let d := s.get .RING_STAT_DIDX (16 * fn + r)
  if hostToDev r then (h + 2 ^ 32 - d) % 2 ^ 32 else (d + 2 ^ 32 - h) % 2 ^ 32

/-- A doorbell word of ring `r` of function `fn` arrives (R391-R398, R406, R407, R437, R442). -/
def State.doorbell (s : State) (fn r : Nat) (w : List Byte) : State :=
  let k := 16 * fn + r
  if fieldLE w 4 1 ≠ s.get .RING_CFG_GEN k ∨ s.ringOn fn r = false then s
  else if s.ringN fn r < s.idxDist fn r w then
    let s := s.indexError fn r
    if 4 ≤ r ∧ r ≤ 11 then s.intakeIndexError fn r else s
  else
    let x := s.ring fn r
    let h := fieldLE w 0 4
    let x := { x with hidx := h, dgen := fieldLE w 4 1, pause := bit (fieldLE w 5 1) 0, notify := bit (fieldLE w 5 1) 1 }
    if r = 0 ∨ 12 ≤ r then (s.setRing fn r x).fetch fn r
    else if 4 ≤ r then s.setRing fn r { x with seen := sightings x.seen (s.get .RING_STAT_DIDX k) h s.tally }
    else s.setRing fn r x

/-- Descriptors of 64 bytes. -/
def chop64 (bs : List Byte) : Nat → List (List Byte)
  | 0 => []
  | n + 1 => bs.take 64 :: chop64 (bs.drop 64) n

/-- What has been read in pieces, put together. -/
def joined (m : SMap (List Byte)) : List Byte := m.flatMap (·.2)

/-- The descriptors of an intake point, once all are read. -/
def InRead.descList (x : InRead) (n : Nat) : List (List Byte) := chop64 (joined x.descs) n

/-- Input `j` of an intake point, once all of it is read. -/
def InRead.inputOf (x : InRead) (j : Nat) : List Byte := joined (x.inputs.filter (fun e => e.1 / 2 ^ 32 == j))

/-- The descriptors' LEN values are within CAP (R403, R441). -/
def lensOk (cap : Nat) (descs : List (List Byte)) : Bool := descs.all (fun b => decide (1 ≤ fieldLE b 8 4) && decide (fieldLE b 8 4 ≤ cap))

/-- Descriptors of ring `r` that earlier points of partition `q` have taken and not yet consumed. -/
def State.taken (s : State) (q r : Nat) : Nat :=
  (s.image q).img.intakes.zipIdx.foldl (fun n e =>
    if ringOf e.1 = r ∧ s.intakeSt q e.2 = .reading then n + (s.inRead q e.2).takes else n) 0

/-- The descriptors of a point from index `d` on are read, in two parts where they wrap around the ring's end (R390, R401). -/
def State.readDescs (s : State) (q k d : Nat) (p : ImgIntake) : State :=
  let fn := (s.part q).ringFn
  let r := ringOf p
  let c := min p.n (s.ringN fn r - d % s.ringN fn r)
  let parts : List (Nat × Nat) := [(0, c), (c, p.n - c)]
  let left := parts.foldl (fun n x => n + (pieces s.readMax (s.descAddr fn r (d + x.1)) (64 * x.2)).length) 0
  let s := s.setInRead q k { s.inRead q k with left := left }
  parts.foldl (fun s x => s.readAll (fun off n => .desc q k (x.1 + off / 64) (n / 64)) (s.descAddr fn r (d + x.1)) (64 * x.2)) s

/-- The inputs that descriptors name are read (R400, R403). -/
def State.readInputs (s : State) (q k : Nat) (ds : List (List Byte)) : State :=
  let left := ds.foldl (fun n b => n + (pieces s.readMax (fieldLE b 0 8) (fieldLE b 8 4)).length) 0
  let s := s.setInRead q k { s.inRead q k with left := left }
  ds.zipIdx.foldl (fun s x => s.readAll (fun off _ => .input q k x.2 off) (fieldLE x.1 0 8) (fieldLE x.1 8 4)) s

/-- The doorbell word of an intake point arrives (R401, R437): it shows the descriptors past those that earlier points have taken. With
enough of them the point takes its n, which are read. The read is a sighting (R406). -/
def State.pointRead (s : State) (q k : Nat) (p : ImgIntake) (w : List Byte) : State :=
  let fn := (s.part q).ringFn
  let r := ringOf p
  let d := s.get .RING_STAT_DIDX (16 * fn + r)
  let n := if fieldLE w 4 1 = s.get .RING_CFG_GEN (16 * fn + r) then s.idxDist fn r w else 0
  let bad := decide (s.ringN fn r < n)
  let t := s.taken q r
  let x := s.ring fn r
  let s := if bad ∨ n = 0 then s
    else s.setRing fn r { x with dgen := fieldLE w 4 1, seen := sightings x.seen d (fieldLE w 0 4) s.tally }
  let enough := !bad && decide (p.n ≤ n - t)
  let y : InRead := { shown := n - t, bad := bad, base := (d + t) % 2 ^ 32, takes := if enough then p.n else 0 }
  let s := s.setInRead q k y
  if enough then s.readDescs q k y.base p else s

/-- The descriptors of a point, read from its `i`-th on, arrive; once all are there and every LEN is within CAP the inputs are read. -/
def State.descRead (s : State) (q k i : Nat) (p : ImgIntake) (data : List Byte) : State :=
  let x := s.inRead q k
  let x := { x with descs := ins x.descs i data, left := x.left - 1 }
  let s := s.setInRead q k x
  if x.left = 0 ∧ lensOk p.cap (x.descList p.n) then s.readInputs q k (x.descList p.n) else s

/-- A pass over a LOAD source has returned a piece; after the first pass the second begins (R523). -/
def State.loadRead (s : State) (fn off : Nat) (j : LoadJob) (data : List Byte) : State :=
  let j := { j with got1 := if j.second then j.got1 else ins j.got1 off data,
                    got2 := if j.second then ins j.got2 off data else j.got2, left := j.left - 1 }
  if j.left = 0 ∧ j.second = false then
    let d := parseSub fn j.desc
    let n := (pieces s.readMax (d.argN 8 8) (d.argN 16 4)).length
    let s : State := { s with hre := { s.hre with loads := ins s.hre.loads fn { j with second := true, left := n } } }
    s.readAll (fun off _ => .load fn true off) (d.argN 8 8) (d.argN 16 4)
  else { s with hre := { s.hre with loads := ins s.hre.loads fn j } }

/-- A read returns its data (R393, R398, R401, R427, R523). Descriptors that arrive for a ring no longer in use are not consumed (R395). -/
def State.readDone (s : State) (p : DmaPurp) (data : List Byte) : State :=
  match p with
  | .doorbell fn r => s.doorbell fn r data
  | .sub fn _ n =>
    let x := s.ring fn 0
    if s.ringOn fn 0 then
      let s := s.setRing fn 0 { x with fetched := x.fetched ++ chop64 data n, infl := 0 }
      ((s.set .RING_STAT_DIDX (s.get .RING_STAT_DIDX (16 * fn) + n) (16 * fn)).shadow fn 0).fetch fn 0
    else s.setRing fn 0 { x with infl := 0 }
  | .bufs fn r _ n =>
    let x := s.ring fn r
    if s.ringOn fn r then (s.setRing fn r { x with fetched := x.fetched ++ chop64 data n, infl := 0 }).fetch fn r
    else s.setRing fn r { x with infl := 0 }
  | .point q k =>
    match s.point q k with
    | some p => if s.intakeSt q k = .reading then s.pointRead q k p data else s
    | none => s
  | .desc q k i _ =>
    match s.point q k with
    | some p => if s.intakeSt q k = .reading then s.descRead q k i p data else s
    | none => s
  | .input q k j off =>
    let x := s.inRead q k
    if s.intakeSt q k = .reading then
      s.setInRead q k { x with inputs := ins x.inputs (2 ^ 32 * j + off) data, left := x.left - 1 }
    else s
  | .load fn _ off =>
    match look? s.hre.loads fn with
    | some j => s.loadRead fn off j data
    | none => s
  | .push => s
  | .void => s

/-! Completions, timeouts and quarantine (R422-R426, R434). -/

/-- A late or unmatched completion (R424, R425): discarded, counted and recorded. `us` is its lateness. -/
def State.lateCpl (s : State) (tag us : Nat) : State :=
  let s := ((s.inc .HRE_LATE_CNT_COUNT).set .HRE_LATE_LAST_TAG tag).set .HRE_LATE_LAST_LATE (min 65535 us)
  s.raiseEv { code := 0x6002, skind := 6, detail := tag % 2 ^ 14 + us % 2 ^ 32 * 2 ^ 16 }

/-- A completion arrives for `tag` (R422-R426, R434). A poisoned one counts whatever it answers. -/
def State.dmaCpl (s : State) (tag : Nat) (c : Cpl) (data : List Byte) : State :=
  let s := if c = .poisoned then s.inc .PCX_EP_RX_COUNT else s
  match look? s.hre.dma tag with
  | some d =>
    if c = .ok then
      if data.length = d.len then (s.endDma tag).readDone d.purp data else s.fresh.lateCpl tag (s.freeV % 2 ^ 16)
    else (s.endDma tag).readFailed d.purp
  | none =>
    match look? s.hre.quar tag with
    | some (t, _) => s.lateCpl tag ((s.tick - t) * 4 / 3125)
    | none => s.fresh.lateCpl tag (s.freeV % 2 ^ 16)

/-- DOORBELL_READ (R391-R398, R401, R406): a doorbell word returns. -/
def execDoorbellRead (tag : Nat) (data : List Byte) (s : State) : Host.Outcome State Fault Refusal :=
  .next (s.dmaCpl tag .ok data)

/-- DMA_COMPLETION (R424-R426). -/
def execDmaCompletion (tag : Nat) (c : Cpl) (data : List Byte) (s : State) : Host.Outcome State Fault Refusal :=
  .next (s.dmaCpl tag c data)

/-- DMA_TIMEOUT (R422, R426): the tag goes into quarantine for four times the timeout from its expiry. -/
def execDmaTimeout (tag : Nat) (s : State) : Host.Outcome State Fault Refusal :=
  match look? s.hre.dma tag with
  | some d =>
    if d.due ≤ s.tick then
      let s := { s with hre := { s.hre with dma := del s.hre.dma tag,
                                            quar := ins s.hre.quar tag (d.due, d.due + 4 * d.limit) } }
      let s := (s.inc .HRE_TO_CNT_COUNT).emit (.aer 0)
      .next (((s.raiseEv { code := 0x6001, skind := 6, detail := tag % 2 ^ 14 }).readFailed d.purp).pumpDma)
    else .next s
  | none => .next s

/-- TAG_QUARANTINE_END (R423). -/
def execTagQuarantineEnd (tag : Nat) (s : State) : Host.Outcome State Fault Refusal :=
  match look? s.hre.quar tag with
  | some (_, t) =>
    if t ≤ s.tick then .next (({ s with hre := { s.hre with quar := del s.hre.quar tag } } : State).pumpDma) else .next s
  | none => .next s

/-! Egress (R408, R409, R427-R430, R435, R436). -/

/-- Lengths of the posted buffers (BLEN). -/
def blens (fetched : List (List Byte)) : List Nat := fetched.map (fun b => fieldLE b 8 4)

/-- The smallest count of buffers whose lengths sum to at least `n` (R427). -/
def need (n : Nat) : List Nat → Nat → Option Nat
  | bs, k => if n = 0 then some k else match bs with
    | [] => none
    | b :: r => need (n - b) r (k + 1)

/-- The payload of a segment goes to its buffer in writes of at most the largest payload, with Relaxed Ordering (R384, R387). -/
def State.payload (s : State) (fn addr : Nat) (bs : List Byte) : List Out :=
  (pieces s.payMax addr bs.length).map (fun x => .hostWrite fn (addr + x.1) ((bs.drop x.1).take x.2) true)

/-- Segment write-back and payload writes of a frame over its buffers, the payload first (R388, R408, R427). -/
def State.segments (s : State) (fn r i : Nat) (f : Frame) (flen : Nat) : List (List Byte) → Nat → List Byte → List Out × List Out
  | [], _, _ => ([], [])
  | b :: bs, seg, data =>
    let blen := fieldLE b 8 4
    let part := data.take blen
    let rest := data.drop blen
    let last := bs.isEmpty
    let fl := b2n (seg == 0) + 2 * b2n last + 4 * b2n f.watch + 128
    let wb := toLE 1 1 ++ toLE 1 fl ++ toLE 2 seg ++ toLE 4 part.length ++ toLE 4 f.fseq ++ toLE 4 flen ++ toLE 7 s.tally
      ++ toLE 1 0 ++ toLE 4 f.step ++ toLE 2 f.layer ++ toLE 2 f.oper ++ toLE 4 f.src ++ List.replicate 12 0
    let t := s.segments fn r (i + 1) f flen bs (seg + 1) rest
    (s.payload fn (fieldLE b 0 8) part ++ t.1, Out.hostWrite fn (s.descAddr fn r i + 16) wb :: t.2)

/-- Staging space of a frame is freed (R428, R429). -/
def State.unstage (s : State) (f : Frame) : State :=
  s.setPart f.part { s.part f.part with staged := (s.part f.part).staged - f.bytes.length }

/-- EGRESS_FRAME_WRITE (R408, R409, R427): the head frame is written when its buffers are posted and no gap is pending. -/
def execEgressFrameWrite (fn r : Nat) (s : State) : Host.Outcome State Fault Refusal :=
  let x := s.ring fn r
  match x.frames with
  | f :: fs =>
    match need f.bytes.length (blens x.fetched) 0 with
    | some k =>
      if s.ringOn fn r ∧ x.gap.isNone ∧ f.dropped = false ∧ k ≤ 256 ∧ k ≤ s.ringN fn r then
        let i := s.get .RING_STAT_DIDX (16 * fn + r)
        let o := s.segments fn r i f f.bytes.length (x.fetched.take k) 0 f.bytes
        let s := (o.1 ++ o.2).foldl State.emit s
        let s := s.setRing fn r { x with frames := fs, fetched := x.fetched.drop k }
        let s := ((s.set .RING_STAT_DIDX (i + k) (16 * fn + r)).shadow fn r).notifyRing fn r x.part
        .next ((s.unstage f).headWait fn r)
      else .next s
    | none => .next s
  | [] => .next s

/-- Does the head frame need more buffers than a frame may have (R428)? Judged on the buffers posted. -/
def tooMany (n k N : Nat) : Bool := decide (min 256 N < k) || decide (n = 0 ∧ k = 0 ∧ N = 0)

/-- EGRESS_WAIT_EXPIRE (R428, R436): the wait has ended with too few buffers, or the frame needs too many. A read of posted descriptors
that is on the way is awaited, for it says how long the buffers are (log entry 155). -/
def execEgressWaitExpire (fn r : Nat) (s : State) : Host.Outcome State Fault Refusal :=
  let x := s.ring fn r
  match x.frames with
  | f :: fs =>
    let k := need f.bytes.length (blens x.fetched) 0
    let many := match k with
      | some c => tooMany f.bytes.length c (s.ringN fn r)
      | none => decide (min 256 (s.ringN fn r) ≤ x.fetched.length)
    let late := match f.due with | some t => decide (t ≤ s.tick) | none => false
    if ((k.isNone && late) || many) && x.infl == 0 then
      let s := s.setRing fn r { x with frames := { f with dropped := true } :: fs }
      let s := (s.unstage f).inc .RING_DROP_COUNT (16 * fn + r)
      let s := s.setPart f.part { s.part f.part with nDrops := (s.part f.part).nDrops + b2n (!f.watch) }
      .next (s.headWait fn r)
    else .next s
  | [] => .next s

/-- GAP_DESCRIPTOR (R430, R436): one posted buffer's descriptor names the first dropped frame and the count. -/
def execGapDescriptor (fn r : Nat) (s : State) : Host.Outcome State Fault Refusal :=
  let x := s.ring fn r
  match x.gap, x.fetched with
  | some (a, c), _ :: bs =>
    if s.ringOn fn r then
      let i := s.get .RING_STAT_DIDX (16 * fn + r)
      let wb := toLE 1 2 ++ toLE 1 128 ++ toLE 2 0 ++ toLE 4 0 ++ toLE 4 a ++ toLE 4 c ++ toLE 7 s.tally
        ++ toLE 1 0 ++ List.replicate 24 0
      let s := s.emit (.hostWrite fn (s.descAddr fn r i + 16) wb)
      let s := s.setRing fn r { x with gap := none, fetched := bs }
      .next (((s.set .RING_STAT_DIDX (i + 1) (16 * fn + r)).shadow fn r).notifyRing fn r x.part)
    else .next s
  | _, _ => .next s

/-! Completion records (R410-R419, R440). -/

/-- Free indices of the completion ring (R396). -/
def State.cqRoom (s : State) (fn : Nat) : Nat :=
  s.ringN fn 1 - (s.get .RING_STAT_DIDX (16 * fn + 1) + 2 ^ 32 - (s.ring fn 1).hidx) % 2 ^ 32

/-- Indices a record takes (R411). -/
def Cplr.size (c : Cplr) : Nat := if c.cont.isEmpty then 1 else 9

/-- The 64 bytes of a record (table Completion record). -/
def Cplr.bytes (c : Cplr) (phase : Nat) (deferred : Bool) (tally : Nat) : List Byte :=
  toLE 1 c.kind ++ toLE 1 (phase + 2 * b2n c.irq + 4 * b2n deferred) ++ toLE 2 c.status ++ toLE 4 c.tag ++ toLE 7 tally
    ++ toLE 1 (if c.cont.isEmpty then 0 else 8) ++ (c.detail ++ List.replicate 48 0).take 48

/-- A record is written to the ring, its continuation descriptors first, and the interrupt raised or held (R388, R411,
R417-R419); its latency is a sample of source 6 (R631). -/
def State.writeCpl (s : State) (fn : Nat) (c : Cplr) : State :=
  let i := s.get .RING_STAT_DIDX (16 * fn + 1)
  let n := s.ringN fn 1
  let f := s.func fn
  let s := (List.range (c.size - 1)).foldl (fun s j =>
    s.emit (.hostWrite fn (s.descAddr fn 1 (i + 1 + j)) ((c.cont.drop (64 * j)).take 64))) s
  let deferred := c.irq && f.msix.masked
  let s := s.emit (.hostWrite fn (s.descAddr fn 1 i) (c.bytes (1 - i / n % 2) deferred s.tally))
  let s := if c.irq then
      if f.msix.masked then s.setFunc fn { f with msix := { f.msix with pending := true } }
      else s.emit (.msix fn f.msix.addr f.msix.data)
    else s
  let s := s.sample 6 (fun _ => true) (some ((c.detail.headD 0).toNat % 128)) (cmp32 s.tally c.formed).toNat
  (s.set .RING_STAT_DIDX (i + c.size) (16 * fn + 1)).shadow fn 1

/-- The lost record of a function (kind 0x0F) with partition byte `q`. -/
def lostRec (q n t : Nat) : Cplr := { kind := 15, irq := true, detail := toLE 1 q ++ toLE 3 0 ++ toLE 4 n, formed := t }

/-- COMPLETION_WRITE (R410-R419, R440): the oldest formed record is written, or joins the backlog, or is lost.
A tripped device writes none (R749). -/
def execCompletionWrite (fn : Nat) (s : State) : Host.Outcome State Fault Refusal :=
  let f := s.func fn
  if s.boot.tripped then .next s
  else match f.cq with
  | [] => .next s
  | c :: r =>
    let s := s.setFunc fn { f with cq := r }
    if s.ringOn fn 1 ∧ f.backlog = [] ∧ f.lost = 0 ∧ c.size ≤ s.cqRoom fn then .next (s.writeCpl fn c)
    else if f.backlog.length < 512 then .next (s.setFunc fn { f with cq := r, backlog := f.backlog ++ [c] })
    else
      let s := s.setFunc fn { f with cq := r, lost := f.lost + 1 }
      let s := s.setRing fn 1 { s.ring fn 1 with ovf := true }
      let s := ((s.inc .RING_DROP_COUNT (16 * fn + 1)).set .RING_ERR_OVF 1 (16 * fn + 1))
      let s := if s.ringOn fn 1 then s.shadow fn 1 else s
      .next (s.raiseEv { code := 0x6004, part := fnPart fn, skind := 6, sindex := fn, detail := f.lost + 1 })

/-- BACKLOG_DRAIN (R415, R416, R440): the lost record first, then the backlog in order. The physical function's lost record concerns no
one partition: its partition byte is free (log entry 157). -/
def execBacklogDrain (fn : Nat) (s : State) : Host.Outcome State Fault Refusal :=
  let f := s.func fn
  if s.ringOn fn 1 then
    if 0 < f.lost then
      if 1 ≤ s.cqRoom fn then 
        .next ((s.fresh.setFunc fn { f with lost := 0 }).writeCpl fn
          (lostRec (if fn = 0 then s.freeV % 128 else fn - 1) f.lost s.tally)) else .next s
    else match f.backlog with
      | c :: r => if c.size ≤ s.cqRoom fn then .next ((s.setFunc fn { f with backlog := r }).writeCpl fn c) else .next s
      | [] => .next s
  else .next s

/-- The MSI-X entry is unmasked; a held message is sent (R419), once the link is up. -/
def State.unmask (s : State) (fn : Nat) : State :=
  let f := s.func fn
  let go := f.msix.pending && s.linkUp
  let s := s.setFunc fn { f with msix := { f.msix with masked := false, pending := f.msix.pending && !go } }
  if go then s.emit (.msix fn f.msix.addr f.msix.data) else s

/-- The link is up again: shadows and interrupts that waited for it are written (R383, R438, log entry 151). -/
def State.linkBack (s : State) : State :=
  let s := (List.range 129).foldl (fun s fn => (List.range 16).foldl (fun s r =>
    if (s.ring fn r).owed then (s.setRing fn r { s.ring fn r with owed := false }).shadow fn r else s) s) s
  (List.range 129).foldl (fun s fn => if (s.func fn).msix.masked then s else s.unmask fn) s

/-- MSIX_UNMASK (R419). -/
def execMsixUnmask (fn : Nat) (s : State) : Host.Outcome State Fault Refusal := .next (s.unmask fn)

end Sys2Proof.Machine
end

