-- ==== Sys2Proof/Machine/Halt.lean ====
section
/-! DEFINITION. Debug halts and resume, tensor watches, the observation bucket, counter snapshots (R677-R700, R703-R707). -/
namespace Sys2Proof.Machine

/-- A halt message goes on every port the run uses (R678, R679). -/
def State.floodHalt (s : State) (q : Nat) (m : HaltMsg) : State :=
  let im := s.image q
  im.img.ports.foldl (fun s p => s.sendPk 22 false (s.pkTo 22 22 q (im.coordOf p.far) (.halt 1 m))) s

/-- A halt step lower than the one held, or the first, is adopted and passed on (R679). `cause` as DBG_HALT.CAUSE. -/
def State.adoptHalt (s : State) (q cause : Nat) (m : HaltMsg) : State :=
  let st := s.get .DBG_HALT_STATE q
  if st = 0 ∨ (st = 1 ∧ m.hstep < s.get .DBG_HSTEP_STEP q) then
    let s := (((s.set .DBG_HALT_STATE 1 q).set .DBG_HALT_HARD (b2n m.hard) q).set .DBG_HALT_CAUSE cause q).set
      .DBG_HSTEP_STEP m.hstep q
    let cm := match (s.part q).halt with | some h => h.cmds | none => []
    (s.setPart q { s.part q with halt := some { msg := m, cmds := cm } }).floodHalt q m
  else s

/-- The halt step of a trigger (R678): the smallest declared halt point at or after t + STOPREACH. -/
def State.haltStep (s : State) (q : Nat) : Option Nat :=
  let m := s.image q
  m.img.halts.find? (fun n => decide (s.curSlot q + m.stopreach ≤ s.boundary q n))

/-- A trigger chooses its halt step, or lapses (R678, R680). `cause` 1 command, 2 breakpoint. -/
def State.trigger (s : State) (q cause : Nat) (hard : Bool) : State :=
  match s.haltStep q with
  | some h => s.adoptHalt q cause
      { part := q, src := s.coord, hard := hard, cause := cause, hstep := h,
        launch := s.get .TIM_LAUNCH_AT_AT q, tcoord := s.coord }
  | none => (s.set .DBG_HALT_LAPSED 1 q).raiseEv { code := 0xD004, part := some q, detail := s.curStep q }

/-- Breakpoints of partition `q` that name context `x` and its PC hit (R688, R689). -/
def State.breakpoints (s : State) (q x : Nat) : State :=
  if s.runSt q = 3 then
    (List.range 8).foldl (fun s k =>
      let i := 8 * q + k
      if s.is .DBG_BP_EN i && s.get .DBG_BP_CTX i == x && s.get .DBG_BP_PC i == s.get .SEQ_CTX_STATE_PC x then
        let s := s.setBit .DBG_BPHIT_HIT k true q
        let s := s.raiseEv { code := 0xD002, part := some q, skind := 5, sindex := x,
                             detail := x + k * 256 + s.get .SEQ_CTX_STATE_PC x * 2 ^ 16 }
        let recent := match (s.part q).resumedAt with
          | some t => decide ((s.tally + 2 ^ 56 - t) % 2 ^ 56 ≤ 64)
          | none => false
        if s.get .DBG_HALT_STATE q = 0 ∧ recent = false then s.trigger q 2 false else s
      else s) s
  else s

/-- HALT_COMMAND (R397, R678, R680, R703). Without a run in progress it completes with STATUS 5 (log entry 17). -/
def execHaltCommand (fn : Nat) (s : State) : Host.Outcome State Fault Refusal :=
  match s.subFor fn 7 with
  | none => .next s
  | some (d, r) =>
    let s := s.setFetched fn r
    let q := d.q
    if s.runSt q ≠ 3 then .next (s.done fn d 5)
    else if 2 ≤ s.get .DBG_HALT_STATE q then .next (s.done fn d 0)
    else
      let lapses := (s.haltStep q).isNone
      let s := s.trigger q 1 (bit (d.argN 8 1) 0)
      match lapses, (s.part q).halt with
      | false, some h => .next (s.setPart q { s.part q with halt := some { h with cmds := h.cmds ++ [(fn, d.tag, d.irq)] } })
      | _, _ => .next (s.done fn d 5)

/-- HALT_NOTICE (R679, R703). -/
def execHaltNotice (m : HaltMsg) (s : State) : Host.Outcome State Fault Refusal :=
  let s := s.takeEj 22 false (fun p => p.payload == .halt 1 m)
  if s.runSt m.part = 3 ∧ m.launch = s.get .TIM_LAUNCH_AT_AT m.part then .next (s.adoptHalt m.part 3 m) else .next s

/-- A context stops at a debug halt (R681, R682, R502). -/
def State.haltCtx (s : State) (q : Nat) (hard : Bool) (x : Nat) : State :=
  let st := s.get .SEQ_CTX_STATE_STATE x
  let c := s.ctx x
  if st < 2 ∨ 9 ≤ st then s
  else if c.lock.isSome ∧ ¬ hard then s.setCtx x { c with haltPend := true }
  else
    let s := if c.lock.isSome then
        let a := match c.resv with | some a => a | none => 0
        (s.setCtx x { c with resv := none }).raiseEv
          { code := 0x8002, part := some q, skind := 5, sindex := x, detail := a }
      else s
    let s := if hard then s.releaseAll q x else s
    (s.setCtx x { s.ctx x with haltSt := st }).set .SEQ_CTX_STATE_STATE 11 x

/-- DEBUG_HALT_REACHED (R681, R682, R502, R510). -/
def execDebugHaltReached (q : Nat) (s : State) : Host.Outcome State Fault Refusal :=
  let h := s.get .DBG_HSTEP_STEP q
  match (s.part q).halt with
  | some hs =>
    if s.runSt q = 3 ∧ (s.part q).stop.isNone ∧ s.get .DBG_HALT_STATE q = 1 ∧ s.reached q (s.boundary q h) then
      let hard := s.is .DBG_HALT_HARD q
      let cause := s.get .DBG_HALT_CAUSE q
      let s := (s.set .DBG_HALT_STATE 2 q).set .DBG_HAT_TALLY (s.slotTally q (s.boundary q h)) q
      let s := (s.ctxsOf q).foldl (fun s x => s.haltCtx q hard x) s
      let s := s.raiseEv { code := 0xD001, part := some q, detail := h + cause * 2 ^ 32 + b2n hard * 2 ^ 36 }
      let s := s.trace q 7 (11 * 4096) h 0 0 (cause * 2 ^ 32 + b2n hard * 2 ^ 36)
      let s := s.setPart q { s.part q with halt := some { hs with cmds := [] } }
      .next (hs.cmds.foldl (fun s c =>
        s.complete c.1 { kind := 1, irq := c.2.2, tag := c.2.1, detail := toLE 1 q ++ toLE 1 7 }) s)
    else .next s
  | none => .next s

/-- A RESUME of the partition waits for the members' answers on this crown. -/
def State.resuming (s : State) (q : Nat) : Bool :=
  match (s.part q).halt with
  | some h => decide (2 ≤ s.get .DBG_HALT_STATE q) && !h.cmds.isEmpty
  | none => false

/-- A resume message goes to every member. -/
def State.haltToMembers (s : State) (q msg : Nat) (m : HaltMsg) : State :=
  (s.memberCoords q).foldl (fun s c => s.sendPk 22 false (s.pkTo 22 22 q c (.halt msg m))) s

/-- RESUME (R397, R684). One that meets another RESUME in progress completes as one that meets no halt (log entry 164). -/
def execResume (fn : Nat) (s : State) : Host.Outcome State Fault Refusal :=
  match s.subFor fn 8 with
  | none => .next s
  | some (d, r) =>
    let s := s.setFetched fn r
    let q := d.q
    if ¬ s.is .TIM_CTRL_CROWN then .next (s.done fn d 6)
    else if s.get .DBG_HALT_STATE q ≠ 2 ∨ s.resuming q then .next (s.done fn d 5)
    else
      let th := s.get .DBG_HAT_TALLY q
      let lead := max 0x4000 (s.get .TIM_LAUNCH_LEAD_LEAD)
      let h := ceilDiv ((s.tally + lead + 2 ^ 56 - th) % 2 ^ 56) 4000 * 4000
      let m : HaltMsg := { part := q, src := s.coord, hstep := s.get .DBG_HSTEP_STEP q, r := (th + h) % 2 ^ 56,
                           launch := s.get .TIM_LAUNCH_AT_AT q, tcoord := s.coord }
      let s := s.setPart q { s.part q with halt := some { msg := m, armedBy := [], cmds := [(fn, d.tag, d.irq)] } }
      .next (s.haltToMembers q 2 m)

/-- RESUME_ARM (R685). -/
def execResumeArm (m : HaltMsg) (s : State) : Host.Outcome State Fault Refusal :=
  let s := s.takeEj 22 false (fun p => p.payload == .halt 2 m)
  let q := m.part
  let im := s.image q
  let c := if cmp32 m.r s.tally < 0 then 1
    else if s.get .DBG_HALT_STATE q ≠ 2 ∨ s.get .DBG_HSTEP_STEP q ≠ m.hstep then 7
    else if ¬ im.img.ports.all (s.portFits im) then 4
    else if ¬ s.is .TIM_STATUS_LOCK then 5 else 0
  let reply := { m with src := s.coord, refuse := c }
  if c = 0 then
    let hs := match (s.part q).halt with | some h => h | none => {}
    let s := (s.set .DBG_HALT_STATE 3 q).setPart q { s.part q with halt := some { hs with msg := m, commit := false } }
    .next (s.sendPk 22 false (s.pkTo 22 22 q m.src (.halt 3 reply)))
  else .next (s.sendPk 22 false (s.pkTo 22 22 q m.src (.halt 4 reply)))

/-- The RESUME command completes. -/
def State.resumeDone (s : State) (q status : Nat) : State :=
  match (s.part q).halt with
  | some h =>
    let s := s.setPart q { s.part q with halt := some { h with cmds := [], armedBy := [] } }
    h.cmds.foldl (fun s c =>
      s.complete c.1 { kind := 1, irq := c.2.2, status := status, tag := c.2.1, detail := toLE 1 q ++ toLE 1 8 }) s
  | none => s

/-- RESUME_ARMED (R685): the crown commits once every member has answered. -/
def execResumeArmed (m : HaltMsg) (s : State) : Host.Outcome State Fault Refusal :=
  let s := s.takeEj 22 false (fun p => p.payload == .halt 3 m)
  let q := m.part
  match (s.part q).halt with
  | some h =>
    if s.is .TIM_CTRL_CROWN ∧ h.cmds ≠ [] ∧ m.r = h.msg.r then
      let by_ := if m.src ∈ h.armedBy then h.armedBy else h.armedBy ++ [m.src]
      let s := s.setPart q { s.part q with halt := some { h with armedBy := by_ } }
      if (s.memberCoords q).all (fun c => c ∈ by_) then .next ((s.haltToMembers q 5 h.msg).resumeDone q 0) else .next s
    else .next s
  | none => .next s

/-- The crown aborts a resume that member `by_` refused with `code` (R685, R707). -/
def State.abortResume (s : State) (q code by_ : Nat) (h : HaltSt) : State :=
  let s := s.haltToMembers q 6 h.msg
  let s := s.raiseEv { code := 0xD005, part := some q, detail := code % 256 + by_ % 4096 * 256 }
  s.resumeDone q 5

/-- RESUME_REFUSE (R685, R707): the crown aborts. -/
def execResumeRefuse (m : HaltMsg) (s : State) : Host.Outcome State Fault Refusal :=
  let s := s.takeEj 22 false (fun p => p.payload == .halt 4 m)
  let q := m.part
  match (s.part q).halt with
  | some h =>
    if s.is .TIM_CTRL_CROWN ∧ s.resuming q ∧ m.r = h.msg.r then .next (s.abortResume q m.refuse m.src h) else .next s
  | none => .next s

/-- RESUME_COMMIT (R686): held when it arrives by R minus the margin. -/
def execResumeCommit (m : HaltMsg) (s : State) : Host.Outcome State Fault Refusal :=
  let s := s.takeEj 22 false (fun p => p.payload == .halt 5 m)
  let q := m.part
  let margin := max 0x400 (s.get .TIM_COMMIT_MARGIN_MARGIN)
  match (s.part q).halt with
  | some h =>
    if s.get .DBG_HALT_STATE q = 3 ∧ m.r = h.msg.r ∧ (margin : Int) ≤ cmp32 m.r s.tally then
      .next (s.setPart q { s.part q with halt := some { h with commit := true } })
    else .next s
  | none => .next s

/-- RESUME_ABORT (R685): the partition stays halted. -/
def execResumeAbort (m : HaltMsg) (s : State) : Host.Outcome State Fault Refusal :=
  let s := s.takeEj 22 false (fun p => p.payload == .halt 6 m)
  if s.get .DBG_HALT_STATE m.part = 3 then .next (s.set .DBG_HALT_STATE 2 m.part) else .next s

/-- RESUME_NOT_COMMITTED (R685): no commit by R minus the margin; the partition stays halted. A crown that still lacks an answer then aborts
the resume for the first member that has not answered, with the code of a launch not committed (log entry 165). -/
def execResumeNotCommitted (q : Nat) (s : State) : Host.Outcome State Fault Refusal :=
  let margin := max 0x400 (s.get .TIM_COMMIT_MARGIN_MARGIN)
  match (s.part q).halt with
  | some h =>
    if s.get .DBG_HALT_STATE q = 3 ∧ h.commit = false ∧ cmp32 h.msg.r s.tally ≤ (margin : Int) then
      match s.resuming q, (s.memberCoords q).find? (fun c => !decide (c ∈ h.armedBy)) with
      | true, some c => .next ((s.set .DBG_HALT_STATE 2 q).abortResume q 8 c h)
      | _, _ => .next (s.set .DBG_HALT_STATE 2 q)
    else .next s
  | none => .next s

/-- RESUME_SLOT (R686): the launch count becomes L + H and the contexts go on. -/
def execResumeSlot (q : Nat) (s : State) : Host.Outcome State Fault Refusal :=
  match (s.part q).halt with
  | some hs =>
    if s.get .DBG_HALT_STATE q = 3 ∧ hs.commit ∧ s.tally = hs.msg.r then
      let h := (hs.msg.r + 2 ^ 56 - s.get .DBG_HAT_TALLY q) % 2 ^ 56
      let s := s.set .TIM_LAUNCH_AT_AT (s.get .TIM_LAUNCH_AT_AT q + h) q
      let s := s.setPart q { s.part q with msg := { (s.part q).msg with l := s.get .TIM_LAUNCH_AT_AT q } }
      let s := (s.set .DBG_HLEN_H h q).set .DBG_HALT_STATE 0 q
      let s := (s.ctxsOf q).foldl State.resumeCtx s
      let s := s.setPart q { s.part q with halt := none, resumedAt := some s.tally }
      let s := s.raiseEv { code := 0xD003, part := some q, detail := h }
      .next (s.trace q 7 (11 * 4096) (s.get .DBG_HSTEP_STEP q) 0 0 (2 ^ 37 + h * 2 ^ 40))
    else .next s
  | none => .next s

/-- WATCH (R397, R696, R710): the mask takes effect at the next step boundary. -/
def execWatch (fn : Nat) (s : State) : Host.Outcome State Fault Refusal :=
  match s.subFor fn 6 with
  | none => .next s
  | some (d, r) =>
    let s := s.setFetched fn r
    let s := if s.runSt d.q = 3 then
        s.setPart d.q { s.part d.q with wmaskNext := some (d.argN 8 8 + s.curStep d.q * 2 ^ 64) }
      else s.set .DBG_WMASK_MASK (d.argN 8 8) d.q
    .next (s.done fn d 0)

/-- The watch mask changes at the first step boundary after the command (R696). -/
def State.takeWatchMask (s : State) (q : Nat) : State :=
  match (s.part q).wmaskNext with
  | some v => if v / 2 ^ 64 < s.curStep q then
      (s.set .DBG_WMASK_MASK (v % 2 ^ 64) q).setPart q { s.part q with wmaskNext := none } else s
  | none => s

/-- WATCH_DRAIN (R698, R709): panel `p`'s buffer of watch `w` is staged as one frame when the bucket allows. -/
def execWatchDrain (q p w : Nat) (s : State) : Host.Outcome State Fault Refusal :=
  match look? (s.panel p).dumps w with
  | some d =>
    let n := ceilDiv d.bytes.length 256 * 256
    if (s.panel p).part = some q ∧ n ≤ (s.part q).obwTok then
      let s := s.spendObs q n
      let s := s.setPanel p { s.panel p with dumps := del (s.panel p).dumps w }
      .next (s.stageFrame q (12 + d.ring)
        { watch := true, step := fieldLE d.bytes 4 4, layer := d.layer, oper := d.oper, src := w, bytes := d.bytes })
    else .next s
  | none => .next s

/-- OBS_BUCKET_REFILL (R677): every 128 slots the bucket gains OBW, up to OBW. -/
def execObsBucketRefill (q : Nat) (s : State) : Host.Outcome State Fault Refusal :=
  let p := s.part q
  if p.obwPrev + 128 ≤ s.tb.slots then
    .next (s.setPart q { p with obwTok := min (s.get .DBG_OBW_BYTES q) (p.obwTok + s.get .DBG_OBW_BYTES q), obwPrev := s.tb.slots })
  else .next s

/-- The snapshot of R700. -/
def State.snapshot (s : State) (q : Nat) : State :=
  let f : List Fld := [.DBG_C_HBM_SRD_BYTES, .DBG_C_HBM_SWR_BYTES, .DBG_C_HBM_OTHER_BYTES, .DBG_C_PORT_TX_TUFTS,
    .DBG_C_PORT_RX_TUFTS, .DBG_C_STITCH_TUFTS, .DBG_C_OBS_BYTES]
  let s := (List.range 7).foldl (fun s i => s.set .DBG_SNAP_CNT_COUNT (s.get (f.getD i .DBG_C_OBS_BYTES) q) i) s
  let tj := (List.range 8).foldl (fun m d => max m (s.get .MON_DIE_TJ d)) 0
  ((s.set .DBG_SNAP_TALLY_TALLY s.tally).set .DBG_SNAP_ENV_TJMAX tj).set .DBG_SNAP_ENV_PKGPWR (s.get .MON_BAND_PKGPWR)

/-- COUNTER_SNAPSHOT (R700): the write of DBG_SNAP_CTRL. -/
def execCounterSnapshot (who v : Nat) (s : State) : Host.Outcome State Fault Refusal :=
  let s := plainWrite who s (addrOf .DBG_SNAP_CTRL_GO) v
  .next (if privileged who && bit v 0 && s.live .DBG_SNAP_CTRL_GO 0 then s.snapshot (s.get .DBG_SNAP_CTRL_PART) else s)

end Sys2Proof.Machine
end

