-- ==== Sys2Proof/Machine/StepList.lean ====
section
/-! DEFINITION. Step-list words: head word, operand descriptors, random parameter words, the checks marked L and D of
the table Rejection codes, cycle counts and the minimum work span (R184-R218). -/
namespace Sys2Proof.Machine

/-- A head word with the words that follow it (R188). -/
structure POp where
  op    : Nat := 0
  nw    : Nat := 0
  layer : Nat := 0
  oper  : Nat := 0
  head  : Nat := 0
  words : List Nat := []
  deriving DecidableEq, Repr

/-- The operation whose head word is `w`, followed by `ws`. -/
def parseOp (w : Nat) (ws : List Nat) : POp :=
  { op := bits w 0 8, nw := bits w 8 3, layer := bits w 16 16, oper := bits w 32 16, head := w, words := ws }

/-- A descriptor word (R189). -/
def parseDesc (w : Nat) : Region :=
  { space := bits w 0 4, fmt := bits w 4 4, addr := bits w 8 19, split := bit w 27, rows := bits w 32 16, cols := bits w 48 16,
    rstride := bits w 64 20, cmask := bits w 96 16 }

/-- Reserved bits of a descriptor (R189). -/
def descResv (w : Nat) : Bool := bits w 28 4 != 0 || bits w 84 12 != 0 || bits w 112 16 != 0

/-! Argument fields (table Operation fields). -/
def POp.fmta (o : POp) : Nat := bits o.head 48 4
def POp.fmtb (o : POp) : Nat := bits o.head 52 4
def POp.accf (o : POp) : Nat := bits o.head 56 2
def POp.kindf (o : POp) : Nat := bits o.head 48 1
def POp.rnd (o : POp) : Nat := if o.op = 0x03 then bits o.head 52 3 else bits o.head 54 3
def POp.sat (o : POp) : Bool := if o.op = 0x03 then bit o.head 55 else bit o.head 57
def POp.fn (o : POp) : Nat := bits o.head 48 6
def POp.mode (o : POp) : Nat := if o.op = 0x30 then bits o.head 48 1 else bits o.head 48 2
def POp.stream (o : POp) : Nat := bits o.head 48 24
def POp.bindI (o : POp) : Nat := if o.op = 0x30 then bits o.head 50 5 else bits o.head 72 5
def POp.p32 (o : POp) : Nat := bits o.head 64 32
def POp.count (o : POp) : Nat := bits o.head 96 16
def POp.watchN (o : POp) : Nat := bits o.head 96 6
def POp.wen (o : POp) : Bool := bit o.head 102
def POp.lastf (o : POp) : Bool := bit o.head 48

/-- Defined operation codes (table Operations). -/
def opDefined (o : Nat) : Bool :=
  o ∈ [0x01, 0x02, 0x03, 0x04, 0x08, 0x10, 0x18, 0x19, 0x20, 0x28, 0x30, 0x31, 0x38, 0x3F]

/-- Sources of a vector function, 0 for a reserved code (table Vector function codes). -/
def fnArity (fn : Nat) : Nat :=
  if fn = 4 ∨ fn = 0x16 then 3
  else if (1 ≤ fn ∧ fn ≤ 3) ∨ fn = 5 ∨ fn = 7 ∨ fn = 8 ∨ fn = 0x0B ∨ (0x10 ≤ fn ∧ fn ≤ 0x15) ∨ (0x28 ≤ fn ∧ fn ≤ 0x31) then 2
  else if fn = 6 ∨ fn = 9 ∨ fn = 0x0A ∨ fn = 0x17 ∨ (0x18 ≤ fn ∧ fn ≤ 0x20) ∨ (0x38 ≤ fn ∧ fn ≤ 0x3A) then 1
  else 0

def isCmp (fn : Nat) : Bool := 0x10 ≤ fn && fn ≤ 0x15
def isTable (fn : Nat) : Bool := 0x18 ≤ fn && fn ≤ 0x20
def isIntFn (fn : Nat) : Bool := 0x28 ≤ fn && fn ≤ 0x31
def isReduce (fn : Nat) : Bool := 0x38 ≤ fn && fn ≤ 0x3A

/-- Number of descriptor words (table Operations). -/
def POp.nDesc (o : POp) : Nat :=
  match o.op with
  | 0x01 => 2 | 0x02 => 1 | 0x03 => 1 | 0x08 => 1 + fnArity o.fn | 0x10 => 2 | 0x18 => 1 | 0x19 => 1
  | 0x20 => if o.mode = 0 ∨ o.mode = 2 then 3 else 2
  | 0x28 => 1 | 0x38 => if o.wen then 1 else 0 | _ => 0

/-- Does the operation carry random parameter words (R192, R208)? -/
def POp.hasRand (o : POp) : Bool :=
  match o.op with
  | 0x03 => o.rnd == 4 | 0x08 => o.rnd == 4 | 0x20 => o.mode == 3 && o.rnd == 4 | 0x28 => true | _ => false

/-- NW as the table Operations states it. -/
def POp.wantNw (o : POp) : Nat := o.nDesc + (if o.hasRand then 2 else 0)

/-- Descriptor `i` of the operation; descriptor 0 is the first word after the head. -/
def POp.desc (o : POp) (i : Nat) : Region := parseDesc (o.words.getD i 0)

/-- Random parameters D, N, I0, LSTRIDE (R192). -/
def POp.rand (o : POp) : Nat × Nat × Nat × Nat :=
  let a := o.words.getD o.nDesc 0
  let b := o.words.getD (o.nDesc + 1) 0
  (bits a 0 32, bits a 32 32, bits a 64 64, bits b 0 64)

/-- The element index of output element (r, c) (R192). -/
def POp.elemIdx (o : POp) (r c : Nat) : Nat := (o.rand.2.2.1 + r * o.rand.2.2.2 + c) % 2 ^ 64

/-- Is descriptor `i` of the operation a bitmap (R190, R199, R209)? -/
def POp.isBitmap (o : POp) (i : Nat) : Bool :=
  match o.op with
  | 0x08 => (isCmp o.fn && i == 0) || (o.fn == 0x16 && i == 3)
  | 0x28 => o.mode == 2
  | _ => false

/-- Bytes of one row of a region (R189, R190). -/
def rowBytes (d : Region) (bitmap : Bool) : Nat :=
  if bitmap then ceilDiv d.cols 8 else ceilDiv (d.cols * fmtBitsOf d.fmt) 8
where
  /-- Bits of an element; 8 for a reserved code, which no checked operation has. -/
  fmtBitsOf (f : Nat) : Nat :=
    match f with
    | 0 => 8 | 1 => 8 | 2 => 16 | 3 => 16 | 4 => 32 | 5 => 8 | 6 => 4 | 7 => 32 | 8 => 128 | 9 => 384 | _ => 8

/-- B of the table Cycle counts: the region's bytes without row gaps. -/
def regBytes (d : Region) (bitmap : Bool := false) : Nat := d.rows * rowBytes d bitmap

/-- Number of ones in a cluster mask. -/
def ones16 (m : Nat) : Nat := ((List.range 16).filter (fun i => bit m i)).length

/-- Rows that the region takes in one store: with SPLIT, R201. -/
def storeRows (d : Region) : Nat :=
  if d.split then 2 * ((d.rows - 1) / 32) + (if 0 < (d.rows - 1) % 32 then 2 else 1) else d.rows

/-- How many CMASK bits an operand may set in space 1: one for a source, any for a destination, all for a tile. -/
inductive MaskRule where
  | one | any | all
  deriving DecidableEq, Repr

/-- What the checks are made against: the region size in bytes, and whether a seam leads to a panel of the partition. -/
structure ChkEnv where
  slr  : Nat := 0
  seam : Nat → Bool

/-- Codes 3, 6, 7, 8 and 9 of one descriptor, word `i` after the head (R97, R189, R200, R201, R777, log entry 21). -/
def descFails (e : ChkEnv) (o : POp) (i : Nat) (spaces : List Nat) (mr : MaskRule) (moveDst : Bool := false) : List (Nat × Nat) :=
  let w := o.words.getD i 0
  let d := parseDesc w
  let bm := o.isBitmap i
  let at_ := i + 1
  let isSeam : Bool := 2 ≤ d.space && d.space ≤ 5
  let lim := if d.space = 0 then 0x80000 else 0x8000
  let inSp := decide (d.space ∈ spaces)
  let f6 := if descResv w then [(at_, 6)] else []
  let f3 := if !bm && decide (9 < d.fmt) then [(at_, 3)] else []
  let f9 := if (d.split && !(moveDst && d.space == 1)) || d.rows == 0 || d.cols == 0
      || (d.space != 1 && d.cmask != 0)
      || (d.space == 1 && inSp && (match mr with
          | .one => ones16 d.cmask != 1
          | .any => d.cmask == 0
          | .all => d.cmask != 0xFFFF))
      || (d.space == 1 && d.split && d.cmask != 0xFFFF) then [(at_, 9)] else []
  let f7 := if !inSp || (isSeam && (d.addr != 0 || !e.seam d.space))
      || (!isSeam && inSp && d.rows != 0 && d.cols != 0 && (bm || decide (d.fmt ≤ 9))
          && decide (lim < d.addr + (storeRows d - 1) * d.rstride + rowBytes d bm)) then [(at_, 7)] else []
  let f8 := if d.space == 0 && decide (0 ∈ spaces) && decide (d.addr < e.slr) then [(at_, 8)] else []
  f3 ++ f6 ++ f7 ++ f8 ++ f9

/-- Code 3 at descriptor `i` unless its format is one of `fs` (a reserved format is reported already). -/
def fmtFail (o : POp) (i : Nat) (fs : List Nat) : List (Nat × Nat) :=
  let f := (o.desc i).fmt
  if f ≤ 9 ∧ f ∉ fs then [(i + 1, 3)] else []

/-- Code 9 at descriptor `i` unless it has the given shape. -/
def shapeFail (o : POp) (i rows cols : Nat) : List (Nat × Nat) :=
  if (o.desc i).rows ≠ rows ∨ (o.desc i).cols ≠ cols then [(i + 1, 9)] else []

/-- The operand pairs of R93; `some true` for FP32 lanes. -/
def pairKind (a b : Nat) : Option LaneKind :=
  if (a = 0 ∨ a = 1) ∧ (b = 0 ∨ b = 1) then some .fuller
  else if (a = 5 ∧ b = 5) ∨ (a = 6 ∧ b = 6) then some .fuller
  else if (a = 2 ∧ b = 2) ∨ (a = 3 ∧ b = 3) then some .fp
  else none

/-- Reserved fields of a head word (table Operation fields, R188). -/
def headResv (o : POp) : Bool :=
  let w := o.head
  let z (lo n : Nat) : Bool := bits w lo n == 0
  !(z 11 5 && (match o.op with
    | 0x01 => z 58 70
    | 0x02 => z 49 79
    | 0x03 => z 48 4 && z 56 72
    | 0x04 => z 48 80
    | 0x08 => z 58 70
    | 0x10 => z 48 80
    | 0x18 => z 77 51
    | 0x19 => z 77 51
    | 0x20 => z 50 4 && z 58 6 && z 80 48
    | 0x28 => z 50 14 && z 96 32
    | 0x30 => z 49 1 && z 55 9 && z 112 16
    | 0x31 => z 48 16 && z 96 32
    | 0x38 => z 48 16 && z 103 25
    | _ => z 49 79))

/-- Code 6 for reserved bits of the second random word (R192). -/
def randFail (o : POp) : List (Nat × Nat) :=
  if o.hasRand && bits (o.words.getD (o.nDesc + 1) 0) 64 64 != 0 then [(o.nDesc + 2, 6)] else []

/-- Formats and shapes of the vector operation (R199, R777). -/
def vecFails (e : ChkEnv) (o : POp) : List (Nat × Nat) :=
  let fn := o.fn
  let n := fnArity fn
  let flt := [0, 1, 2, 3, 4]
  let int := [5, 6, 7]
  let ds := descFails e o 0 [0, 1] .any ++ (List.range n).flatMap (fun k => descFails e o (k + 1) [0, 1] .one)
  let s1 := (o.desc 1).fmt
  let srcOk := if isIntFn fn then int else if isCmp fn then (if s1 ∈ flt then flt else int)
    else if fn = 0x16 then [s1] else if fn = 0x17 then [0, 1, 2, 3, 4, 5, 6, 7, 8, 9] else flt
  let srcs := (List.range n).flatMap (fun k => if o.isBitmap (k + 1) then [] else fmtFail o (k + 1) srcOk)
  let dst := if isCmp fn then [] else fmtFail o 0 (if isIntFn fn then [7] else if fn = 0x16 then [s1]
    else if fn = 0x17 then [0, 1, 2, 3, 4, 5, 6, 7] else [4])
  let d := o.desc 0
  let shape := if isReduce fn then shapeFail o 0 (o.desc 1).rows 1
    else (List.range n).flatMap (fun k => shapeFail o (k + 1) d.rows d.cols)
  ds ++ srcs ++ dst ++ shape ++ (if 4 < o.rnd then [(0, 4)] else [])

/-- Codes 1-9 of one operation, as (word within the operation, code). A MOVE's format and shape are judged at the destination's word, two
seams at the source's (log entry 139). -/
def opFails (e : ChkEnv) (o : POp) : List (Nat × Nat) :=
  if opDefined o.op = false then [(0, 1)]
  else if o.op = 0x08 ∧ fnArity o.fn = 0 then [(0, 4)]
  else if o.nw ≠ o.wantNw then [(0, 2)]
  else
    (if headResv o then [(0, 6)] else []) ++ randFail o ++
    (match o.op with
    | 0x01 =>
      let fs := [0, 1, 2, 3, 5, 6]
      let okF := decide (o.fmta ∈ fs) && decide (o.fmtb ∈ fs)
      (if okF then (if (pairKind o.fmta o.fmtb).isNone then [(0, 5)] else []) else [(0, 3)])
        ++ (if 1 < o.accf then [(0, 4)] else [])
        ++ descFails e o 0 [1] .all ++ descFails e o 1 [1] .all
        ++ fmtFail o 0 [o.fmta] ++ fmtFail o 1 [o.fmtb]
        ++ (if (o.desc 0).rows ≠ 2 then [(1, 9)] else []) ++ shapeFail o 1 32 (o.desc 0).cols
    | 0x02 => descFails e o 0 [0] .one ++ fmtFail o 0 (if o.kindf = 0 then [0, 1, 5, 6, 7, 8] else [0, 1, 2, 3, 4])
        ++ shapeFail o 0 32 32
    | 0x03 => descFails e o 0 [0] .any ++ shapeFail o 0 32 32 ++ (if 4 < o.rnd then [(0, 4)] else [])
    | 0x08 => vecFails e o
    | 0x10 =>
      let a := o.desc 0
      let b := o.desc 1
      let both := decide (2 ≤ a.space ∧ a.space ≤ 5) && decide (2 ≤ b.space ∧ b.space ≤ 5)
      descFails e o 0 [0, 1, 2, 3, 4, 5] .any true ++ descFails e o 1 [0, 1, 2, 3, 4, 5] .one
        ++ (if both then [(2, 7)] else []) ++ (if a.fmt ≠ b.fmt then [(1, 3)] else []) ++ shapeFail o 0 b.rows b.cols
    | 0x18 => descFails e o 0 [0] .any
    | 0x19 => descFails e o 0 [0] .any
    | 0x20 =>
      let d := o.desc 0
      descFails e o 0 [0, 1] .any
        ++ (List.range (o.nDesc - 1)).flatMap (fun k => descFails e o (k + 1) [0, 1] .one ++ shapeFail o (k + 1) d.rows d.cols)
        ++ (match o.mode with
          | 0 => fmtFail o 0 [4] ++ fmtFail o 1 [4] ++ fmtFail o 2 [4]
          | 1 => fmtFail o 0 [9] ++ fmtFail o 1 [0, 1, 2, 3, 4, 5, 7, 8]
          | 2 => fmtFail o 0 [9] ++ fmtFail o 1 [9] ++ fmtFail o 2 [9]
          | _ => fmtFail o 0 [0, 1, 2, 3, 4, 5, 6, 7] ++ fmtFail o 1 [9] ++ (if 4 < o.rnd then [(0, 4)] else []))
    | 0x28 =>
      if o.mode = 3 then [(0, 4)]
      else descFails e o 0 [0, 1] .any ++ (match o.mode with
        | 0 => fmtFail o 0 [7]
        | 1 => fmtFail o 0 [4]
        | _ => [])
    | 0x38 => if o.wen then descFails e o 0 [0, 1] .one else []
    | _ => [])

/-- The lane state the codes 10 and 11 are judged on (R187, R194-R198). -/
structure LaneSt where
  kind    : LaneKind := .unset
  written : Bool := false
  deriving DecidableEq, Repr

/-- Codes 10 and 11 of an operation. -/
def laneFails (l : LaneSt) (o : POp) : List (Nat × Nat) :=
  match o.op with
  | 0x01 => if o.accf = 1 ∧ pairKind o.fmta o.fmtb ≠ some l.kind then [(0, 10)] else []
  | 0x03 => (if l.kind = .unset ∨ ((o.desc 0).fmt = 8 ∧ l.kind ≠ .fuller) then [(0, 10)] else [])
      ++ (if l.written then [(0, 11)] else [])
  | 0x04 => if l.kind = .unset then [(0, 10)] else []
  | _ => []

/-- The lane state after an operation. -/
def laneNext (l : LaneSt) (o : POp) : LaneSt :=
  match o.op with
  | 0x01 => { kind := (pairKind o.fmta o.fmtb).getD l.kind, written := true }
  | 0x02 => { kind := if o.kindf = 0 then .fuller else .fp, written := true }
  | 0x03 => { l with written := false }
  | 0x04 => { l with written := false }
  | _ => l

/-- The lowest word, then the lowest code, of a list of failures (R218, R220). -/
def firstFail (l : List (Nat × Nat)) : Option (Nat × Nat) :=
  l.foldl (fun b x => match b with
    | none => some x
    | some y => if x.1 < y.1 ∨ (x.1 = y.1 ∧ x.2 < y.2) then some x else some y) none

/-- Word `i` of a list that begins at word `st` of a region (R184, R188). -/
def listWord (read : Nat → Nat → List Byte) (st i : Nat) : Nat := ofLE (read (16 * (st + i)) 16)

/-- The operation at word `i` of a list. -/
def opAt (read : Nat → Nat → List Byte) (st i : Nat) : POp :=
  let h := listWord read st i
  parseOp h ((List.range (bits h 8 3)).map (fun k => listWord read st (i + 1 + k)))

/-- Failure of the operation at word `i` of a list of `n` words: codes 1-9 and `more`, and code 12 where it runs past the
list, judged at the head word (R217). -/
def opReject (e : ChkEnv) (o : POp) (i n : Nat) (more : List (Nat × Nat)) : Option (Nat × Nat) :=
  let fs := opFails e o ++ more
  let fs := if opDefined o.op && decide (o.nw = o.wantNw) && decide (n < i + 1 + o.nw) then
      (fs.filter (fun x => x.1 == 0)) ++ [(0, 12)] else fs
  (firstFail fs).map (fun x => (i + x.1, x.2))

/-- What a report of failure `w` of the operation at word `i` names. A first operation that runs past the list leaves a list without END
that holds no complete operation: word 0 and no identifiers (R217). -/
def rejectOf (o : POp) (i : Nat) (w : Nat × Nat) : Nat × Nat × Nat × Nat :=
  if i = 0 ∧ w = (0, 12) then (0, 12, 0xFFFF, 0xFFFF) else (w.1, w.2, o.layer, o.oper)

/-! Cycle counts (R215). -/

/-- Pace cycles of an operation (table Cycle counts). -/
def POp.cycles (o : POp) : Nat :=
  let d := o.desc 0
  let n := d.rows * d.cols
  match o.op with
  | 0x01 => ceilDiv d.cols (if o.fmta = 6 then 8 else if o.fmta = 2 ∨ o.fmta = 3 then 1 else 4) + 16
  | 0x02 => ceilDiv (regBytes d) 256 + 8
  | 0x03 => ceilDiv (regBytes d) 256 + 8
  | 0x04 => 24
  | 0x08 => vecCycles + 8
  | 0x10 => ceilDiv (regBytes (o.desc 1)) 256 + 4
  | 0x18 => 2
  | 0x19 => 2
  | 0x20 => (match o.mode with | 0 => ceilDiv n 64 | 2 => n | _ => ceilDiv n 16) + 8
  | 0x28 => ceilDiv n 64 + 8
  | 0x30 => 0
  | 0x31 => 16
  | 0x38 => 1 + (if o.wen then ceilDiv (regBytes d) 256 else 0)
  | _ => 1
where
  /-- The vector cycles of a VEC (R581). -/
  vecCycles : Nat :=
    let d := o.desc 0
    if isReduce o.fn then (o.desc 1).rows * ceilDiv (o.desc 1).cols 64
    else (if o.fn = 5 ∨ o.fn = 6 ∨ isTable o.fn then 4 else 1) * ceilDiv (d.rows * d.cols) 64

/-- The vector cycles of a VEC, FOLD or RFILL: its cycles less the fixed 8 (R581). -/
def POp.vcycles (o : POp) : Nat := if o.op = 0x08 ∨ o.op = 0x20 ∨ o.op = 0x28 then o.cycles - 8 else 0

/-- e of R216 as a fraction: f is 3 * PACE / 400 pace cycles a slot. `e` is a numerator over `3 * PACE`. -/
def minwFold (pace : Nat) (st : Nat × Nat) (o : POp) : Nat × Nat :=
  if o.op = 0x30 ∨ o.op = 0x31 then (max (st.1 + 400 * st.2) (o.p32 * (3 * pace)), o.cycles)
  else (st.1, st.2 + o.cycles)

/-- MINW of a list (R216). -/
def minw (pace : Nat) (ops : List POp) : Nat :=
  let r := ops.foldl (minwFold pace) (0, 0)
  ceilDiv (r.1 + 400 * r.2) (3 * pace)

/-! The load check of one list (R217, R218). -/

/-- A failure: word index, code, LAYER, OPER. -/
abbrev Reject := Nat × Nat × Nat × Nat

/-- Operations of a list from word `i`, or its first failure. `prev` is the last complete operation. -/
def checkOps (e : ChkEnv) (streamOk : Nat → Bool) (read : Nat → Nat → List Byte) (st n : Nat) :
    Nat → Nat → LaneSt → Option POp → List POp → List POp × Option Reject
  | 0, _, _, _, acc => (acc, none)
  | fuel + 1, i, l, prev, acc =>
    if n ≤ i then
      match prev with
      | some o => if o.op = 0x3F then (acc, none) else (acc, some (n, 12, o.layer, o.oper))
      | none => (acc, some (0, 12, 0xFFFF, 0xFFFF))
    else match prev with
      | some o =>
        if o.op = 0x3F then (acc, some (i, 12, o.layer, o.oper)) else go fuel i l acc
      | none => go fuel i l acc
where
  /-- The operation at word `i`. -/
  go (fuel i : Nat) (l : LaneSt) (acc : List POp) : List POp × Option Reject :=
    let o := opAt read st i
    let s := if (o.op = 0x18 ∨ o.op = 0x19) ∧ streamOk o.stream = false then [(0, 13)] else []
    match opReject e o i n (laneFails l o ++ s) with
    | some w => (acc, some (rejectOf o i w))
    | none => checkOps e streamOk read st n fuel (i + 1 + o.nw) (laneNext l o) (some o) (acc ++ [o])

/-- A directory entry: START, LENGTH, MINW (R184). -/
def dirEntry (read : Nat → Nat → List Byte) (d : Nat) : Nat × Nat × Nat :=
  (fieldLE (read (8 * d) 8) 0 2, fieldLE (read (8 * d) 8) 2 2, fieldLE (read (8 * d) 8) 4 4)

/-- Is a directory entry faulty (code 12)? -/
def dirBad (slr dirn st n : Nat) : Bool := n == 0 || decide (slr < 16 * (st + n)) || decide (16 * st < 8 * dirn)

end Sys2Proof.Machine
end

