-- ==== Sys2Proof/Machine/Float.lean ====
section
/-! DEFINITION. Number formats, rounding, fullers, and the functions of the vector unit on exact values (R97-R139, R776). -/
namespace Sys2Proof.Machine

/-- A floating-point value: NaN, an infinity, or (-1)^neg * m * 2^e. -/
inductive FV where
  | nan
  | inf (neg : Bool)
  | fin (neg : Bool) (m : Nat) (e : Int)
  deriving DecidableEq, Repr

/-- The shape of a floating-point format (table Floating-point encodings): exponent and mantissa bits, bias, whether it
has infinities, the encoding of the largest finite value and the canonical NaN. -/
structure FmtInfo where
  eb   : Nat
  mb   : Nat
  bias : Nat
  inf  : Bool
  maxv : Nat
  nan  : Nat
  deriving DecidableEq, Repr

/-- The floating formats, codes 0-4 (table Format codes). -/
def fmtInfo (f : Nat) : FmtInfo :=
  match f with
  | 0 => { eb := 4, mb := 3, bias := 7, inf := false, maxv := 0x7E, nan := 0x7F }
  | 1 => { eb := 5, mb := 2, bias := 15, inf := true, maxv := 0x7B, nan := 0x7E }
  | 2 => { eb := 8, mb := 7, bias := 127, inf := true, maxv := 0x7F7F, nan := 0x7FC0 }
  | 3 => { eb := 5, mb := 10, bias := 15, inf := true, maxv := 0x7BFF, nan := 0x7E00 }
  | _ => { eb := 8, mb := 23, bias := 127, inf := true, maxv := 0x7F7FFFFF, nan := 0x7FC00000 }

/-- Is the format floating (0-4) or integer (5-7)? -/
def isFloat (f : Nat) : Bool := f < 5
def isInt (f : Nat) : Bool := f == 5 || f == 6 || f == 7

/-- Bits of an element (table Format codes). -/
def fmtBits (f : Nat) : Nat :=
  match f with
  | 0 => 8 | 1 => 8 | 2 => 16 | 3 => 16 | 4 => 32 | 5 => 8 | 6 => 4 | 7 => 32 | 8 => 128 | _ => 384

/-- The value of an encoding (R98, R99). -/
def decodeF (f w : Nat) : FV :=
  let i := fmtInfo f
  let neg := bit w (i.eb + i.mb)
  let e := bits w i.mb i.eb
  let m := bits w 0 i.mb
  if e = 2 ^ i.eb - 1 ∧ i.inf then (if m = 0 then .inf neg else .nan)
  else if i.inf = false ∧ e = 2 ^ i.eb - 1 ∧ m = 2 ^ i.mb - 1 then .nan
  else if e = 0 then .fin neg m (1 - (i.bias : Int) - i.mb)
  else .fin neg (2 ^ i.mb + m) ((e : Int) - i.bias - i.mb)

/-- What a rounding counted (R776). -/
structure Cnt where
  inv : Nat := 0
  ovf : Nat := 0
  unf : Nat := 0
  sat : Nat := 0
  deriving DecidableEq, Repr

def Cnt.add (a b : Cnt) : Cnt := { inv := a.inv + b.inv, ovf := a.ovf + b.ovf, unf := a.unf + b.unf, sat := a.sat + b.sat }

/-- The counts of one element result: each event adds one to its counter (R776). -/
def Cnt.once (a : Cnt) : Cnt := { inv := min 1 a.inv, ovf := min 1 a.ovf, unf := min 1 a.unf, sat := min 1 a.sat }

/-- A positive exact magnitude: num/den, or its square root. -/
structure Mag where
  num  : Nat
  den  : Nat
  root : Bool := false
  deriving DecidableEq, Repr

/-- m * 2^e as a magnitude. -/
def magOf (m : Nat) (e : Int) : Mag := if 0 ≤ e then { num := m * 2 ^ e.toNat, den := 1 } else { num := m, den := 2 ^ (-e).toNat }

/-- floor(x * 2^k), and whether x * 2^k is an integer. -/
def Mag.floorAt (x : Mag) (k : Int) : Nat × Bool :=
  let j : Int := if x.root then 2 * k else k
  let num : Nat := if 0 ≤ j then x.num * 2 ^ j.toNat else x.num
  let den := if 0 ≤ j then x.den else x.den * 2 ^ (-j).toNat
  let q := num / den
  if x.root then
    let r := Nat.sqrt q
    (r, decide (r * r * den = num))
  else (q, decide (num % den = 0))

/-- floor(log2 x) for x > 0. -/
def Mag.log2 (x : Mag) : Int :=
  let e : Int := (x.num.log2 : Int) - x.den.log2
  let lo : Int := if 0 ≤ e then (if x.num < x.den * 2 ^ e.toNat then e - 1 else e)
    else (if x.num * 2 ^ (-e).toNat < x.den then e - 1 else e)
  if x.root then lo / 2 else lo

/-- Does a rounding mode round the magnitude up (R103, R131)? `fr` is the fraction above lo in 2^-32, `exact` says that
nothing lies beyond it, `odd` that lo's last bit is 1. -/
def roundsUp (mode : Nat) (neg : Bool) (fr : Nat) (exact odd : Bool) (w : Nat) : Bool :=
  match mode with
  | 0 => decide (2 ^ 31 < fr) || (decide (fr = 2 ^ 31) && (!exact || odd))
  | 2 => neg && !(exact && fr == 0)
  | 3 => !neg && !(exact && fr == 0)
  | 4 => decide (2 ^ 32 ≤ fr + w)
  | _ => false

/-- The sign bit of a format. -/
def signBit (i : FmtInfo) (neg : Bool) : Nat := b2n neg * 2 ^ (i.eb + i.mb)

/-- Infinity as the format and SAT give it (R104). -/
def infOut (f : Nat) (sat neg : Bool) : Nat :=
  let i := fmtInfo f
  if sat then signBit i neg + i.maxv
  else if i.inf then signBit i neg + (2 ^ i.eb - 1) * 2 ^ i.mb else i.nan

/-- A nonzero exact value rounded once to a floating format (R103, R104, R131, R132, R776). -/
def roundF (f mode : Nat) (sat neg : Bool) (x : Mag) (w : Nat) : Nat × Cnt :=
  let i := fmtInfo f
  let emin : Int := 1 - (i.bias : Int)
  let q : Int := max x.log2 emin - i.mb
  let t := x.floorAt (32 - q)
  let lo := t.1 / 2 ^ 32
  let up := roundsUp mode neg (t.1 % 2 ^ 32) t.2 (lo % 2 == 1) w
  let m := if up then lo + 1 else lo
  let m2 := if m = 2 ^ (i.mb + 1) then 2 ^ i.mb else m
  let q2 := if m = 2 ^ (i.mb + 1) then q + 1 else q
  let enc : Nat := if m2 < 2 ^ i.mb then m2 else ((q2 + i.mb + i.bias).toNat) * 2 ^ i.mb + (m2 - 2 ^ i.mb)
  if i.maxv < enc then
    let toward := mode == 1 || (mode == 2 && !neg) || (mode == 3 && neg)
    (if toward then signBit i neg + i.maxv else infOut f sat neg, { ovf := 1 })
  else (signBit i neg + enc, if m2 = 0 then { unf := 1 } else {})

/-- A value converted to a floating format (R104). -/
def toFloat (f mode : Nat) (sat : Bool) (v : FV) (w : Nat) : Nat × Cnt :=
  match v with
  | .nan => ((fmtInfo f).nan, {})
  | .inf neg => (infOut f sat neg, {})
  | .fin neg m e => if m = 0 then (signBit (fmtInfo f) neg, {}) else roundF f mode sat neg (magOf m e) w

/-- Width of an integer format. -/
def intBits (f : Nat) : Nat := if f = 6 then 4 else if f = 5 then 8 else 32

/-- An integer saturated to a format (R105). -/
def satInt (f : Nat) (n : Int) : Nat × Cnt :=
  let b := intBits f
  let hi : Int := 2 ^ (b - 1) - 1
  let lo : Int := -(2 ^ (b - 1))
  if n < lo then (ofSint b lo, { sat := 1 }) else if hi < n then (ofSint b hi, { sat := 1 }) else (ofSint b n, {})

/-- A value converted to an integer format (R105, R776). -/
def toIntFmt (f mode : Nat) (v : FV) (w : Nat) : Nat × Cnt :=
  match v with
  | .nan => (0, { inv := 1 })
  | .inf neg =>
    let b := intBits f
    (if neg then 2 ^ (b - 1) else 2 ^ (b - 1) - 1, { sat := 1 })
  | .fin neg m e =>
    if m = 0 then (0, {})
    else
      let t := (magOf m e).floorAt 32
      let lo : Nat := t.1 / (2 ^ 32 : Nat)
      let n : Nat := if roundsUp mode neg (t.1 % 2 ^ 32) t.2 (lo % 2 == 1) w then lo + 1 else lo
      let r := satInt f (if neg then -(n : Int) else n)
      (r.1, if n = 0 then { r.2 with unf := 1 } else r.2)

/-- A value converted to any format but the fullers. -/
def toFmt (f mode : Nat) (sat : Bool) (v : FV) (w : Nat) : Nat × Cnt :=
  if isFloat f then toFloat f mode sat v w else toIntFmt f mode v w

/-- The value of an element of any format with codes 0-7. -/
def elemVal (f w : Nat) : FV :=
  if isFloat f then decodeF f w
  else let n := sint (intBits f) w
       .fin (decide (n < 0)) n.natAbs 0

/-! Fullers (R107-R119). A fuller is an exact value with flags NAN 1, PINF 2, NINF 4, OVF 8. -/

/-- A fuller: integer value scaled by 2^-scale, and flags. -/
structure Ful where
  v     : Int := 0
  flags : Nat := 0
  deriving DecidableEq, Repr

/-- The value times 2^scale of a finite value; exact where scale covers it. -/
def scaled (neg : Bool) (m : Nat) (e : Int) (scale : Nat) : Int :=
  let x : Int := e + scale
  let mi : Int := m
  let n : Int := if 0 ≤ x then mi * (2 : Int) ^ x.toNat else mi / (2 : Int) ^ (-x).toNat
  if neg then -n else n

/-- A value as a term of a fuller (R111, R113). -/
def termOf (v : FV) (scale : Nat) : Ful :=
  match v with
  | .nan => { flags := 1 }
  | .inf neg => { flags := if neg then 4 else 2 }
  | .fin neg m e => { v := scaled neg m e scale }

/-- An FP8 or integer product as a term of an 80-bit fuller (R108, R114), with its invalid count (R776). -/
def product (a b : FV) (scale : Nat) : Ful × Nat :=
  match a, b with
  | .nan, _ => ({ flags := 1 }, 1)
  | _, .nan => ({ flags := 1 }, 1)
  | .inf x, .inf y => ({ flags := if x != y then 4 else 2 }, 0)
  | .inf x, .fin y m _ => if m = 0 then ({ flags := 1 }, 1) else ({ flags := if x != y then 4 else 2 }, 0)
  | .fin x m _, .inf y => if m = 0 then ({ flags := 1 }, 1) else ({ flags := if x != y then 4 else 2 }, 0)
  | .fin x m e, .fin y n g => ({ v := scaled (x != y) (m * n) (e + g) scale }, 0)

/-- Does a sum lie outside an n-bit fuller's range (R107, R110)? -/
def outside (n : Nat) (v : Int) : Bool := decide (v < -(2 ^ (n - 1))) || decide (2 ^ (n - 1) ≤ v)

/-- The sum of two fullers of `n` bits (R112, R113). Both infinities leave NAN as it is (log entry 138). -/
def fulAdd (n : Nat) (a b : Ful) : Ful :=
  let v := a.v + b.v
  { v := v, flags := (a.flags ||| b.flags) ||| (if outside n v then 8 else 0) }

/-- The value a fuller reads out as (R117, R118). -/
def fulVal (a : Ful) (scale : Nat) : FV :=
  if bit a.flags 0 ∨ (bit a.flags 1 ∧ bit a.flags 2) then .nan
  else if bit a.flags 1 then .inf false
  else if bit a.flags 2 then .inf true
  else .fin (decide (a.v < 0)) a.v.natAbs (-(scale : Int))

/-- Read-out into a format (R117, R118, R135, R776). -/
def readOut (a : Ful) (scale f mode : Nat) (sat : Bool) (w : Nat) : Nat × Cnt :=
  let r := toFmt f mode sat (fulVal a scale) w
  let both := bit a.flags 1 && bit a.flags 2
  if isFloat f && both && !(bit a.flags 0) then (r.1, { r.2 with inv := 1 }) else r

/-- A FUL80 or FUL384 element from its bytes as a number (R115). -/
def ful80 (w : Nat) : Ful := { v := sint 80 w, flags := bits w 80 4 }
def ful384 (w : Nat) : Ful := { v := sint 376 w, flags := bits w 376 4 }
def ful80Out (a : Ful) : Nat := ofSint 80 a.v + a.flags % 16 * 2 ^ 80
def ful384Out (a : Ful) : Nat := ofSint 376 a.v + a.flags % 16 * 2 ^ 376

/-- An 80-bit fuller value as a 384-bit one (R111). -/
def widenFul (a : Ful) : Ful := { v := a.v * 2 ^ 128, flags := a.flags }

/-! FP32 arithmetic (R123, table Special values in the vector unit). -/

/-- An exact sum given as an integer scaled by 2^e, rounded to FP32; the sign of an exact zero is given. -/
def roundSum (mode : Nat) (sat : Bool) (n : Int) (e : Int) (zeroNeg : Bool) (w : Nat) : Nat × Cnt :=
  if n = 0 then (signBit (fmtInfo 4) zeroNeg, {}) else roundF 4 mode sat (decide (n < 0)) (magOf n.natAbs e) w

/-- The canonical NaN with an invalid count. -/
def invalid : Nat × Cnt := (0x7FC00000, { inv := 1 })
def infF (neg : Bool) : Nat := if neg then 0xFF800000 else 0x7F800000

/-- Sum of two values. A zero sum of unlike signs is +0, -0 under RDN. -/
def addV (mode : Nat) (sat : Bool) (a b : FV) (w : Nat) : Nat × Cnt :=
  match a, b with
  | .nan, _ => invalid
  | _, .nan => invalid
  | .inf x, .inf y => if x = y then (infF x, {}) else invalid
  | .inf x, _ => (infF x, {})
  | _, .inf y => (infF y, {})
  | .fin x m e, .fin y n g =>
    let k := min e g
    let s : Int := (if x then -1 else 1) * (m * 2 ^ (e - k).toNat : Nat) + (if y then -1 else 1) * (n * 2 ^ (g - k).toNat : Nat)
    let z := if m = 0 ∧ n = 0 ∧ x = y then x else mode == 2
    roundSum mode sat s k z w

def negV (a : FV) : FV :=
  match a with
  | .nan => .nan | .inf x => .inf (!x) | .fin x m e => .fin (!x) m e

/-- The exact product of two values, and whether 0 x infinity. -/
def mulExact (a b : FV) : FV × Bool :=
  match a, b with
  | .nan, _ => (.nan, false)
  | _, .nan => (.nan, false)
  | .inf x, .inf y => (.inf (x != y), false)
  | .inf x, .fin y m _ => if m = 0 then (.nan, true) else (.inf (x != y), false)
  | .fin x m _, .inf y => if m = 0 then (.nan, true) else (.inf (x != y), false)
  | .fin x m e, .fin y n g => (.fin (x != y) (m * n) (e + g), false)

/-- A product rounded once. -/
def mulV (mode : Nat) (sat : Bool) (a b : FV) (w : Nat) : Nat × Cnt :=
  match (mulExact a b).1 with
  | .nan => invalid
  | .inf x => (infF x, {})
  | .fin x m e => if m = 0 then (signBit (fmtInfo 4) x, {}) else roundF 4 mode sat x (magOf m e) w

/-- A fused multiply-add rounded once. -/
def fmaV (mode : Nat) (sat : Bool) (a b c : FV) (w : Nat) : Nat × Cnt :=
  match (mulExact a b).1 with
  | .nan => invalid
  | p => addV mode sat p c w

/-- A quotient. -/
def divV (mode : Nat) (sat : Bool) (a b : FV) (w : Nat) : Nat × Cnt :=
  match a, b with
  | .nan, _ => invalid
  | _, .nan => invalid
  | .inf _, .inf _ => invalid
  | .inf x, .fin y _ _ => (infF (x != y), {})
  | .fin x _ _, .inf y => (signBit (fmtInfo 4) (x != y), {})
  | .fin x m e, .fin y n g =>
    if n = 0 then (if m = 0 then invalid else (infF (x != y), {}))
    else if m = 0 then (signBit (fmtInfo 4) (x != y), {})
    else
      let d := e - g
      let mg : Mag := if 0 ≤ d then { num := m * 2 ^ d.toNat, den := n } else { num := m, den := n * 2 ^ (-d).toNat }
      roundF 4 mode sat (x != y) mg w

/-- A square root. -/
def sqrtV (mode : Nat) (sat : Bool) (a : FV) (w : Nat) : Nat × Cnt :=
  match a with
  | .nan => invalid
  | .inf x => if x then invalid else (infF false, {})
  | .fin x m e =>
    if m = 0 then (signBit (fmtInfo 4) x, {})
    else if x then invalid
    else roundF 4 mode sat false { magOf m e with root := true } w

/-- Order of two values that are not NaN: -1, 0 or 1; with `zeros`, -0 lies below +0 (table Vector functions). -/
def cmpV (zeros : Bool) (a b : FV) : Int :=
  match a, b with
  | .inf x, .inf y => if x = y then 0 else if x then -1 else 1
  | .inf x, _ => if x then -1 else 1
  | _, .inf y => if y then 1 else -1
  | .fin x m e, .fin y n g =>
    let k := min e g
    let s : Int := (if x then -1 else 1) * (m * 2 ^ (e - k).toNat : Nat) - (if y then -1 else 1) * (n * 2 ^ (g - k).toNat : Nat)
    if s < 0 then -1 else if 0 < s then 1
    else if zeros && decide (m = 0) && decide (n = 0) && x != y then (if x then -1 else 1) else 0
  | _, _ => 0

def isNan (a : FV) : Bool := match a with | .nan => true | _ => false

/-- MIN and MAX of two FP32 words. -/
def minmax (maxi : Bool) (a b : Nat) : Nat :=
  let x := decodeF 4 a
  let y := decodeF 4 b
  if isNan x || isNan y then 0x7FC00000
  else if (if maxi then decide (cmpV true x y < 0) else decide (0 < cmpV true x y)) then b else a

/-- A floating function of codes 0x01-0x0B on FP32 words (R199, table Vector function codes). -/
def floatFn (fn mode : Nat) (sat : Bool) (a b c w : Nat) : Nat × Cnt :=
  let x := decodeF 4 a
  let y := decodeF 4 b
  let z := decodeF 4 c
  match fn with
  | 0x01 => addV mode sat x y w
  | 0x02 => addV mode sat x (negV y) w
  | 0x03 => mulV mode sat x y w
  | 0x04 => if isNan z then invalid else fmaV mode sat x y z w
  | 0x05 => divV mode sat x y w
  | 0x06 => sqrtV mode sat x w
  | 0x07 => (minmax false a b, {})
  | 0x08 => (minmax true a b, {})
  | 0x09 => (if isNan x then 0x7FC00000 else a % 2 ^ 31, {})
  | 0x0A => (if isNan x then 0x7FC00000 else a ^^^ 2 ^ 31, {})
  | _ => (if isNan x then 0x7FC00000 else a % 2 ^ 31 + b / 2 ^ 31 % 2 * 2 ^ 31, {})

/-- An integer function of codes 0x28-0x31 on INT32 words. -/
def intFn (fn a b : Nat) : Nat :=
  let x := BitVec.ofNat 32 a
  let y := BitVec.ofNat 32 b
  let k := b % 32
  match fn with
  | 0x28 => (x + y).toNat
  | 0x29 => (x - y).toNat
  | 0x2A => if x.slt y then x.toNat else y.toNat
  | 0x2B => if x.slt y then y.toNat else x.toNat
  | 0x2C => (x &&& y).toNat
  | 0x2D => (x ||| y).toNat
  | 0x2E => (x ^^^ y).toNat
  | 0x2F => (x <<< k).toNat
  | 0x30 => (x >>> k).toNat
  | _ => (x.sshiftRight k).toNat

/-- A comparison of codes 0x10-0x15 from the order of its operands; a NaN operand gives 0, and 1 for NE. -/
def cmpFn (fn : Nat) (nan : Bool) (o : Int) : Bool :=
  match fn with
  | 0x10 => !nan && o == 0
  | 0x11 => nan || o != 0
  | 0x12 => !nan && decide (o < 0)
  | 0x13 => !nan && decide (o ≤ 0)
  | 0x14 => !nan && decide (0 < o)
  | _ => !nan && decide (0 ≤ o)

/-- An addition outside the vector unit's functions: a NaN operand counts nothing (R776). -/
def addQuiet (a b : Nat) : Nat × Cnt :=
  let x := decodeF 4 a
  let y := decodeF 4 b
  if isNan x || isNan y then (0x7FC00000, {}) else addV 0 false x y 0

/-- One 16-wide block sum of R121: a pairwise tree of FP32 additions under RNE. -/
def pairUp (l : List Nat) : List Nat × Cnt :=
  match l with
  | a :: b :: r =>
    let s := addQuiet a b
    let t := pairUp r
    (s.1 :: t.1, s.2.add t.2)
  | _ => (l, {})

def treeSum (l : List Nat) (n : Nat) : Nat × Cnt :=
  match n with
  | 0 => (l.headD 0, {})
  | n + 1 =>
    let p := pairUp l
    let t := treeSum p.1 n
    (t.1, p.2.add t.2)

/-- The reduction of R121 over `blocks` blocks. -/
def reduce121 (a : Nat) (p : List Nat) : Nat → Nat × Cnt
  | 0 => (a, {})
  | n + 1 =>
    let t := treeSum ((p ++ List.replicate 16 0).take 16) 4
    let s := addQuiet a t.1
    let r := reduce121 s.1 (p.drop 16) n
    (r.1, (t.2.add s.2).add r.2)

end Sys2Proof.Machine
end

