-- ==== Sys2Proof/Machine/Tables.lean ====
section
/-! DEFINITION. The device function tables: how close a result lies to the exact one (R123, R124). The exact results are computed in
fixed point with 448 fractional bits. -/
namespace Sys2Proof.Machine

/-- One in fixed point. -/
def fxOne : Int := ((2 ^ 448 : Nat) : Int)

/-- Product and quotient in fixed point. -/
def fxMul (a b : Int) : Int := a * b / fxOne
def fxDiv (a b : Int) : Int := a * fxOne / b

/-- `acc` with `n` terms of the series of e^z from term `t` = z^k / k! on. -/
def expSum (z : Int) : Nat → Nat → Int → Int → Int
  | 0, _, _, acc => acc
  | n + 1, k, t, acc => expSum z n (k + 1) (fxMul t z / ((k + 1 : Nat) : Int)) (acc + t)

/-- `acc` with `n` terms r^(2k+1) / (2k+1), every other one negated when `alt`, from `p` = r^(2k+1) on; `r2` is r^2. -/
def atanSum (alt : Bool) (r2 : Int) : Nat → Nat → Int → Int → Int
  | 0, _, _, acc => acc
  | n + 1, k, p, acc =>
    atanSum alt r2 n (k + 1) (if alt then -(fxMul p r2) else fxMul p r2) (acc + p / ((2 * k + 1 : Nat) : Int))

/-- The logarithm of `w`, 1 ≤ w < 2. -/
def fxLn (w : Int) : Int :=
  let r := fxDiv (w - fxOne) (w + fxOne)
  2 * atanSum false (fxMul r r) 144 0 r 0

/-- The logarithm of 2, and pi by Machin's formula. -/
def fxLn2 : Int :=
  let r := fxOne / 3
  2 * atanSum false (fxMul r r) 144 0 r 0
def fxPi : Int :=
  let r := fxOne / 5
  let q := fxOne / 239
  16 * atanSum true (fxMul r r) 104 0 r 0 - 4 * atanSum true (fxMul q q) 40 0 q 0

/-- e^x as a fixed-point value between 1 and 2 and a power of 2. -/
def fxExp (x : Int) : Int × Int :=
  let k := x / fxLn2
  (expSum (x - k * fxLn2) 100 0 fxOne 0, k)

/-- A fixed-point value and a power of 2 as a magnitude. -/
def fxMag (v : Int) (k : Int) : Mag := magOf v.natAbs (k - 448)

/-- `acc` with `n` terms of the series of the normal distribution from `t` = ± x^(2k+1) / (2^k k!) on; `h` is x^2 / 2. -/
def phiSum (h : Int) : Nat → Nat → Int → Int → Int
  | 0, _, _, acc => acc
  | n + 1, k, t, acc => phiSum h n (k + 1) (-(fxMul t h / ((k + 1 : Nat) : Int))) (acc + t / ((2 * k + 1 : Nat) : Int))

/-- The normal distribution's share below `x`, |x| ≤ 14. -/
def fxPhi (x : Int) : Int :=
  let root : Int := Nat.sqrt ((2 * fxPi).toNat * 2 ^ 448)
  fxOne / 2 + fxDiv (phiSum (fxMul x x / 2) 560 0 x 0) root

/-- The reciprocal of a magnitude. -/
def Mag.inv (x : Mag) : Mag := { x with num := x.den, den := x.num }

/-- The exact result of table function FN for a finite operand, as its sign and a magnitude right to far more bits than FP32 has. None
where it is zero or known to lie outside the normal range. -/
def tableExact (fn : Nat) (neg : Bool) (m : Nat) (e : Int) : Option (Bool × Mag) :=
  let x := scaled neg m e 448
  let a := magOf m e
  let big (n : Int) : Bool := decide (m ≠ 0) && decide (n ≤ a.log2)
  let sigs (y : Int × Int) : Bool × Mag := (false, fxMag y.1 y.2)
  match fn with
  | 0x18 => if m = 0 then none else some (neg, a.inv)
  | 0x19 => if m = 0 then none else some (false, { a.inv with root := true })
  | 0x1A =>
    if big 8 then none
    else
      let k := x / fxOne
      some (false, fxMag (expSum (fxMul (x - k * fxOne) fxLn2) 100 0 fxOne 0) k)
  | 0x1C => if big 8 then none else some (sigs (fxExp x))
  | 0x1B => lnOf fxLn2
  | 0x1D => lnOf fxOne
  | 0x1E =>
    if m = 0 then none
    else if big 6 then some (neg, { num := 1, den := 1 })
    else if a.log2 < -64 then some (neg, a)
    else
      let y := fxExp (2 * scaled false m e 448)
      let t := y.1 * (2 : Int) ^ y.2.toNat
      some (neg, fxMag (fxDiv (t - fxOne) (t + fxOne)) 0)
  | 0x1F =>
    if big 8 then (if neg then none else some (false, { num := 1, den := 1 }))
    else
      let y := fxExp (-x)
      let t : Int := if 0 ≤ y.2 then y.1 * (2 : Int) ^ y.2.toNat else y.1 / (2 : Int) ^ (-y.2).toNat
      some (false, fxMag (fxDiv fxOne (fxOne + t)) 0)
  | _ =>
    if m = 0 then none
    else if decide (14 * fxOne ≤ (x.natAbs : Int)) then (if neg then none else some (false, a))
    else
      let p := fxPhi x
      some (neg, magOf (m * p.natAbs) (e - 448))
where
  /-- ln x over ln of the base, whose own logarithm is `d`. -/
  lnOf (d : Int) : Option (Bool × Mag) :=
    if m = 0 then none
    else
      let k := (magOf m e).log2
      let w := scaled false m (e - k) 448
      let v := fxLn w + k * fxLn2
      if v = 0 then none else some (decide (v < 0), fxMag (fxDiv v d) 0)

/-- Ulps within which a table function lies of its exact result (table Vector functions). -/
def tableUlps (fn : Nat) : Nat := if fn ≤ 0x19 then 1 else if fn ≤ 0x1D then 2 else 3

/-- The FP32 magnitudes within `n` units in the last place of `x`, as their first and last encoding. The bound is taken wider by
2^-20 of a unit, more than the error of the fixed-point value. -/
def nearEnc (x : Mag) (n : Nat) : Nat × Nat :=
  let q : Int := x.log2 - 23
  let v := (x.floorAt (40 - q)).1
  let d := n * 2 ^ 40 + 2 ^ 20
  ((roundF 4 3 false false (magOf (v - d) (q - 40)) 0).1, (roundF 4 1 false false (magOf (v + d) (q - 40)) 0).1)

/-- A table result near the exact one: `t` chooses among the encodings that the accuracy allows. None outside the domain of R124: an
exact result that is not finite and normal. -/
def tableNear (fn : Nat) (neg : Bool) (m : Nat) (e : Int) (t : Nat) : Option Nat :=
  match tableExact fn neg m e with
  | some (s, x) =>
    if x.num ≠ 0 ∧ -126 ≤ x.log2 ∧ x.log2 ≤ 127 then
      let r := nearEnc x (tableUlps fn)
      some (signBit (fmtInfo 4) s + (r.1 + t % (r.2 + 1 - r.1)))
    else none
  | none => none

/-- A table result as written: an infinite one is an overflow under SAT, a zero one an underflow but for the logarithms,
whose exact result may be zero. -/
def tableOut (fn : Nat) (sat : Bool) (t : Nat) : Nat × Cnt :=
  match decodeF 4 t with
  | .nan => (0x7FC00000, {})
  | .inf neg => (infOut 4 sat neg, { ovf := 1 })
  | .fin _ m _ => (t, if m = 0 && fn != 0x1B && fn != 0x1D then { unf := 1 } else {})

/-- The device function tables (R123, R124, table Special values in the vector unit): FN 0x18-0x20 of an FP32 word, on a
device of class `cl`. Within the domain of R124 the class's table chooses among the results its accuracy allows; outside it and
beyond the special values the result is the class's table (log entry 7). -/
def tableV (cl fn : Nat) (sat : Bool) (w : Nat) : Nat × Cnt :=
  let v := decodeF 4 w
  let t := Config.tableFn cl fn w
  let raw : Nat × Cnt := (if isNan (decodeF 4 (t % 2 ^ 32)) then 0x7FC00000 else t % 2 ^ 32, {})
  match v with
  | .nan => invalid
  | .inf neg =>
    match fn with
    | 0x18 => (signBit (fmtInfo 4) neg, {})
    | 0x19 => if neg then invalid else (0, {})
    | 0x1A => if neg then (0, {}) else (infF false, {})
    | 0x1B => if neg then invalid else raw
    | 0x1C => if neg then (0, {}) else (infF false, {})
    | 0x1D => if neg then invalid else raw
    | 0x1E => (if neg then 0xBF800000 else 0x3F800000, {})
    | 0x1F => (if neg then 0 else 0x3F800000, {})
    | _ => if neg then (0x80000000, {}) else (infF false, {})
  | .fin neg m e =>
    if m = 0 ∧ fn = 0x18 then (infF neg, {})
    else if m = 0 ∧ fn = 0x19 then (infF neg, {})
    else if m = 0 ∧ (fn = 0x1B ∨ fn = 0x1D) then (infF true, {})
    else if m = 0 ∧ fn = 0x20 then (w, {})
    else if neg && m != 0 && (fn == 0x19 || fn == 0x1B || fn == 0x1D) then invalid
    else match tableNear fn neg m e t with
      | some r => (r, {})
      | none => if m = 0 then raw else tableOut fn sat (t % 2 ^ 32)

end Sys2Proof.Machine
end

