-- ==== Sys2Proof/Machine/PanelMem.lean ====
section
/-! DEFINITION. Regions of panel memory and operand stores: reading rows and elements, writing with poison, packing into
entries and tufts (R101, R102, R189-R191, R203, R576). -/
namespace Sys2Proof.Machine

/-- Key of byte `a` of the operand store of cluster `cl`. -/
def osKey (cl a : Nat) : Nat := cl * 0x8000 + a

/-- A byte with its word's poison. -/
abbrev PByte := Byte × Bool

/-- The byte at key `k` of panel memory (space 0) or of the operand stores. -/
def Panel.byteOf (x : Panel) (sp k : Nat) : PByte :=
  if sp = 0 then (look 0 x.mem k, look false x.memPsn (k / 8)) else (look 0 x.os k, look false x.osPsn (k / 8))

/-- The cluster a source in space 1 lies in: the one set bit of CMASK (R200). -/
def firstBit (m : Nat) : Nat := ((List.range 16).find? (fun i => bit m i)).getD 0

/-- Key of a region's first byte in cluster `cl`. -/
def baseKey (d : Region) (cl : Nat) : Nat := if d.space = 0 then d.addr else osKey cl d.addr

/-- Bits of an element of a region. -/
def elBits (d : Region) (bm : Bool) : Nat := if bm then 1 else fmtBits d.fmt

/-- Row `r` of a region in cluster `cl`. -/
def Panel.rowAt (x : Panel) (d : Region) (bm : Bool) (cl r : Nat) : List PByte :=
  (List.range (rowBytes d bm)).map (fun j => x.byteOf d.space (baseKey d cl + r * d.rstride + j))

/-- The first `n` elements of `w` bits in a row of bytes; bits beyond them are ignored (R102, R190). -/
def elsOf (w n : Nat) (bs : List PByte) : List (Nat × Bool) :=
  if w < 8 then (List.range n).map (fun c =>
    let b := bs.getD (c * w / 8) (0, false)
    (bits b.1.toNat (c * w % 8) w, b.2))
  else (List.range n).map (fun c =>
    let cs := (bs.drop (c * (w / 8))).take (w / 8)
    (ofLE (cs.map (·.1)), cs.any (·.2)))

/-- Elements of `w` bits packed into bytes; bits beyond the last are 0 (R102, R190). -/
def packEls (w : Nat) (es : List (Nat × Bool)) : List PByte :=
  if w < 8 then (List.range (ceilDiv (es.length * w) 8)).map (fun i =>
    let c := (es.drop (i * (8 / w))).take (8 / w)
    (BitVec.ofNat 8 ((c.foldr (fun e a => e.1 % 2 ^ w + 2 ^ w * a) 0)), c.any (·.2)))
  else es.flatMap (fun e => (toLE (w / 8) e.1).map (fun b => (b, e.2)))

/-- The elements of a region in cluster `cl`, row by row. -/
def Panel.elems (x : Panel) (d : Region) (bm : Bool) (cl : Nat) : List (List (Nat × Bool)) :=
  (List.range d.rows).map (fun r => elsOf (elBits d bm) d.cols (x.rowAt d bm cl r))

/-- The elements of a source region. -/
def Panel.source (x : Panel) (d : Region) (bm : Bool) : List (List (Nat × Bool)) := x.elems d bm (firstBit d.cmask)

/-- Element (r, c) of rows of elements. -/
def at2 (l : List (List (Nat × Bool))) (r c : Nat) : Nat × Bool := (l.getD r []).getD c (0, false)

/-- Cluster and row at which row `r` of a destination is stored (R189, R200, R201). -/
def dstPlaces (d : Region) (r : Nat) : List (Nat × Nat) :=
  if d.space = 0 then [(0, r)]
  else if d.split then [((r % 32) / 2, 2 * (r / 32) + r % 2)]
  else ((List.range 16).filter (fun c => bit d.cmask c)).map (fun c => (c, r))

/-- The keys a destination's row `r` is stored at, of `n` bytes each. -/
def dstKeys (d : Region) (n r : Nat) : List Nat :=
  (dstPlaces d r).flatMap (fun p => (List.range n).map (fun j => baseKey d p.1 + p.2 * d.rstride + j))

/-- Every key of a region as a destination. -/
def regionKeys (d : Region) (bm : Bool) : List Nat := (List.range d.rows).flatMap (dstKeys d (rowBytes d bm))

/-- The byte writes of rows of packed bytes: key, byte, poison. -/
def writesOf (d : Region) (rows : List (List PByte)) : List (Nat × PByte) :=
  rows.zipIdx.flatMap (fun x => (dstPlaces d x.2).flatMap (fun p =>
    x.1.zipIdx.map (fun b => (baseKey d p.1 + p.2 * d.rstride + b.2, b.1))))

/-- The bytes of a memory after byte writes. -/
def pokes (m : SMap Byte) (ws : List (Nat × PByte)) : SMap Byte := ws.foldl (fun m w => put 0 m w.1 w.2.1) m

/-- The words that keys touch. -/
def wordsOf (ks : List Nat) : List Nat := (ks.map (· / 8)).eraseDups

/-- Do the writes fill word `w`? -/
def fills (ws : List (Nat × PByte)) (w : Nat) : Bool :=
  (List.range 8).all (fun b => ws.any (fun x => x.1 == 8 * w + b))

/-- The poison bits after byte writes: a whole word takes what it is given, a part adds to it (R576, log entry 24). -/
def poisonPokes (m : SMap Bool) (ws : List (Nat × PByte)) : SMap Bool :=
  (wordsOf (ws.map (·.1))).foldl (fun m w =>
    put false m w (ws.any (fun x => x.1 / 8 == w && x.2.2) || (!fills ws w && look false m w))) m

/-- Byte writes to panel memory or the operand stores. -/
def Panel.pokeAll (x : Panel) (sp : Nat) (ws : List (Nat × PByte)) : Panel :=
  if sp = 0 then
    { x with mem := pokes x.mem ws, memPsn := poisonPokes x.memPsn ws,
             memLate := (wordsOf (ws.map (·.1))).foldl (fun m w => if fills ws w then put false m w false else m) x.memLate }
  else { x with os := pokes x.os ws, osPsn := poisonPokes x.osPsn ws }

/-- Rows of packed bytes stored to a destination. -/
def Panel.store (x : Panel) (d : Region) (rows : List (List PByte)) : Panel := x.pokeAll d.space (writesOf d rows)

/-- Every word of the given keys poisoned; with `late`, by a late step (R160, R161, R220). -/
def Panel.poisonKeys (x : Panel) (sp : Nat) (ks : List Nat) (late : Bool) : Panel :=
  let ws := wordsOf ks
  let p (m : SMap Bool) : SMap Bool := ws.foldl (fun m w => put false m w true) m
  if sp = 0 then { x with memPsn := p x.memPsn, memLate := if late then p x.memLate else x.memLate }
  else { x with osPsn := p x.osPsn }

/-! Packing into entries and tufts (R191, R203). Elements are packed one after another, without row gaps (log entry 22). -/

/-- Rows of elements from a flat list. -/
def unflat (d : Region) (es : List (Nat × Bool)) : List (List (Nat × Bool)) :=
  (List.range d.rows).map (fun r => (es.drop (r * d.cols)).take d.cols)

/-- A region's elements as rows of packed bytes. -/
def packRows (w : Nat) (rows : List (List (Nat × Bool))) : List (List PByte) := rows.map (packEls w)

/-- Elements of a tuft or entry: five FUL384 elements in a tuft, else 256 bytes of elements (R116, R203). -/
def perTuft (d : Region) : Nat := if d.fmt = 9 then 5 else 2048 / fmtBits d.fmt

/-- Tufts of a binding's region. -/
def tuftsOf (d : Region) : Nat := ceilDiv (d.rows * d.cols) (perTuft d)

/-- Bytes cut into pieces of 256, the last padded with zeros (R191). -/
def chop256 (bs : List PByte) : Nat → List (List PByte)
  | 0 => []
  | n + 1 => (bs.take 256 ++ List.replicate (256 - bs.length) (0, false)) :: chop256 (bs.drop 256) n

/-- The payload of tuft `k` of a region in panel memory, and whether it is poisoned and late (R161, R203). -/
def Panel.tuftOf (x : Panel) (d : Region) (k : Nat) : List Byte × Bool × Bool :=
  let n := perTuft d
  let es := (((x.elems d false 0).flatten).drop (k * n)).take n
  let ks := tuftKeys d k
  let psn := ks.any (fun a => look false x.memPsn (a / 8))
  let bs := packEls (fmtBits d.fmt) es
  (bs.map (·.1) ++ List.replicate (256 - bs.length) 0, psn,
    psn && ks.any (fun a => look false x.memPsn (a / 8) && look false x.memLate (a / 8)))
where
  /-- The keys of the elements of tuft `k`. -/
  tuftKeys (d : Region) (k : Nat) : List Nat :=
    let n := perTuft d
    let m := min n (d.rows * d.cols - k * n)
    (List.range m).flatMap (fun j =>
      let i := k * n + j
      let r := i / d.cols
      let c := i % d.cols
      let w := fmtBits d.fmt
      (List.range (max 1 (w / 8))).map (fun b => d.addr + r * d.rstride + c * w / 8 + b))

/-- Keys of the elements of tuft `k` of a region in panel memory. -/
def tuftKeys (d : Region) (k : Nat) : List Nat := Panel.tuftOf.tuftKeys d k

/-- Tuft `k` of a receive binding written to its region position (R206, R576). -/
def Panel.takeTuft (x : Panel) (d : Region) (k : Nat) (payload : List Byte) (psn : Bool) : Panel :=
  let n := perTuft d
  let w := fmtBits d.fmt
  let m := min n (d.rows * d.cols - k * n)
  let es := elsOf w m (((payload ++ List.replicate 256 0).take 256).map (fun b => (b, psn)))
  if w < 8 then
    es.zipIdx.foldl (fun x e =>
      let i := k * n + e.2
      let r := i / d.cols
      let c := i % d.cols
      let a := d.addr + r * d.rstride + c * w / 8
      let old := (look 0 x.mem a).toNat
      let sh := c * w % 8
      let hi := if c + 1 = d.cols then 0 else old / 2 ^ (sh + w)
      let v := old % 2 ^ sh + e.1.1 % 2 ^ w * 2 ^ sh + hi * 2 ^ (sh + w)
      { x with mem := put 0 x.mem a (BitVec.ofNat 8 v), memPsn := put false x.memPsn (a / 8) (look false x.memPsn (a / 8) || psn) }) x
  else
    x.pokeAll 0 (es.zipIdx.flatMap (fun e =>
      let i := k * n + e.2
      let a := d.addr + i / d.cols * d.rstride + i % d.cols * (w / 8)
      (toLE (w / 8) e.1.1).zipIdx.map (fun b => (a + b.2, (b.1, psn)))))

end Sys2Proof.Machine
end

