-- ==== Sys2Proof/Machine/PanelOps.lean ====
section
/-! DEFINITION. What each step-list operation computes on one panel (R193-R200, R208, R209, R576-R582). -/
namespace Sys2Proof.Machine

/-- What an operation did: the panel after it, counted arithmetic events, whether a fuller with OVF was met, multiply-
accumulates, pounce sums skipped, and whether a pounce check failed. -/
structure OpRes where
  x    : Panel
  cnt  : Cnt := {}
  ovf  : Bool := false
  mac  : Nat := 0
  skip : Nat := 0
  fail : Bool := false
  deriving DecidableEq, Repr

def Panel.lane (x : Panel) (i : Nat) : Lane := x.lanes.getD i {}

/-- The flags of a lane's fuller where its value is used: the range is tested on the exact sum (R109). -/
def Lane.useFlags (l : Lane) : Nat := l.flags ||| (if outside 80 l.v then 8 else 0)

/-- What one lane adds to its row and column sums: the exact sum and magnitudes scaled by 2^160, and whether a special
value is among the terms (R577, R579). -/
structure LaneTerm where
  lane : Lane
  cnt  : Cnt := {}
  sum  : Int := 0
  mag  : Int := 0
  spec : Bool := false
  deriving DecidableEq, Repr

/-- A value as a term of the exact sums of R577. -/
def chkTerm (v : FV) : Int × Int × Bool :=
  match v with
  | .fin _ _ _ => ((termOf v 160).v, (termOf v 160).v.natAbs, false)
  | _ => (0, 0, true)

/-- Fuller products of a lane (R108, R109, R114). Both infinities leave NAN as it is (log entry 138). -/
def macFuller (fa fb : Nat) (l : Lane) (a b : List (Nat × Bool)) : LaneTerm :=
  let ps := (a.zip b).map (fun e => product (elemVal fa e.1.1) (elemVal fb e.2.1) 32)
  let sum := ps.foldl (fun t p => t + p.1.v) 0
  let n := l.prods + ps.length
  { lane := { l with v := l.v + sum, prods := n,
                     flags := (ps.foldl (fun t p => t ||| p.1.flags) l.flags) ||| (if 32768 < n then 8 else 0),
                     poison := l.poison || a.any (·.2) || b.any (·.2) },
    cnt := { inv := ps.foldl (fun t p => t + p.2) 0 }, sum := sum * 2 ^ 128, spec := ps.any (fun p => p.1.flags != 0) }

/-- FP32 accumulation of a lane (R120, R121). Each product counts its own events; the additions of the reduction form one element result
(R776). -/
def macFp (fa fb : Nat) (l : Lane) (a b : List (Nat × Bool)) : LaneTerm :=
  let ps := (a.zip b).map (fun e => mulV 0 false (decodeF fa e.1.1) (decodeF fb e.2.1) 0)
  let ws := ps.map (·.1)
  let r := reduce121 l.f ws (ceilDiv ws.length 16)
  let ts := ws.map (fun w => chkTerm (decodeF 4 w))
  { lane := { l with f := r.1, prods := l.prods + ps.length, poison := l.poison || a.any (·.2) || b.any (·.2) },
    cnt := ps.foldl (fun c p => c.add p.2) r.2.once, sum := ts.foldl (fun t p => t + p.1) 0,
    mag := ts.foldl (fun t p => t + p.2.1) 0, spec := ts.any (·.2.2) }

/-- A checksum with the terms of the lanes of its row or column. -/
def Chk.addAll (c : Chk) (ts : List LaneTerm) (d p : Nat) : Chk :=
  { sum := ts.foldl (fun a t => a + t.sum) c.sum, mag := ts.foldl (fun a t => a + t.mag) c.mag,
    d := c.d + d, p := c.p + p, skip := c.skip || ts.any (·.spec) }

/-- The lanes after an operation that gave every lane a term: lanes and the checksums of every row and column; lane
(m, n) has index 32m + n (R193, R577). An upset of the surroundings reaches the lanes and not the checksums. -/
def Panel.setLanes (x : Panel) (kind : LaneKind) (ts : List LaneTerm) (d p : Nat) (upset : List (Nat × Int)) : Panel :=
  let row (m : Nat) : List LaneTerm := (ts.drop (32 * m)).take 32
  let col (n : Nat) : List LaneTerm := (List.range 32).map (fun m => ts.getD (32 * m + n) { lane := {} })
  let hit (i : Nat) (l : Lane) : Lane :=
    match upset.find? (fun u => u.1 == i) with
    | some u => { l with v := l.v + u.2, f := ofSint 32 ((l.f : Int) + u.2) }
    | none => l
  { x with kind := kind, written := true,
           lanes := ts.zipIdx.map (fun t => hit t.2 t.1.lane),
           rows := (List.range 32).map (fun m => (x.rows.getD m {}).addAll (row m) d p),
           colsum := (List.range 32).map (fun n => (x.colsum.getD n {}).addAll (col n) d p) }

/-- Lanes and checksums cleared (R187, R194, R196). -/
def Panel.clearLanes (x : Panel) : Panel := { x with lanes := [], rows := [], colsum := [] }

/-- TILE (R193, R194). `rd` is the panel as the operation reads it. -/
def tileOp (rd x : Panel) (o : POp) (f : OpFacts) : OpRes :=
  let a := o.desc 0
  let b := o.desc 1
  let x := if o.accf = 0 then x.clearLanes else x
  let kind := (pairKind o.fmta o.fmtb).getD .fuller
  let rowsA := (List.range 16).map (fun c => rd.elems a false c)
  let rowsB := (List.range 16).map (fun c => rd.elems b false c)
  let ts := (List.range 32).flatMap (fun m => (List.range 32).map (fun n =>
    let ra := (rowsA.getD (m / 2) []).getD (m % 2) []
    let rb := (rowsB.getD (m / 2) []).getD n []
    if kind = .fuller then macFuller o.fmta o.fmtb (x.lane (32 * m + n)) ra rb
    else macFp o.fmta o.fmtb (x.lane (32 * m + n)) ra rb))
  { x := x.setLanes kind ts (if kind = .fp then 4 + ceilDiv a.cols 16 else 0) (if kind = .fp then 32 * a.cols else 0) f.upset,
    cnt := ts.foldl (fun c t => c.add t.cnt) {}, mac := 1024 * a.cols }

/-- Does an element hold a fuller with OVF set (R115, R119)? -/
def ovfEl (fmt v : Nat) : Bool := if fmt = 8 then bit v 83 else if fmt = 9 then bit v 379 else false

/-- A value widened to an FP32 word (R195, R199). -/
def widen (fmt v : Nat) : Nat := (toFloat 4 0 false (decodeF fmt v) 0).1

/-- LLOAD (R195). A fuller read with OVF set poisons its lane (R119). -/
def lloadOp (rd x : Panel) (o : POp) (f : OpFacts) : OpRes :=
  let d := o.desc 0
  let es := rd.source d false
  let ts := (List.range 1024).map (fun i =>
    let e := at2 es (i / 32) (i % 32)
    if o.kindf = 0 then
      let l : Ful := if d.fmt = 8 then ful80 e.1 else termOf (elemVal d.fmt e.1) 32
      { lane := { v := l.v, flags := l.flags, poison := e.2 || ovfEl d.fmt e.1 }, sum := l.v * 2 ^ 128, spec := l.flags != 0 }
    else
      let w := widen d.fmt e.1
      let t := chkTerm (decodeF 4 w)
      { lane := { f := w, poison := e.2 }, sum := t.1, mag := t.2.1, spec := t.2.2 : LaneTerm })
  { x := x.clearLanes.setLanes (if o.kindf = 0 then .fuller else .fp) ts 0 0 f.upset,
    ovf := (List.range 1024).any (fun i => ovfEl d.fmt (at2 es (i / 32) (i % 32)).1) }

/-- The random word of an output element, 0 where the operation draws none (R127, R192). -/
def wordFor (seed : Nat) (o : POp) (r c : Nat) : Nat :=
  if o.hasRand then drawWord seed o.rand.1 o.rand.2.1 (o.elemIdx r c) else 0

/-- A lane as LSTORE writes it: bits, counts, whether a fuller's OVF shows (R117, R119, R196). -/
def laneOut (kind : LaneKind) (l : Lane) (fmt rnd : Nat) (sat : Bool) (w : Nat) : Nat × Cnt × Bool :=
  if kind = .fuller then
    let u : Ful := { v := l.v, flags := l.useFlags }
    let r : Nat × Cnt := if fmt = 8 then (ful80Out u, {}) else if fmt = 9 then (ful384Out (widenFul u), {})
      else readOut u 32 fmt rnd sat w
    (r.1, r.2, bit u.flags 3)
  else
    let r : Nat × Cnt := if fmt = 9 then (ful384Out (termOf (decodeF 4 l.f) 160), {}) else toFmt fmt rnd sat (decodeF 4 l.f) w
    (r.1, r.2, false)

/-- LSTORE (R196). `all` poisons every output. -/
def lstoreOp (x : Panel) (o : POp) (seed : Nat) : OpRes :=
  let d := o.desc 0
  let rs := (List.range 32).map (fun m => (List.range 32).map (fun n =>
    let l := x.lane (32 * m + n)
    let r := laneOut x.kind l d.fmt o.rnd o.sat (wordFor seed o m n)
    ((r.1, l.poison || r.2.2), r.2.1, r.2.2)))
  { x := { (x.store d (packRows (fmtBits d.fmt) (rs.map (fun r => r.map (·.1))))).clearLanes with written := false },
    cnt := rs.flatten.foldl (fun c r => c.add r.2.1) {}, ovf := rs.flatten.any (·.2.2) }

/-- One sum of a pounce check: skipped, or whether it passes (R578, R579). -/
def chkSum (kind : LaneKind) (ls : List Lane) (c : Chk) : Option Bool :=
  if kind = .fuller then
    if c.skip || ls.any (fun l => l.useFlags != 0) then none
    else some (decide (ls.foldl (fun a l => a + l.v * 2 ^ 128) 0 = c.sum))
  else
    let ts := ls.map (fun l => chkTerm (decodeF 4 l.f))
    if c.skip || ts.any (·.2.2) then none
    else
      let total : Int := ts.foldl (fun (a : Int) t => a + t.1) 0
      let diff : Nat := (total - c.sum).natAbs
      some (decide (diff * (2 ^ 23 : Nat) ≤ c.d * c.mag.toNat + (c.d + c.p) * (2 ^ 39 : Nat)))

/-- PCHECK (R197, R577-R579). -/
def pcheckOp (x : Panel) : OpRes :=
  let row (m : Nat) : List Lane := (List.range 32).map (fun n => x.lane (32 * m + n))
  let col (n : Nat) : List Lane := (List.range 32).map (fun m => x.lane (32 * m + n))
  let rs := (List.range 32).map (fun m => chkSum x.kind (row m) (x.rows.getD m {}))
    ++ (List.range 32).map (fun n => chkSum x.kind (col n) (x.colsum.getD n {}))
  let fail := rs.any (fun r => r == some false)
  let ls := (List.range 1024).map (fun i =>
    let l := x.lane i
    { l with flags := if x.kind = .fuller then l.useFlags else l.flags, poison := l.poison || fail })
  { x := { x with lanes := ls, written := false }, skip := (rs.filter (fun r => r.isNone)).length, fail := fail }

/-! Element functions of VEC, FOLD and RFILL: value, counts, fuller OVF. -/

/-- A source element as the 32-bit word of its function: an FP32 word or a sign-extended INT32 word (R199). -/
def srcWord (fmt v : Nat) : Nat := if isFloat fmt then widen fmt v else ofSint 32 (sint (intBits fmt) v)

/-- One result of VEC, the reductions apart (R123, R199). -/
def vecEl (cl : Nat) (o : POp) (w : Nat) (e : List (Nat × Bool)) : Nat × Cnt × Bool :=
  let v (k : Nat) : Nat := (e.getD k (0, false)).1
  let fm (k : Nat) : Nat := (o.desc (k + 1)).fmt
  let fn := o.fn
  if isCmp fn then
    let f := isFloat (fm 0)
    let a : FV := if f then decodeF (fm 0) (v 0) else elemVal (fm 0) (v 0)
    let b : FV := if f then decodeF (fm 1) (v 1) else elemVal (fm 1) (v 1)
    (b2n (cmpFn fn (isNan a || isNan b) (cmpV false a b)), {}, false)
  else if fn = 0x16 then
    let r := if v 2 = 1 then v 0 else v 1
    (if isFloat (fm 0) && isNan (decodeF (fm 0) r) then (fmtInfo (fm 0)).nan else r, {}, ovfEl (fm 0) r)
  else if fn = 0x17 then
    let df := (o.desc 0).fmt
    if fm 0 = 8 then
      let r := readOut (ful80 (v 0)) 32 df o.rnd o.sat w
      (r.1, r.2, bit (ful80 (v 0)).flags 3)
    else if fm 0 = 9 then
      let r := readOut (ful384 (v 0)) 160 df o.rnd o.sat w
      (r.1, r.2, bit (ful384 (v 0)).flags 3)
    else
      let r := toFmt df o.rnd o.sat (elemVal (fm 0) (v 0)) w
      (r.1, r.2, false)
  else if isTable fn then
    let r := tableV cl fn o.sat (srcWord (fm 0) (v 0))
    (r.1, r.2, false)
  else if isIntFn fn then (intFn fn (srcWord (fm 0) (v 0)) (srcWord (fm 1) (v 1)), {}, false)
  else
    let b := if fn = 0x0B then v 1 / 2 ^ (fmtBits (fm 1) - 1) % 2 * 2 ^ 31 else srcWord (fm 1) (v 1)
    let r := floatFn fn o.rnd o.sat (srcWord (fm 0) (v 0)) b (srcWord (fm 2) (v 2)) w
    (r.1, r.2, false)

/-- One reduction of a row (R123, R199). -/
def reduceRow (o : POp) (w : Nat) (row : List (Nat × Bool)) : Nat × Cnt × Bool :=
  let f := (o.desc 1).fmt
  let ws := row.map (fun e => widen f e.1)
  if o.fn = 0x38 then
    let t := ws.foldl (fun a x => fulAdd 376 a (termOf (decodeF 4 x) 160)) {}
    let r := readOut t 160 4 o.rnd o.sat w
    (r.1, if bit t.flags 0 then { r.2 with inv := 1 } else r.2, false)
  else (match ws with
    | [] => 0
    | x :: xs => if isNan (decodeF 4 x) then xs.foldl (minmax (o.fn == 0x39)) 0x7FC00000 else xs.foldl (minmax (o.fn == 0x39)) x,
    {}, false)

/-- One result of FOLD (R208). -/
def foldEl (o : POp) (w : Nat) (e : List (Nat × Bool)) : Nat × Cnt × Bool :=
  let a := (e.getD 0 (0, false)).1
  let b := (e.getD 1 (0, false)).1
  match o.mode with
  | 0 =>
    let r := addQuiet a b
    (r.1, r.2, false)
  | 1 =>
    let f := (o.desc 1).fmt
    let t : Ful := if f = 8 then widenFul (ful80 a) else termOf (elemVal f a) 160
    (ful384Out t, {}, bit t.flags 3)
  | 2 =>
    let t := fulAdd 376 (ful384 a) (ful384 b)
    (ful384Out t, {}, bit t.flags 3)
  | _ =>
    let r := readOut (ful384 a) 160 (o.desc 0).fmt o.rnd o.sat w
    (r.1, r.2, bit (ful384 a).flags 3)

/-- One draw of RFILL (R130, R209). -/
def rfillEl (o : POp) (w : Nat) : Nat :=
  match o.mode with
  | 0 => w
  | 1 => (toFloat 4 0 false (.fin false (w / 256) (-24)) 0).1
  | _ => b2n (decide (w < o.p32))

/-- The source elements an output depends on: of SEL the chosen one and the mask bit. -/
def depends (o : POp) (e : List (Nat × Bool)) : Bool :=
  if o.op = 0x08 ∧ o.fn = 0x16 then
    let m := e.getD 2 (0, false)
    m.2 || (if m.1 = 1 then (e.getD 0 (0, false)).2 else (e.getD 1 (0, false)).2)
  else e.any (·.2)

/-- VEC, FOLD or RFILL: every element of the destination (R199, R208, R209). With `bad` every output is poisoned (R582). -/
def elemOp (rd x : Panel) (o : POp) (cl seed : Nat) (bad : Bool) : OpRes :=
  let d := o.desc 0
  let srcs := (List.range (o.nDesc - 1)).map (fun k => rd.source (o.desc (k + 1)) (o.isBitmap (k + 1)))
  let el (r c : Nat) : (Nat × Bool) × Cnt × Bool :=
    let w := wordFor seed o r c
    if o.op = 0x08 ∧ isReduce o.fn then
      let row := (srcs.getD 0 []).getD r []
      let t := reduceRow o w row
      ((t.1, bad || t.2.2 || row.any (·.2)), t.2.1, t.2.2)
    else
      let e := srcs.map (fun s => at2 s r c)
      let t : Nat × Cnt × Bool := if o.op = 0x08 then vecEl cl o w e else if o.op = 0x20 then foldEl o w e else (rfillEl o w, {}, false)
      ((t.1, bad || t.2.2 || depends o e), t.2.1, t.2.2)
  let rs := (List.range d.rows).map (fun r => (List.range d.cols).map (el r))
  { x := x.store d (packRows (elBits d (o.isBitmap 0)) (rs.map (fun r => r.map (·.1)))),
    cnt := rs.flatten.foldl (fun c r => c.add r.2.1) {}, ovf := rs.flatten.any (·.2.2) }

/-- The elements that a MOVE copies; a fuller read with OVF set is poisoned (R119). -/
def moveEls (fmt : Nat) (rows : List (List (Nat × Bool))) : List (List (Nat × Bool)) :=
  rows.map (fun r => r.map (fun e => (e.1, e.2 || ovfEl fmt e.1)))

/-- Does a MOVE copy a fuller with OVF set (R119)? -/
def moveOvf (fmt : Nat) (rows : List (List (Nat × Bool))) : Bool := rows.any (fun r => r.any (fun e => ovfEl fmt e.1))

/-- MOVE between panel memory and operand stores (R200, R201). -/
def moveOp (rd x : Panel) (o : POp) : OpRes :=
  let b := o.desc 1
  let rows := rd.source b false
  { x := x.store (o.desc 0) (packRows (fmtBits b.fmt) (moveEls b.fmt rows)), ovf := moveOvf b.fmt rows }

/-- The entries a MOVE sends on a seam (R191). -/
def seamOut (rd : Panel) (o : POp) : List (List PByte) :=
  let b := o.desc 1
  let bs := packEls (fmtBits b.fmt) (moveEls b.fmt (rd.source b false)).flatten
  chop256 bs (ceilDiv bs.length 256)

/-- Entries a region takes from a seam. -/
def seamNeed (d : Region) : Nat := ceilDiv (ceilDiv (d.rows * d.cols * fmtBits d.fmt) 8) 256

/-- MOVE from a seam: the entries become the destination's elements (R191). -/
def seamIn (x : Panel) (o : POp) (es : List (List PByte)) : OpRes :=
  let d := o.desc 0
  let rows := unflat d (elsOf (fmtBits d.fmt) (d.rows * d.cols) es.flatten)
  { x := x.store d (packRows (fmtBits d.fmt) (moveEls d.fmt rows)), ovf := moveOvf d.fmt rows }

end Sys2Proof.Machine
end

