-- ==== Sys2Proof/Machine/Panels.lean ====
section
/-! DEFINITION. Panel controllers: issue records, step windows, deadlines, decode checks, bindings and seams (R142-R187,
R202-R221, R576-R582). -/
namespace Sys2Proof.Machine

/-- Physical window of logical column `c` of row `r` of die `d` (R95). -/
def State.physWin (s : State) (d r c : Nat) : Nat :=
  136 * d + 17 * r + (if c < s.get .MEM_REMAP_FAILCOL (8 * d + r) then c else c + 1)

/-- Physical window of a logical panel id (R94, R95). -/
def State.winOfLog (s : State) (l : Nat) : Nat := s.physWin (l / 128) (l / 16 % 8) (l % 16)

/-- The logical neighbour to the north 0, south 1, east 2 or west 3 on the same die (R164, R283). -/
def neighbour (l dirn : Nat) : Option Nat :=
  let r := l / 16 % 8
  let c := l % 16
  match dirn with
  | 0 => if 0 < r then some (l - 16) else none
  | 1 => if r < 7 then some (l + 16) else none
  | 2 => if c < 15 then some (l + 1) else none
  | _ => if 0 < c then some (l - 1) else none

/-- The direction opposite to one. -/
def opposite (dirn : Nat) : Nat := match dirn with | 0 => 1 | 1 => 0 | 2 => 3 | _ => 2

/-- What the decode checks of panel `p` are made against. -/
def State.chkEnv (s : State) (p : Nat) : ChkEnv :=
  let x := s.panel p
  { slr := 4096 * s.get .PNL_SL_CFG_SLR p,
    seam := fun sp => match neighbour x.logical (sp - 2) with
      | some l => (s.panel (s.winOfLog l)).part == x.part
      | none => false }

/-- First settle slot of a window (R153, R160). -/
def dueSlot (r : IssueRec) : Nat := r.start + r.len - r.settle

/-- A fault of panel `p` (R217, R468). -/
def pnlMsg (p q code step layer oper : Nat) : FaultMsg :=
  { part := q, code := code, panel := idOf p, step := some step, layer := layer, oper := oper, srck := 0 }

/-- A panel reports a fault: the identifiers, the event when one is due, the FAULT packet (R217, R225, R468). -/
def State.pnlReport (s : State) (p : Nat) (f : FaultMsg × Nat × Bool) : State :=
  let s := (s.set .PNL_SL_ERRID_LAYER f.1.layer p).set .PNL_SL_ERRID_OPER f.1.oper p
  if f.2.2 then s.raiseFault f.1 f.2.1 else s.sendFault f.1

/-- The last slots of step `n` of partition `q` have come: the 8 settle slots that every step window has at least (R153, log entry
23). -/
def State.stepEnding (s : State) (q n : Nat) : Bool := s.reached q (s.boundary q (n + 1) - 8)

/-- A report made at the end of a step: a panel's, or that of a node without one. -/
def State.reportEnd (s : State) (e : Option Nat × FaultMsg × Nat × Bool) : State :=
  match e.1 with
  | some p => s.pnlReport p e.2
  | none => if e.2.2.2 then s.raiseFault e.2.1 e.2.2.1 else s.sendFault e.2.1

/-- A report waits for the end of its step; in the last slots of the step it is made at once. -/
def State.endPend (s : State) (q : Nat) (e : Option Nat × FaultMsg × Nat × Bool) : State :=
  if s.stepEnding q (e.2.1.step.getD 0) then s.reportEnd e else s.setPart q { s.part q with ends := (s.part q).ends ++ [e] }

/-- A fault waits for the settle slots of the window in progress; outside one, for the end of the step (R217, R245, log entry 23). -/
def State.pnlPend (s : State) (p : Nat) (f : FaultMsg × Nat × Bool) : State :=
  let x := s.panel p
  if x.st = .idle then s.endPend f.1.part (some p, f) else s.setPanel p { x with faults := x.faults ++ [f] }

/-- A fault whose DETAIL is laid out as that of 0x2001. -/
def State.pnlFault (s : State) (p q code step layer oper : Nat) : State :=
  let f := pnlMsg p q code step layer oper
  s.pnlPend p (f, FaultMsg.detail f, true)

/-- The panel is fenced (R297). -/
def State.fence (s : State) (p : Nat) : State := s.set .PNL_HOOD_FENCED 1 p

/-- A corrected ECC error is counted and recorded (R96, R585). -/
def State.pnlCe (s : State) (p q step n : Nat) : State :=
  (List.range n).foldl (fun s _ =>
    (s.inc .CHK_CE_CNT_COUNT q).raiseEv { code := 0x200A, part := some q, skind := 0, sindex := idOf p, detail := step }) s

/-! Issue records. -/

/-- An issue record from its 16 bytes (R179). -/
def parseIssue (w : Nat) : IssueRec :=
  { step := bits w 0 32, dir := bits w 32 10, settle := bits w 48 8, start := bits w 64 32, len := bits w 96 24 }

/-- Reads panel memory. -/
def Panel.read (x : Panel) (a n : Nat) : List Byte := readBytes x.mem a n

/-- The rejection code of an issue record, 0 when it is accepted; `start` is START extended (R181). -/
def State.issueCode (s : State) (p q : Nat) (r : IssueRec) (start : Int) : Nat :=
  let x := s.panel p
  if s.slotsAhead q start < 64 then 36
  else if s.get .PNL_SL_CFG_DIRN p ≤ r.dir then 32
  else if r.settle < 8 then 33
  else if r.len < r.settle + (dirEntry x.read r.dir).2.2 then 34
  else if (match x.prev with
    | some v => decide (start < (v.start + v.len : Nat)) || decide (r.step ≤ v.step)
    | none => false) then 35
  else if s.is .PNL_SL_STAT_LASTSEEN p then 37
  else if 4 ≤ x.queue.length then 38
  else 0

/-- The window in progress, its settle slots included (R153, R182). -/
def State.winNow (s : State) (q : Nat) (x : Panel) : Option IssueRec :=
  x.win.filter (fun r => !s.reached q (r.start + r.len))

/-- A record reaches panel `p` (R179-R182, R219, R781). -/
def State.issueTo (s : State) (p w : Nat) : State :=
  let x := s.panel p
  match x.part with
  | some q =>
    if x.gated = false ∧ s.runSt q = 3 ∧ (s.part q).haltedAt.isNone then
      let r := parseIssue w
      let st := s.extend q r.start
      let r' := { r with start := st.toNat }
      let c := s.issueCode p q r st
      if c = 0 then
        (s.setPanel p { x with queue := x.queue ++ [r'], prev := some r' }).set .PNL_SL_STAT_QUEUED (x.queue.length + 1) p
      else
        let host : IssueRec := if c = 38 then (s.winNow q x).getD (x.queue.headD r') else r'
        (s.setPanel p { x with bads := x.bads ++ [(dueSlot host, host.step, c)] }).set .PNL_SL_STAT_ERR c p
    else s
  | none => s

/-- ISSUE_RECORD (R181). -/
def execIssueRecord (p w : Nat) (s : State) : Host.Outcome State Fault Refusal := .next (s.issueTo p w)

/-- The granule of a logical panel (R601). -/
def granOf (l : Nat) : Nat := 16 * (l / 128) + 2 * (l / 16 % 8) + l % 16 / 8

/-- Does partition `q` hold granule `g` (R603, R637)? -/
def State.holdsGran (s : State) (q g : Nat) : Bool := s.getBit .PRT_GRAN_GRAN (g % 32) (4 * q + g / 32)

/-- The partition that holds a granule. -/
def State.granOwner (s : State) (g : Nat) : Option Nat := (List.range 128).find? (fun q => s.holdsGran q g)

/-- Logical panels an ISSUE packet selects on die `d`. -/
def selected (d rows cols : Nat) : List Nat :=
  (List.range 8).flatMap (fun r => (List.range 16).filterMap (fun c =>
    if bit rows r && bit cols c then some (128 * d + 16 * r + c) else none))

/-- ISSUE_PACKET (R460, R466, R477): the gateway of die `d` delivers the record to the selected active panels, or drops
the packet with status 5. -/
def execIssuePacket (d : Nat) (pk : Packet) (s : State) : Host.Outcome State Fault Refusal :=
  let s := s.takeEj d false (fun p => p == pk)
  match pk.payload with
  | .issue w _ rows cols =>
    let ls := selected d rows cols
    let others := ls.any (fun l => match s.granOwner (granOf l) with
      | some q => q != pk.part
      | none => false)
    if others then .next (s.noteDrop d 5 1 pk.src)
    else .next (ls.foldl (fun s l => s.issueTo (s.winOfLog l) w) s)
  | _ => .next s

/-! Pace (R145-R149). -/

/-- PACE_TARGET_WRITE (R145, R148, R149). While nothing runs on the die, APPLIED shows a TARGET below 64 or above 288 as it acts
(log entry 134). -/
def State.paceWrite (s : State) (who d v : Nat) : State :=
  if privileged who && decide (d < 8) then
    let s := s.set .PWR_PACE_CTRL_TARGET v d
    if s.dieRuns d then s else s.set .PWR_PACE_CTRL_APPLIED (actTarget (s.get .PWR_PACE_CTRL_TARGET d)) d
  else s

def execPaceTargetWrite (who d v : Nat) (s : State) : Host.Outcome State Fault Refusal := .next (s.paceWrite who d v)

/-! Windows. -/

/-- Step `n` of partition `q` may start: the run is in progress and neither stopped nor halted before it (R535, R681). A thermal
trip stops every pace generator (R736). -/
def State.mayStart (s : State) (q n : Nat) : Bool :=
  s.runSt q == 3 && (s.part q).haltedAt.isNone && !s.boot.tripped
    && !(decide (2 ≤ s.get .DBG_HALT_STATE q) && decide (s.get .DBG_HSTEP_STEP q ≤ n))

/-- STEP_WINDOW_START (R148, R149, R155, R183, R187, R696): in the window's first tally slot. -/
def execStepWindowStart (p : Nat) (s : State) : Host.Outcome State Fault Refusal :=
  let x := s.panel p
  match x.part, x.queue with
  | some q, r :: rest =>
    if x.st = .idle ∧ s.mayStart q r.step ∧ s.reached q r.start ∧ s.slotTally q r.start = s.tally then
      let s := s.setPanel p { x.clearLanes with
        kind := .unset, written := false, win := some r, queue := rest, st := .running, vcyc := 0, stretch := 0, holds := 0,
        seamPos := 0, seamGot := [], lastOp := (0xFFFF, 0xFFFF) }
      let s := (((s.set .PNL_SL_STEP_STEP r.step p).set .PNL_SL_POS_WORD 0 p).set .PNL_SL_POS_DIR r.dir p)
      let s := (s.set .PNL_SL_STAT_ACTIVE 1 p).set .PNL_SL_STAT_QUEUED rest.length p
      let d := dieOf p
      let s := s.set .PWR_PACE_CTRL_APPLIED (max (actTarget (s.get .PWR_PACE_CTRL_TARGET d)) (s.get .PWR_PACE_FLOOR_FLOOR)) d
      .next (s.takeWatchMask q)
    else .next s
  | _, _ => .next s

/-! Operations. -/

/-- Descriptors an operation reads, and the one it writes (R777). Watch regions are apart. -/
def POp.srcs (o : POp) : List Nat :=
  match o.op with
  | 0x01 => [0, 1] | 0x02 => [0] | 0x08 => (List.range (fnArity o.fn)).map (· + 1) | 0x10 => [1]
  | 0x20 => (List.range (o.nDesc - 1)).map (· + 1) | _ => []
def POp.dst (o : POp) : Option Nat :=
  match o.op with
  | 0x03 => some 0 | 0x08 => some 0 | 0x10 => some 0 | 0x20 => some 0 | 0x28 => some 0 | _ => none

/-- The words an operation reads carry poison (R576). -/
def Panel.consumes (x : Panel) (o : POp) : Bool :=
  o.srcs.any (fun i =>
    let d := o.desc i
    d.space < 2 && (regionKeys d (o.isBitmap i)).any (fun k => (x.byteOf d.space k).2))

/-- Byte spans of a region in panel memory: first byte and length of each row, from element `e0` on. -/
def spans (d : Region) (bm : Bool) (e0 : Nat) : List (Nat × Nat) :=
  (List.range d.rows).filterMap (fun r =>
    if (r + 1) * d.cols ≤ e0 then none
    else
      let c0 := e0 - r * d.cols
      let o := c0 * elBits d bm / 8
      some (d.addr + r * d.rstride + o, rowBytes d bm - o))

/-- Do two sets of spans share a byte? -/
def meets (a b : List (Nat × Nat)) : Bool :=
  a.any (fun x => b.any (fun y => decide (x.1 < y.1 + y.2) && decide (y.1 < x.1 + x.2)))

/-- The watch a MARK copies to, when its bit is set and the image declares it (R213, R696, log entry 137). -/
def State.watchDecl (s : State) (q : Nat) (o : POp) : Option ImgWatch :=
  if o.wen && s.getBit .DBG_WMASK_MASK o.watchN q then (s.image q).img.watches.find? (fun v => v.num == o.watchN) else none

/-- The watch buffer that a MARK writes: the buffer of its watch when it is free (R697). -/
def State.watchBuf (s : State) (q : Nat) (x : Panel) (o : POp) : Option ImgWatch :=
  if (look? x.dumps o.watchN).isNone then s.watchDecl q o else none

/-- Bytes that a MARK copies into its watch buffer. -/
def markLen (o : POp) (v : ImgWatch) : Nat :=
  min v.size (ceilDiv ((o.desc 0).rows * (o.desc 0).cols * fmtBits (o.desc 0).fmt) 8)

/-- Codes 14, 15 and 16 of an operation (R207, R228). A RECV writes its region by its deliveries, a MARK its watch buffer `buf`, whose
words no descriptor names: the head word. A SEND reads nothing (log entry 136). -/
def Panel.bindFails (x : Panel) (buf : Option ImgWatch) (o : POp) : List (Nat × Nat) :=
  let open_ (m : SMap Binding) : List Binding := (m.map (·.2)).filter (fun b => !b.done)
  let armed (m : SMap Binding) : Bool := match look? m o.bindI with | some b => !b.done | none => false
  let f16 := if (o.op = 0x18 ∧ armed x.sbind) ∨ (o.op = 0x19 ∧ armed x.rbind) then [(0, 16)] else []
  let meetsOpen (l : List (Nat × Nat)) : Bool := (open_ x.sbind ++ open_ x.rbind).any (fun b => meets l (spans b.reg false 0))
  let f14 := match (if o.op = 0x19 then some 0 else o.dst) with
    | some i => if (o.desc i).space = 0 ∧ meetsOpen (spans (o.desc i) (o.isBitmap i) 0) then [(i + 1, 14)] else []
    | none => match buf with
      | some v => if o.op = 0x38 ∧ meetsOpen [(v.off, markLen o v)] then [(0, 14)] else []
      | none => []
  let rs := if o.op = 0x38 then (if buf.isSome then [0] else []) else o.srcs
  let f15 := rs.filterMap (fun i =>
    let d := o.desc i
    if d.space = 0 ∧ (open_ x.rbind).any (fun b => meets (spans d (o.isBitmap i) 0) (spans b.reg false (b.w * perTuft b.reg)))
    then some (i + 1, 15) else none)
  f16 ++ f14 ++ f15

/-- What the ECC errors of the surroundings do to a read (R96): corrected errors, uncorrectable words, and the panel as
read. Three and more bits in error are a free choice; what an uncorrected word reads as is free. -/
structure EccRead where
  s   : State
  rd  : Panel
  ce  : Nat := 0
  ues : List (Nat × Nat) := []

/-- A word of the panel as read, free, and poisoned when it was found uncorrectable. -/
def Panel.badWord (x : Panel) (sp w v : Nat) (psn : Bool) : Panel :=
  let ws := (toLE 8 v).zipIdx.map (fun b => (8 * w + b.2, b.1, psn))
  if sp = 0 then { x with mem := pokes x.mem ws, memPsn := if psn then put false x.memPsn w true else x.memPsn }
  else { x with os := pokes x.os ws, osPsn := if psn then put false x.osPsn w true else x.osPsn }

/-- The errors met, in order. -/
def EccRead.run (e : EccRead) : List (Nat × Nat × Nat) → EccRead
  | [] => e
  | (sp, w, n) :: r =>
    if n = 0 then e.run r
    else if n = 1 then { e with ce := e.ce + 1 }.run r
    else
      let c := if n = 2 then 0 else e.s.freeV % 3
      let v := e.s.fresh.freeV
      let s := e.s.fresh.fresh
      if c = 0 then { e with s := s, rd := e.rd.badWord sp w v true, ues := e.ues ++ [(sp, w)] }.run r
      else { e with s := s, rd := e.rd.badWord sp w v false, ce := e.ce + (c - 1) }.run r

/-- An operation about to run: partition, record, operation, its word index, and its failure if it has one. -/
structure OpCtx where
  q   : Nat
  r   : IssueRec
  o   : POp
  i   : Nat
  rd  : Panel
  bad : Option Reject := none

/-- Code 17 of an operation's words (R96, R220). -/
def listEcc (st i nw : Nat) (ues : List (Nat × Nat)) : List (Nat × Nat) :=
  (List.range (nw + 1)).filterMap (fun k =>
    if ues.any (fun u => u.1 == 0 && u.2 / 2 == st + i + k) then some (k, 17) else none)

/-- The operation at the panel's position and its decode checks (R217, R220). -/
def State.opAtPos (s : State) (p q : Nat) (r : IssueRec) (rd : Panel) (ues : List (Nat × Nat)) : OpCtx :=
  let x := s.panel p
  let e := s.chkEnv p
  let d := dirEntry x.read r.dir
  let i := s.get .PNL_SL_POS_WORD p
  if dirBad e.slr (s.get .PNL_SL_CFG_DIRN p) d.1 d.2.1 then
    { q := q, r := r, o := {}, i := i, rd := rd, bad := some (0, 12, 0xFFFF, 0xFFFF) }
  else if d.2.1 ≤ i then
    { q := q, r := r, o := {}, i := i, rd := rd, bad := some (d.2.1, 12, x.lastOp.1, x.lastOp.2) }
  else
    let o := opAt rd.read d.1 i
    let more := laneFails { kind := x.kind, written := x.written } o ++ x.bindFails (s.watchBuf q x o) o ++ listEcc d.1 i o.nw ues
      ++ (if o.op = 0x3F ∧ i + 1 < d.2.1 then [(1, 12)] else [])
    { q := q, r := r, o := o, i := i, rd := rd,
      bad := (opReject e o i d.2.1 more).map (rejectOf o i) }

/-- The operations from word `i` on that can be decoded, END last (R220). -/
def opsFrom (e : ChkEnv) (read : Nat → Nat → List Byte) (st n : Nat) : Nat → Nat → List POp
  | 0, _ => []
  | fuel + 1, i =>
    if n ≤ i then []
    else
      let o := opAt read st i
      (if (opReject e o i n []).isNone then [o] else [])
        ++ (if o.op = 0x3F then [] else opsFrom e read st n fuel (i + 1 + o.nw))

/-- The outputs an operation would have written are poisoned, the watch buffer `buf` of a MARK among them (R160, R220). -/
def Panel.poisonOut (x : Panel) (late : Bool) (buf : Option ImgWatch) (o : POp) : Panel :=
  if o.op = 0x38 then
    match buf with
    | some v => x.poisonKeys 0 ((List.range (markLen o v)).map (v.off + ·)) late
    | none => x
  else if o.op = 0x01 ∨ o.op = 0x02 then
    { x with lanes := (List.range 1024).map (fun i => { x.lane i with poison := true }) }
  else match o.dst with
    | some i => if (o.desc i).space < 2 then x.poisonKeys (o.desc i).space (regionKeys (o.desc i) (o.isBitmap i)) late else x
    | none => x

/-- The rest of the step's list, from the operation at word `i`, poisons its outputs. -/
def State.poisonRest (s : State) (p q : Nat) (r : IssueRec) (i : Nat) (late : Bool) : State :=
  let x := s.panel p
  let d := dirEntry x.read r.dir
  let os := opsFrom (s.chkEnv p) x.read d.1 d.2.1 (d.2.1 + 1) i
  s.setPanel p (os.foldl (fun x o => x.poisonOut late (s.watchBuf q x o) o) x)

/-- A word fails a decode check (R220, R227). -/
def State.pnlReject (s : State) (p q : Nat) (r : IssueRec) (b : Reject) : State :=
  let i := s.get .PNL_SL_POS_WORD p
  let s := s.poisonRest p q r i false
  let s := s.setPanel p { s.panel p with st := .abandoned i, psnAll := true }
  let s := ((s.set .PNL_SL_STAT_ERR b.2.1 p).set .PNL_SL_POS_WORD b.1 p).set .PNL_SL_STAT_ACTIVE 0 p
  s.pnlPend p (pnlMsg p q 0x2006 r.step b.2.2.1 b.2.2.2, r.step % 2 ^ 32 + b.2.1 * 2 ^ 32 + b.1 % 2 ^ 16 * 2 ^ 40, true)

/-- A 64-bit wrapping counter plus `n`. -/
def State.bump (s : State) (f : Fld) (p n : Nat) : State := s.set f (s.get f p + n) p

/-- Bytes an operation moves in a space: once per store for operand stores (R699). -/
def POp.bytesIn (o : POp) (sp : Nat) : Nat :=
  (o.srcs ++ (match o.dst with | some i => [i] | none => [])).foldl (fun n i =>
    let d := o.desc i
    if d.space = sp then
      n + regBytes d (o.isBitmap i) * (if sp = 1 ∧ d.split = false then ones16 d.cmask else 1)
    else n) 0

/-- What one pace edge counts and reports, the panel being left as `x` (R96, R142, R147). The cycles of a WAIT are not stretched, and a
REST runs none. -/
def State.afterEdge (s : State) (p : Nat) (c : OpCtx) (f : EdgeFacts) (x : Panel) (ce : Nat) (ue : Bool) : State :=
  let n := if c.o.op = 0x30 ∨ c.o.op = 0x31 then 0 else f.stretched
  let s := (s.setPanel p { x with stretch := x.stretch + n }).inc .PNL_STRETCH_COUNT p n
  let s := f.droops.foldl (fun s v => s.sample 3 (panelScope p) (some c.q) v) s
  let s := s.pnlCe p c.q c.r.step ce
  if ue then (s.fence p).pnlFault p c.q 0x2007 c.r.step c.o.layer c.o.oper else s

/-- Counters and reports of a completed operation (R142, R576-R582, R699). -/
def State.afterOp (s : State) (p : Nat) (c : OpCtx) (f : EdgeFacts) (t : OpRes) (ce : Nat) (ue used : Bool) : State :=
  let o := c.o
  let q := c.q
  let s := s.afterEdge p c f { t.x with lastOp := (o.layer, o.oper), vcyc := t.x.vcyc + o.vcycles, seamPos := 0, seamGot := [] } ce ue
  let s := (((s.bump .PNL_C_BUSY_COUNT p o.cycles).bump .PNL_C_MAC_COUNT p t.mac).bump .PNL_C_OSB_COUNT p (o.bytesIn 1)).bump
    .PNL_C_PMB_COUNT p (o.bytesIn 0)
  let s := (((s.inc .PNL_C_INV_COUNT p t.cnt.inv).inc .PNL_C_OVF_COUNT p t.cnt.ovf).inc .PNL_C_UNF_COUNT p t.cnt.unf).inc
    .PNL_C_SAT_COUNT p t.cnt.sat
  let s := s.inc .CHK_SH_CNT_COUNT q o.vcycles
  let s := if o.op = 0x04 then (s.inc .CHK_PC_CNT_COUNT q).inc .CHK_PC_SKIP_COUNT q t.skip else s
  let s := if used then s.pnlFault p q 0x2008 c.r.step o.layer o.oper else s
  let s := if t.ovf then s.pnlFault p q 0x2003 c.r.step o.layer o.oper else s
  let s := if f.shadowBad && decide (0 < o.vcycles) then (s.fence p).pnlFault p q 0x2002 c.r.step o.layer o.oper else s
  if t.fail then (s.fence p).pnlFault p q 0x2001 c.r.step o.layer o.oper else s

/-- The panel goes on after the operation at word `i`. -/
def State.nextWord (s : State) (p : Nat) (o : POp) : State :=
  s.set .PNL_SL_POS_WORD (s.get .PNL_SL_POS_WORD p + 1 + o.nw) p

/-- What an operation's command did: completed it, or let one pace edge of a MOVE at a seam pass. -/
inductive OpEnd where
  | done (s : State) (t : OpRes)
  | edge (s : State) (x : Panel)

/-- One command of a step-list operation: the operation at the panel's position fails its decode checks, or runs when it
is of the kind asked for. -/
def State.runOp (s : State) (p : Nat) (f : EdgeFacts) (want : POp → Bool) (eff : State → OpCtx → OpEnd) : State :=
  let x := s.panel p
  match x.part, x.win with
  | some q, some r =>
    if x.st = .running ∧ s.reached q (dueSlot r) = false ∧ s.boot.tripped = false then
      let e := EccRead.run { s := s, rd := x } f.ecc
      let c := s.opAtPos p q r e.rd e.ues
      match c.bad with
      | some b =>
        let s := if b.2.1 = 17 then e.s.fence p else e.s
        (s.pnlCe p q r.step e.ce).pnlReject p q r b
      | none =>
        if want c.o then
          match eff e.s c with
          | .done s t => s.afterOp p c f t e.ce (!e.ues.isEmpty) (x.consumes c.o)
          | .edge s x => s.afterEdge p c f x e.ce (!e.ues.isEmpty)
        else s
    else s
  | _, _ => s

/-- An operation that computes on its own panel alone, and goes on. -/
def State.pureOp (s : State) (p : Nat) (f : EdgeFacts) (want : POp → Bool) (g : State → OpCtx → OpRes) : State :=
  s.runOp p f want (fun s c => .done (s.nextWord p c.o) (g s c))

/-- The run's seed (R126) and the device's class (R124). -/
def State.seedOf (s : State) (q : Nat) : Nat := (s.part q).msg.seed
def State.cls (s : State) : Nat := s.get .CHK_CLASS_DCLASS

/-- TILE (R194). -/
def execTile (p : Nat) (f : OpFacts) (s : State) : Host.Outcome State Fault Refusal :=
  .next (s.pureOp p f.toEdgeFacts (fun o => o.op == 0x01) (fun s c => tileOp c.rd (s.panel p) c.o f))

/-- LLOAD (R195). -/
def execLload (p : Nat) (f : OpFacts) (s : State) : Host.Outcome State Fault Refusal :=
  .next (s.pureOp p f.toEdgeFacts (fun o => o.op == 0x02) (fun s c => lloadOp c.rd (s.panel p) c.o f))

/-- LSTORE (R196). -/
def execLstore (p : Nat) (f : OpFacts) (s : State) : Host.Outcome State Fault Refusal :=
  .next (s.pureOp p f.toEdgeFacts (fun o => o.op == 0x03) (fun s c => lstoreOp (s.panel p) c.o (s.seedOf c.q)))

/-- PCHECK (R197). -/
def execPcheck (p : Nat) (f : OpFacts) (s : State) : Host.Outcome State Fault Refusal :=
  .next (s.pureOp p f.toEdgeFacts (fun o => o.op == 0x04) (fun s _ => pcheckOp (s.panel p)))

/-- VEC (R199). -/
def execVec (p : Nat) (f : OpFacts) (s : State) : Host.Outcome State Fault Refusal :=
  .next (s.pureOp p f.toEdgeFacts (fun o => o.op == 0x08) (fun s c => elemOp c.rd (s.panel p) c.o s.cls (s.seedOf c.q) f.shadowBad))

/-- FOLD in one mode (R208). -/
def State.foldOp (s : State) (p : Nat) (f : OpFacts) (mode : Nat) : State :=
  s.pureOp p f.toEdgeFacts (fun o => o.op == 0x20 && o.mode == mode)
    (fun s c => elemOp c.rd (s.panel p) c.o s.cls (s.seedOf c.q) f.shadowBad)

/-- FOLD_TREE (R208). -/
def execFoldTree (p : Nat) (f : OpFacts) (s : State) : Host.Outcome State Fault Refusal := .next (s.foldOp p f 0)
/-- FOLD_LIFT (R208). -/
def execFoldLift (p : Nat) (f : OpFacts) (s : State) : Host.Outcome State Fault Refusal := .next (s.foldOp p f 1)
/-- FOLD_EXACT (R208). -/
def execFoldExact (p : Nat) (f : OpFacts) (s : State) : Host.Outcome State Fault Refusal := .next (s.foldOp p f 2)
/-- FOLD_ROUND (R208). -/
def execFoldRound (p : Nat) (f : OpFacts) (s : State) : Host.Outcome State Fault Refusal := .next (s.foldOp p f 3)

/-- RFILL (R209). -/
def execRfill (p : Nat) (f : OpFacts) (s : State) : Host.Outcome State Fault Refusal :=
  .next (s.pureOp p f.toEdgeFacts (fun o => o.op == 0x28) (fun s c => elemOp c.rd (s.panel p) c.o s.cls (s.seedOf c.q) f.shadowBad))

/-- Entries of a receive buffer. -/
def Panel.seam (x : Panel) (k : Nat) : List SeamEntry := look [] x.seams k

/-- One read edge of a MOVE from a seam (R164, R167, R191): it takes the oldest entry, or waits. With the last entry the operation is
complete. -/
def State.seamTake (s : State) (p : Nat) (c : OpCtx) : OpEnd :=
  let x := s.panel p
  let k := (c.o.desc 1).space - 2
  match x.seam k with
  | [] => .edge (s.inc .PNL_SEAM_WAIT_COUNT p) x
  | e :: es =>
    let x := { x with seams := ins x.seams k es, seamGot := x.seamGot ++ [e.bytes] }
    if x.seamGot.length < seamNeed (c.o.desc 1) then .edge s x
    else .done (s.nextWord p c.o) (seamIn x c.o x.seamGot)

/-- Does the operation at the panel's position read entries from its seam `k`? -/
def State.readsSeam (s : State) (p k : Nat) : Bool :=
  let x := s.panel p
  match x.part, x.win with
  | some q, some r =>
    let c := s.opAtPos p q r x []
    x.st == .running && !s.reached q (dueSlot r) && c.bad.isNone && c.o.op == 0x10 && (c.o.desc 1).space == k + 2
  | _, _ => false

/-- One write edge of a MOVE to a seam (R164, R166, R191): the next entry joins the neighbour's buffer, or the handshake holds the
sender while the buffer holds 4 entries. With `pair` the receiver's read edge frees an entry at the same instant (R778). -/
def State.seamSend (s : State) (p : Nat) (c : OpCtx) (pair : Bool) : OpEnd :=
  let x := s.panel p
  let dirn := (c.o.desc 0).space - 2
  match neighbour x.logical dirn with
  | some l =>
    let w := s.winOfLog l
    let y := s.panel w
    let k := opposite dirn
    if (y.seam k).length < 4 ∨ (pair ∧ s.readsSeam w k) then
      let out := seamOut c.rd c.o
      let e : SeamEntry := { bytes := out.getD x.seamPos [], step := c.r.step, due := dueSlot c.r }
      let s := s.setPanel w { y with seams := ins y.seams k (y.seam k ++ [e]) }
      let n := x.seamPos + 1
      if n < out.length then .edge s { s.panel p with seamPos := n }
      else .done (s.nextWord p c.o)
        { x := s.panel p, ovf := moveOvf (c.o.desc 1).fmt (c.rd.source (c.o.desc 1) false) }
    else .edge (s.inc .PNL_SEAM_HOLD_COUNT p) { x with holds := x.holds + 1 }
  | none => .done (s.nextWord p c.o) { x := x }

/-- The panel whose seam buffer the MOVE at the panel's position writes, with that buffer's direction there. -/
def State.seamPeer (s : State) (p : Nat) : Option (Nat × Nat) :=
  let x := s.panel p
  match x.win with
  | some r =>
    let o := opAt x.read (dirEntry x.read r.dir).1 (s.get .PNL_SL_POS_WORD p)
    let dirn := (o.desc 0).space - 2
    if o.op = 0x10 ∧ 2 ≤ (o.desc 0).space then (neighbour x.logical dirn).map (fun l => (s.winOfLog l, opposite dirn)) else none
  | none => none

/-- One command of a MOVE on panel `p`: the whole copy, or one pace edge at a seam (log entry 141). -/
def State.moveEdge (s : State) (p : Nat) (f : EdgeFacts) (pair : Bool) : State :=
  s.runOp p f (fun o => o.op == 0x10) (fun s c =>
    if 2 ≤ (c.o.desc 0).space then s.seamSend p c pair
    else if 2 ≤ (c.o.desc 1).space then s.seamTake p c
    else .done (s.nextWord p c.o) (moveOp c.rd (s.panel p) c.o))

/-- MOVE (R200, R201, R164-R168, R778). Of two edges at one instant the write comes first: a full buffer frees the entry that the read
takes, an empty one passes the written entry to the read. -/
def execMove (p : Nat) (f : OpFacts) (s : State) : Host.Outcome State Fault Refusal :=
  match f.pair, s.seamPeer p with
  | some g, some (w, k) =>
    if s.readsSeam w k then .next ((s.moveEdge p f.toEdgeFacts true).moveEdge w g false)
    else .next (s.moveEdge p f.toEdgeFacts false)
  | _, _ => .next (s.moveEdge p f.toEdgeFacts false)

/-- A binding as SEND or RECV arms it (R202). -/
def newBinding (c : OpCtx) : Binding :=
  { stream := c.o.stream, reg := c.o.desc 0, step := c.r.step, layer := c.o.layer, oper := c.o.oper }

/-- SEND (R202, R203). -/
def execSend (p : Nat) (f : OpFacts) (s : State) : Host.Outcome State Fault Refusal :=
  .next (s.runOp p f.toEdgeFacts (fun o => o.op == 0x18) (fun s c =>
    let x := s.panel p
    .done ((s.nextWord p c.o).setBit .PNL_SL_SBIND_SEND c.o.bindI true p)
      { x := { x with sbind := ins x.sbind c.o.bindI (newBinding c) } }))

/-- RECV (R202, R206). -/
def execRecv (p : Nat) (f : OpFacts) (s : State) : Host.Outcome State Fault Refusal :=
  .next (s.runOp p f.toEdgeFacts (fun o => o.op == 0x19) (fun s c =>
    let x := s.panel p
    .done ((s.nextWord p c.o).setBit .PNL_SL_RBIND_RECV c.o.bindI true p)
      { x := { x with rbind := ins x.rbind c.o.bindI (newBinding c) } }))

/-- Receive binding `b` of a panel. -/
def Panel.rb (x : Panel) (b : Nat) : Binding := look {} x.rbind b

/-- A WAIT.RECV on binding `b` for `n` tufts completes: W rises, and missing tufts poison their positions (R207, R211). -/
def Panel.waited (x : Panel) (b n : Nat) : Panel × Bool :=
  let y := x.rb b
  let short := decide (y.got.length < n)
  let ks := if short then ((List.range (min n (tuftsOf y.reg))).filter (fun k => k ∉ y.got)).flatMap (tuftKeys y.reg) else []
  let x := if (look? x.rbind b).isSome then { x with rbind := ins x.rbind b { y with w := max y.w n } } else x
  (x.poisonKeys 0 ks false, short)

/-- WAIT_SLOT (R210). -/
def execWaitSlot (p : Nat) (f : OpFacts) (s : State) : Host.Outcome State Fault Refusal :=
  .next (s.runOp p f.toEdgeFacts (fun o => o.op == 0x30 && o.mode == 0) (fun s c =>
    let x := s.panel p
    if s.reached c.q (c.r.start + c.o.p32) then .done (s.nextWord p c.o) { x := x }
    else .done s { x := { x with st := .waitSlot (c.r.start + c.o.p32) } }))

/-- WAIT_RECV (R210, R211). -/
def execWaitRecv (p : Nat) (f : OpFacts) (s : State) : Host.Outcome State Fault Refusal :=
  .next (s.runOp p f.toEdgeFacts (fun o => o.op == 0x30 && o.mode == 1) (fun s c =>
    let x := s.panel p
    if c.o.count ≤ (x.rb c.o.bindI).got.length ∨ s.reached c.q (c.r.start + c.o.p32) then
      let t := x.waited c.o.bindI c.o.count
      let s := s.nextWord p c.o
      let s := if t.2 then s.pnlFault p c.q 0x2009 c.r.step c.o.layer c.o.oper else s
      .done s { x := { t.1 with faults := (s.panel p).faults } }
    else .done s { x := { x with st := .waitRecv (c.r.start + c.o.p32) c.o.bindI c.o.count } }))

/-- The operation a waiting panel stands at. -/
def State.atOp (s : State) (p : Nat) (r : IssueRec) : POp :=
  let x := s.panel p
  opAt x.read (dirEntry x.read r.dir).1 (s.get .PNL_SL_POS_WORD p)

/-- WAIT_COMPLETE (R210, R211, R226). -/
def execWaitComplete (p : Nat) (s : State) : Host.Outcome State Fault Refusal :=
  let x := s.panel p
  match x.part, x.win with
  | some q, some r =>
    if s.reached q (dueSlot r) then .next s
    else match x.st with
      | .waitSlot t =>
        if s.reached q t then .next ((s.setPanel p { x with st := .running }).nextWord p {}) else .next s
      | .waitRecv t b n =>
        if n ≤ (x.rb b).got.length ∨ s.reached q t then
          let y := x.waited b n
          let o := s.atOp p r
          let s := (s.setPanel p { y.1 with st := .running }).nextWord p {}
          .next (if y.2 then s.pnlFault p q 0x2009 r.step o.layer o.oper else s)
        else .next s
      | _ => .next s
  | _, _ => .next s

/-- REST (R212). -/
def execRest (p : Nat) (f : OpFacts) (s : State) : Host.Outcome State Fault Refusal :=
  .next (s.runOp p f.toEdgeFacts (fun o => o.op == 0x31) (fun s c =>
    .done s { x := { s.panel p with st := .rest (c.r.start + c.o.p32) } }))

/-- REST_RESUME (R212). -/
def execRestResume (p : Nat) (s : State) : Host.Outcome State Fault Refusal :=
  let x := s.panel p
  match x.part, x.st with
  | some q, .rest t =>
    if s.reached q t then .next ((s.setPanel p { x with st := .running }).nextWord p {}) else .next s
  | _, _ => .next s

/-- The watch frame header of the table Watch frame header. -/
def State.watchHead (s : State) (q : Nat) (x : Panel) (step value : Nat) (d : Region) : List Byte :=
  toLE 2 x.logical ++ toLE 2 (s.image q).memb ++ toLE 4 step ++ toLE 1 d.fmt ++ toLE 1 0 ++ toLE 2 d.rows ++ toLE 2 d.cols
    ++ toLE 2 0 ++ toLE 7 s.tally ++ toLE 1 0 ++ toLE 4 value ++ toLE 4 0

/-- PMARK (R213, R694, R697, R709). -/
def execPmark (p : Nat) (f : OpFacts) (s : State) : Host.Outcome State Fault Refusal :=
  .next (s.runOp p f.toEdgeFacts (fun o => o.op == 0x38) (fun s c =>
    let x := s.panel p
    let o := c.o
    let w := o.watchN
    let rec3 (dumped : Bool) (s : State) : State :=
      s.trace c.q 3 (idOf p) c.r.step o.layer o.oper (o.p32 + w * 2 ^ 32 + b2n o.wen * 2 ^ 38 + b2n dumped * 2 ^ 39)
    match s.watchBuf c.q x o with
    | some v =>
      let bs := packEls (fmtBits (o.desc 0).fmt) (c.rd.source (o.desc 0) false).flatten
      let x' := x.pokeAll 0 ((bs.take v.size).zipIdx.map (fun b => (v.off + b.2, b.1)))
      let d : Dump := { ring := v.ring, layer := o.layer, oper := o.oper,
                        bytes := s.watchHead c.q x c.r.step o.p32 (o.desc 0) ++ bs.map (·.1) }
      let x' := { x' with dumps := ins x'.dumps w d }
      .done ((rec3 true s).nextWord p o) { x := x' }
    | none =>
      let s := if (s.watchDecl c.q o).isSome then
          (s.inc .DBG_WDROP_COUNT c.q).raiseEv
            { code := 0xD007, part := some c.q, skind := 0, sindex := idOf p, detail := w + c.r.step % 2 ^ 32 * 2 ^ 32 }
        else s
      .done ((rec3 false s).nextWord p o) { x := x }))

/-- END (R156, R159, R214): SLACK is the whole tally slots between END and the deadline (log entry 25). -/
def execEndList (p : Nat) (f : OpFacts) (s : State) : Host.Outcome State Fault Refusal :=
  .next (s.runOp p f.toEdgeFacts (fun o => o.op == 0x3F) (fun s c =>
    let slack := min 65535 (s.slotsAhead c.q (dueSlot c.r) - 1).toNat
    let s := (s.set .PNL_STEP_STAT_SLACK slack p).set .PNL_SL_STAT_ACTIVE 0 p
    let s := if c.o.lastf then s.set .PNL_SL_STAT_LASTSEEN 1 p else s
    let s := if slack < s.get .PWR_SLACK_WARN_SLACK then
        (s.paceEvt .PWR_PACE_EVT_SLACK_WARN (dieOf p)).raiseEv
          { code := 0x2005, part := some c.q, skind := 0, sindex := idOf p, detail := c.r.step % 2 ^ 32 + slack * 2 ^ 32 }
      else s
    .done s { x := { s.panel p with st := .done } }))

/-- The step is late on panel `p`: LATE, and the fault of R162 for `step`, naming `ids`. -/
def State.lateStep (s : State) (p q step : Nat) (ids : Nat × Nat) : State :=
  let s := ((s.set .PNL_STEP_STAT_LATE 1 p).set .PNL_STEP_STAT_SLACK 0 p).paceEvt .PWR_PACE_EVT_LATE_STEP (dieOf p)
  let m := pnlMsg p q 0x2004 step ids.1 ids.2
  s.pnlReport p (m, FaultMsg.detail m, true)

/-- LAYER and OPER of the first operation not completed at the deadline (R217): of an abandoned list the operation that failed. None
when END completed. -/
def Panel.lateIds (x : Panel) (c : OpCtx) : Option (Nat × Nat) :=
  match x.st with
  | .done => none
  | .abandoned _ => some (match x.faults.find? (fun f => f.1.code == 0x2006) with
    | some f => (f.1.layer, f.1.oper)
    | none => (0xFFFF, 0xFFFF))
  | _ => some (c.o.layer, c.o.oper)

/-- The head word of the operation a panel stands at. -/
def State.headWord (s : State) (p : Nat) : Nat :=
  match (s.panel p).st with
  | .abandoned i => i
  | _ => s.get .PNL_SL_POS_WORD p

/-- The deadline of the window in progress (R160-R162, R178, R220). A step whose list is complete and that leaves entries unread names no
operation (log entry 135). -/
def State.winDue (s : State) (p q : Nat) (r : IssueRec) : State :=
  let c := s.opAtPos p q r (s.panel p) []
  let s := match (s.panel p).st, c.bad with
    | .running, some b => s.pnlReject p q r b
    | _, _ => s
  let x := s.panel p
  let late := x.lateIds c
  let left := x.seams.any (fun e => !e.2.isEmpty)
  let s := if late.isSome then s.poisonRest p q r (s.headWord p) true else s
  let s := s.setPanel p { s.panel p with seams := [], seamPos := 0, seamGot := [], faults := [], st := .idle }
  let s := s.set .PNL_SL_STAT_ACTIVE 0 p
  let s := x.faults.foldl (fun s f => s.pnlReport p f) s
  let s := (s.sample 2 (panelScope p) (some q) x.stretch).sample 7 (panelScope p) (some q) x.holds
  match late with
  | some ids => s.lateStep p q r.step ids
  | none => if left then s.lateStep p q r.step (0xFFFF, 0xFFFF) else s

/-- Entries in the buffers of a panel that runs no step, left at their sender's deadline, are discarded, and that step is late on this
panel (R157, R178). -/
def State.seamsDue (s : State) (p q : Nat) : State :=
  let x := s.panel p
  let due (e : SeamEntry) : Bool := s.reached q e.due
  match (x.seams.flatMap (·.2)).find? due with
  | some e =>
    (s.setPanel p { x with seams := x.seams.map (fun l => (l.1, l.2.filter (fun e => !due e))) }).lateStep p q e.step (0xFFFF, 0xFFFF)
  | none => s

/-- The step's end on a panel: its own deadline, or that of a sender whose entries it holds. -/
def State.stepDue (s : State) (p q : Nat) : State :=
  let x := s.panel p
  match x.win with
  | some r => if x.st = .idle then s.seamsDue p q else if s.reached q (dueSlot r) then s.winDue p q r else s
  | none => s.seamsDue p q

/-- Bad issues whose settle slots have come are reported (R219, log entry 72). -/
def State.reportBads (s : State) (p q : Nat) : State :=
  let x := s.panel p
  let due := x.bads.filter (fun b => s.reached q b.1)
  due.foldl (fun s b =>
    let w := s.freeV % 2 ^ 16
    s.fresh.pnlReport p (pnlMsg p q 0x2006 b.2.1 0xFFFF 0xFFFF, b.2.1 % 2 ^ 32 + b.2.2 * 2 ^ 32 + w * 2 ^ 40, true))
    (s.setPanel p { x with bads := x.bads.filter (fun b => !s.reached q b.1) })

/-- STEP_DEADLINE (R160-R162, R178, R219, R220): the settle slots begin. -/
def execStepDeadline (p : Nat) (s : State) : Host.Outcome State Fault Refusal :=
  match (s.panel p).part with
  | none => .next s
  | some q =>
    .next ((s.stepDue p q).reportBads p q)

/-! The mesh node's local port (R204-R206, R245). -/

/-- What a send binding departs: payload, poison, late, last, fuller, step. -/
structure Departure where
  payload : List Byte := []
  psn     : Bool := false
  late    : Bool := false
  last    : Bool := false
  fuller  : Bool := false
  step    : Nat := 0
  deriving DecidableEq, Repr

/-- The step a panel is in or was in last. -/
def State.pnlStep (s : State) (p : Nat) : Nat := s.get .PNL_SL_STEP_STEP p

/-- LAYER and OPER of the SEND that a departure before arming stands for: the next SEND of the binding in the list in progress and the
lists of the queued windows, else the binding's own (R205). -/
def State.sendIds (s : State) (p b : Nat) : Nat × Nat :=
  let x := s.panel p
  let find (r : IssueRec) (i : Nat) : Option POp :=
    let d := dirEntry x.read r.dir
    (opsFrom (s.chkEnv p) x.read d.1 d.2.1 (d.2.1 + 1) i).find? (fun o => o.op == 0x18 && o.bindI == b)
  let here : Option POp := if x.st = PnlSt.idle then none else x.win.bind (fun r => find r (s.headWord p))
  match here.or (x.queue.findSome? (fun r => find r 0)) with
  | some o => (o.layer, o.oper)
  | none => match look? x.sbind b with
    | some y => (y.layer, y.oper)
    | none => (0xFFFF, 0xFFFF)

/-- The report of R205: a FAULT packet of code 0x3001; the node records the event. -/
def State.early (s : State) (p q b : Nat) : State × Option Departure :=
  let i := s.sendIds p b
  (s.pnlPend p (pnlMsg p q 0x3001 (s.pnlStep p) i.1 i.2, 0, false), none)

/-- A payload with its 64-bit word `w` holding `v`. -/
def withWord (bs : List Byte) (w v : Nat) : List Byte := bs.take (8 * w) ++ toLE 8 v ++ bs.drop (8 * w + 8)

/-- Departure of tuft `k` of send binding `b` for `stream`: none when the binding does not hold it, which the panel reports
at the step's end (R204, R205, R220, R245). `e` is how the read came out: a word with more than one bit wrong is free; with three and more
it counts as uncorrectable, as corrected, or unseen, which is a free choice (R96). -/
def State.depart (s : State) (p q b k stream : Nat) (e : Ecc) : State × Option Departure :=
  let x := s.panel p
  match look? x.sbind b with
  | some y =>
    if y.done = false ∧ y.stream = stream ∧ k < tuftsOf y.reg then
      let t := x.tuftOf y.reg k
      let last := k + 1 == tuftsOf y.reg
      let c := s.freeV % 3
      let pay := if e = .double ∨ e = .many then withWord t.1 (s.fresh.freeV % 32) s.fresh.fresh.freeV else t.1
      let e := if e = .many then (if c = 0 then .double else if c = 1 then .single else .many) else e
      let s := if last then
          (s.setPanel p { x with sbind := ins x.sbind b { y with done := true } }).setBit .PNL_SL_SBIND_SEND b false p
        else s
      let s := s.bump .PNL_C_PMB_COUNT p ((min (perTuft y.reg) (y.reg.rows * y.reg.cols - k * perTuft y.reg)) * fmtBits y.reg.fmt / 8)
      let s := if e = .single then s.pnlCe p q (s.pnlStep p) 1 else s
      let s := if e = .double then (s.fence p).pnlFault p q 0x2007 (s.pnlStep p) y.layer y.oper else s
      (s.fresh.fresh.fresh, some { payload := pay, psn := t.2.1 || x.psnAll || e == .double, late := t.2.2, last := last,
                                   fuller := y.reg.fmt == 9, step := y.step })
    else s.early p q b
  | none => s.early p q b

/-- Delivery of a tuft to receive binding `b` (R206, R245, R265, R281): false when the binding does not take it, which
the panel reports at the step's end. -/
def State.deliver (s : State) (p q b : Nat) (t : Tuft) (psn : Bool) : State × Bool :=
  let x := s.panel p
  let y := x.rb b
  if (look? x.rbind b).isSome ∧ y.done = false ∧ y.stream = t.stream ∧ t.seq < tuftsOf y.reg then
    let got := if t.seq ∈ y.got then y.got else y.got ++ [t.seq]
    let all := decide (tuftsOf y.reg ≤ got.length)
    let x := x.takeTuft y.reg t.seq t.payload psn
    let s := s.setPanel p { x with rbind := ins x.rbind b { y with got := got, done := all } }
    let s := if all then s.setBit .PNL_SL_RBIND_RECV b false p else s
    let s := s.bump .PNL_C_PMB_COUNT p ((min (perTuft y.reg) (y.reg.rows * y.reg.cols - t.seq * perTuft y.reg)) * fmtBits y.reg.fmt / 8)
    (if psn then s.pnlFault p q 0x2008 (s.pnlStep p) y.layer y.oper else s, true)
  else
    let s := s.inc .LNK_STRAY_COUNT
    (s.pnlPend p (pnlMsg p q 0x3002 (s.pnlStep p) 0xFFFF 0xFFFF, t.stream % 2 ^ 24 + t.seq % 2 ^ 16 * 2 ^ 24, true), false)

end Sys2Proof.Machine
end

