-- ==== Sys2Proof/Machine/Fabric.lean ====
section
/-! DEFINITION. The data plane's fabric: records of a bank, checks of tufts, cells and stitch frames, node keys, links between
nodes, banks of slices (R231-R242, R254, R283-R285, R290, R305, R306, R775). -/
namespace Sys2Proof

/-- A slot-table entry from its 16 bytes (table Slot-table entry). -/
def Entry.ofWord (w : Nat) : Entry :=
  { offset := bits w 0 13, inp := bits w 16 8, out := bits w 24 16, stream := bits w 40 24, seq := bits w 64 16, sinc := bits w 80 8,
    bind := bits w 88 5, valid := bit w 93, resv := bits w 13 3 != 0 || bits w 94 34 != 0 }

/-- The 16 bytes of an entry whose reserved bits are 0. -/
def Entry.toWord (e : Entry) : Nat :=
  e.offset % 2 ^ 13 + e.inp % 2 ^ 8 * 2 ^ 16 + e.out % 2 ^ 16 * 2 ^ 24 + e.stream % 2 ^ 24 * 2 ^ 40 + e.seq % 2 ^ 16 * 2 ^ 64
    + e.sinc % 2 ^ 8 * 2 ^ 80 + e.bind % 2 ^ 5 * 2 ^ 88 + b2n e.valid * 2 ^ 93

/-- A memory binding from its 16 bytes (table Memory binding). -/
def MemBind.ofWord (w : Nat) : MemBind :=
  { ubase := bits w 0 28, limit := bits w 32 16, tag := bits w 48 16, rd := bit w 64, wr := bit w 65 }

/-- The 16 bytes of a memory binding whose reserved bits are 0. -/
def MemBind.toWord (m : MemBind) : Nat :=
  m.ubase % 2 ^ 28 + m.limit % 2 ^ 16 * 2 ^ 32 + m.tag % 2 ^ 16 * 2 ^ 48 + b2n m.rd * 2 ^ 64 + b2n m.wr * 2 ^ 65

/-- A bank of an image with its records read. -/
def RawBank.bank (b : RawBank) : Bank :=
  { flen := b.flen, act := b.act, entries := b.entries.map Entry.ofWord, binds := b.binds.map (fun x => (x.1, MemBind.ofWord x.2)) }

/-- The 256 bytes of a tuft's payload. -/
def Tuft.pay (t : Tuft) : List Byte := (t.payload ++ List.replicate 256 0).take 256

/-- Banks A and B of a slice of an image. -/
def ImgSlice.a (x : ImgSlice) : Bank := x.rawA.bank
def ImgSlice.b (x : ImgSlice) : Bank := x.rawB.bank

end Sys2Proof

namespace Sys2Proof.Machine

/-! Cyclic redundancy checks. -/

/-- One bit of an MSB-first CRC of `w` bits. -/
def crcBit (w poly c : Nat) : Nat := if bit c (w - 1) then ((c * 2) % 2 ^ w) ^^^ poly else (c * 2) % 2 ^ w

/-- CRC-64 of R236 over bytes, most significant bit first, from register `c`. -/
def crc64From (c : Nat) : List Byte → Nat
  | [] => c
  | b :: bs => crc64From ((List.range 8).foldl (fun c _ => crcBit 64 0x42F0E1EBA9EA3693 c) (c ^^^ (b.toNat <<< 56))) bs

/-- CRC-64 of R236. -/
def crc64 (bs : List Byte) : Nat := crc64From 0 bs

/-- The reflected register of the CRC of R775 (polynomial 0x04C1_1DB7 bit-reversed). -/
def crc32From (c : Nat) : List Byte → Nat
  | [] => c
  | b :: bs => crc32From ((List.range 8).foldl (fun c _ => if bit c 0 then (c / 2) ^^^ 0xEDB88320 else c / 2) (c ^^^ b.toNat)) bs

/-- The IEEE 802.3 frame check sequence (R775). -/
def crc32 (bs : List Byte) : Nat := crc32From 0xFFFFFFFF bs ^^^ 0xFFFFFFFF

/-- The CRC-16 of a stitch frame (R290). The rule gives the polynomial alone; the rest is taken as R236 has it (log entry 142). -/
def crc16 (bs : List Byte) : Nat :=
  bs.foldl (fun c b => (List.range 8).foldl (fun c _ => crcBit 16 0x1021 c) (c ^^^ (b.toNat <<< 8))) 0

/-- Bits [31:24] of the first trailer word (table Tuft trailer). -/
def tuftFlags (t : Tuft) : Nat :=
  b2n t.poison + 2 * b2n t.late + 4 * b2n t.replayed + 8 * b2n t.fan + 16 * b2n t.last + 32 * b2n t.watch + 64 * b2n t.fuller

/-- Bytes 0-263 of a tuft with the flags given (R234). -/
def tuftHead (t : Tuft) (fl : Nat) : List Byte :=
  t.pay ++ toLE 4 (t.stream % 2 ^ 24 + fl * 2 ^ 24) ++ toLE 2 t.seq ++ toLE 2 t.step

/-- The 272 bytes of a tuft (R234). -/
def tuftBytes (t : Tuft) : List Byte := tuftHead t (tuftFlags t) ++ toLE 8 t.check

/-- CHECK of a tuft (R236): trailer bits [27:24] are taken as 0. -/
def checkOf (t : Tuft) : Nat := crc64 (tuftHead t (tuftFlags t / 16 * 16))

/-- A tuft with its CHECK (R237). -/
def sealed (t : Tuft) : Tuft := { t with check := checkOf t }

/-- Bytes 0-273 of a link cell (table Link cell). -/
def cellHead (c : Cell) : List Byte :=
  toLE 2 (c.lsn % 2 ^ 13 + c.kind % 4 * 2 ^ 13 + b2n c.mark * 2 ^ 15) ++ (if c.kind = 0 then List.replicate 272 0 else tuftBytes c.tuft)

/-- The cell with its LCRC (R254, R775). -/
def withLcrc (c : Cell) : Cell := { c with lcrc := crc32 (cellHead c) }

/-- A cell that FEC could repair and whose LCRC holds (R255). -/
def cellGood (c : Cell) : Bool := !c.uncorrectable && c.lcrc == crc32 (cellHead c)

/-! Nodes. A node's key: mesh 4096 + window, stitch 8192 + 2 t + end (end 0 the west die's or the band stitch's batt
die's, end 1 the east die's), band output 12288 + code, memory 16384 + die. The band crossing's inputs are those of the
key 20480. -/

def meshKey (w : Nat) : Nat := 4096 + w
def stitchKey (t end_ : Nat) : Nat := 8192 + 2 * t + end_
def bandKey (c : Nat) : Nat := 12288 + c
def memKey (d : Nat) : Nat := 16384 + d
def crossing : Nat := 20480

/-- Node kind in the code of SRCK: 1 mesh, 2 stitch, 3 band output, 4 memory (table Fault packet payload). -/
def nodeKind (n : Nat) : Nat := if n < 8192 then 1 else if n < 12288 then 2 else if n < 16384 then 3 else 4

/-- The node's index as an event source (table Source kinds). -/
def nodeIndex (n : Nat) : Nat :=
  match nodeKind n with
  | 1 => idOf (n - 4096)
  | 2 => (n - 8192) / 2
  | 3 => n - 12288
  | _ => n - 16384

/-- The row stitch to the east of a die (R284). -/
def rowStitch (d : Nat) : Option Nat := match d with
  | 0 => some 0 | 1 => some 1 | 2 => some 2 | 4 => some 3 | 5 => some 4 | 6 => some 5 | _ => none

/-- The die at an end of a stitch (R284, R285). -/
def stitchDie (t end_ : Nat) : Nat := if t < 6 then (if t < 3 then t else t + 1) + end_ else (t - 6) / 2

/-- The gateway stop that delivers to a node (R446, R466): the gateway of its batt die, or of its port. The band output nodes of band
stitch lanes are delivered by the gateway of the batt die behind the stitch (log entry 160). -/
def nodeStop (n : Nat) : Nat :=
  match nodeKind n with
  | 1 => dieOf (n - 4096)
  | 2 => stitchDie ((n - 8192) / 2) ((n - 8192) % 2)
  | 3 => if n - 12288 < 64 then (n - 12288) / 8 else if n - 12288 < 80 then 20 else 21
  | _ => n - 16384

/-- Where an output of a node leads. -/
inductive Dest where
  | input (node code lat : Nat)
  | recv
  | lane (t l : Nat) (node code lat : Nat)
  | port (p : Nat)
  | write (k : Nat)
  | nowhere
  deriving DecidableEq, Repr

/-- The stitch node of the edge that `dirn` (1 south, 2 east, 3 west) of a mesh position faces, with its edge link. -/
def edgeStitch (d r c dirn : Nat) : Option (Nat × Nat) :=
  match dirn with
  | 1 => some (stitchKey (6 + 2 * d + c / 8) 0, c % 8)
  | 2 => (rowStitch d).map (fun t => (stitchKey t 0, r))
  | 3 => if d = 0 ∨ d = 4 then none else (rowStitch (d - 1)).map (fun t => (stitchKey t 1, r))
  | _ => none

/-- Output `o` of mesh node `w` (R232, R233, R283, R305). -/
def State.meshOut (s : State) (w o : Nat) : Dest :=
  let l := (s.panel w).logical
  let d := l / 128
  let c := l % 16
  if o = 0 then .recv
  else match neighbour l (o - 1) with
    | some l' => .input (meshKey (s.winOfLog l')) (opposite (o - 1) + 1) 1
    | none =>
      if o = 1 then (if c = 3 ∨ c = 6 ∨ c = 9 ∨ c = 12 then .input (memKey d) (c / 3 - 1) 1 else .nowhere)
      else match edgeStitch d (l / 16 % 8) c (o - 1) with
        | some (n, e) => .input n e 1
        | none => .nowhere

/-- Output `o` of stitch node (t, end) (R232, R233, R305). -/
def State.stitchOut (s : State) (t end_ o : Nat) : Dest :=
  let d := stitchDie t end_
  if o < 8 then
    if 6 ≤ t then .input (meshKey (s.physWin d 7 (8 * (t % 2) + o))) 2 1
    else if end_ = 0 then .input (meshKey (s.physWin d o 15)) 3 1
    else .input (meshKey (s.physWin d o 0)) 4 1
  else if o < 12 then
    if t < 6 then .lane t (o - 8) (stitchKey t (1 - end_)) o 3
    else .lane t (o - 8) crossing (4 * (t - 6) + (o - 8)) 5
  else if o = 12 then .input (memKey d) (if 6 ≤ t then 6 + t % 2 else if end_ = 0 then 5 else 4) 1
  else .nowhere

/-- Output 0 of the band output node of a code (R232, R233). -/
def bandOut (c : Nat) : Dest :=
  if c < 64 then .lane (6 + c / 4) (c % 4) (stitchKey (6 + c / 4) 0) (8 + c % 4) 3 else .port (c - 64)

/-- Output `o` of the memory node of die `d` (R305). -/
def State.memOut (s : State) (d o : Nat) : Dest :=
  if o < 4 then .input (meshKey (s.physWin d 0 (3 * (o + 1)))) 1 1
  else if o = 4 then (match edgeStitch d 0 0 3 with | some (n, _) => .input n 12 1 | none => .nowhere)
  else if o = 5 then (match edgeStitch d 0 15 2 with | some (n, _) => .input n 12 1 | none => .nowhere)
  else if o < 8 then .input (stitchKey (6 + 2 * d + (o - 6)) 0) 12 1
  else .write (o - 8)

/-- Output `o` of a node. -/
def State.dest (s : State) (n o : Nat) : Dest :=
  match nodeKind n with
  | 1 => s.meshOut (n - 4096) o
  | 2 => s.stitchOut ((n - 8192) / 2) ((n - 8192) % 2) o
  | 3 => if o = 0 then bandOut (n - 12288) else .nowhere
  | _ => s.memOut (n - 16384) o

/-- The stitch whose lane input `code` of a node is, if it is one (R233). -/
def laneIn (n code : Nat) : Option Nat :=
  if n = crossing then (if code < 64 then some (6 + code / 4) else none)
  else if nodeKind n = 2 ∧ 8 ≤ code ∧ code < 12 then some ((n - 8192) / 2) else none

/-! Banks. -/

/-- The schedule slot of partition `q` that maps to tally `t` or before (R70). -/
def State.slotAt (s : State) (q t : Nat) : Nat :=
  let d := dilation (s.get .TIM_LAUNCH_STATE_DIL q)
  (s.part q).base + (((t + 2 ^ 56 - s.get .TIM_LAUNCH_AT_AT q) % 2 ^ 56 + 1) * d.2 - 1) / d.1

/-- The bank in force at schedule slot `sl` with its activation slot: the accepted switch with the highest B not after
the slot, else the active bank (R241, R247, R280). -/
def Slice.bankAt (x : Slice) (sl : Nat) : Bank × Bool :=
  let c : Option (Nat × Bool) := x.pending.foldl (fun m p =>
    if p.1 ≤ sl then (match m with | some y => if y.1 ≤ p.1 then some p else m | none => some p) else m) none
  match c with
  | some (b, toB) => ({ (if toB then x.b else x.a) with act := b }, toB)
  | none => (if x.activeB then x.b else x.a, x.activeB)

/-- The expected sequence of an entry that fires at schedule slot `sl`, if it does (R241). -/
def fires (b : Bank) (e : Entry) (sl : Nat) : Option Nat :=
  if e.valid ∧ b.act ≤ sl ∧ 0 < b.flen ∧ (sl - b.act) % b.flen = e.offset then
    some ((e.seq + (sl - b.act) / b.flen * e.sinc) % 2 ^ 16)
  else none

/-- The entries of partition `q` fire at schedule slot `sl`: its run is in progress, before the
finish boundary, and neither stopped nor halted there (R535, R544, R681). -/
def State.slotsRun (s : State) (q sl : Nat) : Bool :=
  s.runSt q == 3 && (s.part q).haltedAt.isNone && decide (sl < s.boundary q (s.image q).steps)
    && !(decide (2 ≤ s.get .DBG_HALT_STATE q) && decide (s.boundary q (s.get .DBG_HSTEP_STEP q) ≤ sl))

/-- The schedule slot of `q` that maps exactly to tally `t`, while its entries fire. -/
def State.liveSlot (s : State) (q t : Nat) : Option Nat :=
  let sl := s.slotAt q t
  if s.slotsRun q sl ∧ s.slotTally q sl = t % 2 ^ 56 then some sl else none

/-- Entry `k` of partition `q`'s slice of node `n` at tally `t`: the entry, its expected sequence and its bank, when it fires
then. A mesh node of a gated panel fires nothing. -/
def State.firing (s : State) (n q k t : Nat) : Option (Entry × Nat × Bank) :=
  if nodeKind n = 1 ∧ (s.panel (n - 4096)).gated then none
  else match s.liveSlot q t, look? (s.node n).slices q with
    | some sl, some x =>
      let b := (x.bankAt sl).1
      match b.entries[k]? with
      | some e => (fires b e sl).map (fun v => (e, v, b))
      | none => none
    | _, _ => none

/-- Does an entry of node `n` that fires at this tally take input `code`? -/
def State.takenAt (s : State) (n code : Nat) : Bool :=
  (s.node n).slices.any (fun x => match s.liveSlot x.1 s.tally with
    | some sl =>
      let b := (x.2.bankAt sl).1
      b.entries.any (fun e => e.inp == code && (fires b e sl).isSome)
    | none => false)

/-- Is input `code` of node `n`, or of the band crossing, taken at this tally (R231, R244, R251)? -/
def State.inputTaken (s : State) (n code : Nat) : Bool :=
  if n = crossing then (List.range 96).any (fun c => s.takenAt (bandKey c) code) else s.takenAt n code

/-- The tuft available on an input now. A stitch that is down gives none (R296). -/
def State.atInput (s : State) (n code : Nat) : Option Tuft :=
  let down := match laneIn n code with | some t => (s.stitchOf t).down | none => false
  if down then none
  else ((look [] (s.node n).inputs code).find? (fun e => e.1 == s.tally)).map (·.2)

/-- A tuft will be available at an input at tally `t` (R232). Arrivals of earlier slots are no longer there. -/
def State.arriveAt (s : State) (n code t : Nat) (x : Tuft) : State :=
  let y := s.node n
  let l := (look [] y.inputs code).filter (fun e => decide (0 ≤ cmp32 e.1 s.tally) && e.1 != t)
  s.setNode n { y with inputs := ins y.inputs code (l ++ [(t, x)]) }

end Sys2Proof.Machine
end

