-- ==== Sys2Proof/Machine/PortMsg.lean ====
section
/-! DEFINITION. What a port sends beside its cells, as bytes: the alignment block, the messages of maintenance blocks and the blocks
(R254, R353, R462, R775). -/
namespace Sys2Proof.Machine

/-- The alignment block (R254). -/
def alignBytes : List Byte := (List.range 32).flatMap (fun _ => [0x96, 0x69])

/-- The 36 bytes of a conformateur message of a KIND (table Conformateur message). -/
def confBytes (kind : Nat) (m : ConfMsg) : List Byte :=
  toLE 1 kind ++ toLE 2 (m.coord % 2 ^ 12) ++ toLE 1 (m.port % 2 ^ 6 + b2n m.bsize * 2 ^ 6 + b2n m.rackset * 2 ^ 7)
    ++ toLE 8 m.t1 ++ toLE 8 m.t2 ++ toLE 8 m.t3 ++ toLE 2 m.seq ++ toLE 1 m.hops ++ toLE 2 (m.crown % 2 ^ 12) ++ toLE 3 0

/-- A conformateur message read; its reserved bits are not looked at. -/
def readConf (b : List Byte) : ConfMsg :=
  let p := fieldLE b 3 1
  { coord := bits (fieldLE b 1 2) 0 12, port := bits p 0 6, bsize := bit p 6, rackset := bit p 7, t1 := fieldLE b 4 8,
    t2 := fieldLE b 12 8, t3 := fieldLE b 20 8, seq := fieldLE b 28 2, hops := fieldLE b 30 1, crown := bits (fieldLE b 31 2) 0 12 }

/-- The 36 bytes of a control fragment (table Control fragment). -/
def fragBytes (f : Fragment) : List Byte :=
  toLE 1 (if f.ackOnly then 0x21 else 0x20) ++ toLE 1 (f.fseq % 16 + f.ackseq % 16 * 16)
    ++ toLE 1 (f.fidx % 64 + b2n f.last * 64 + b2n f.ackv * 128) ++ toLE 1 0
    ++ (if f.ackOnly then List.replicate 32 0 else (f.data ++ List.replicate 32 0).take 32)

/-- A control fragment read. -/
def readFrag (b : List Byte) : Fragment :=
  let x := fieldLE b 1 1
  let y := fieldLE b 2 1
  { ackOnly := fieldLE b 0 1 == 0x21, fseq := x % 16, ackseq := x / 16, fidx := y % 64, last := bit y 6, ackv := bit y 7,
    data := (b.drop 4).take 32 }

/-- KIND of a sync message. The spec gives sync messages no layout (log entry 143). -/
def syncKind : Nat := 0x10

/-- The MSG bytes of a message. A sync message has its times where a conformateur message has them; with no message to send MSG is 0
(log entry 143). -/
def msgBytes (m : MaintMsg) : List Byte :=
  match m with
  | .none => List.replicate 36 0
  | .sync t1 t2 t3 => toLE 1 syncKind ++ toLE 3 0 ++ toLE 8 t1 ++ toLE 8 t2 ++ toLE 8 t3 ++ toLE 8 0
  | .probe m => confBytes 1 { m with t2 := 0, t3 := 0, crown := 0 }
  | .reply m => confBytes 2 { m with crown := 0 }
  | .advert m => confBytes 3 { m with t1 := 0, t2 := 0, t3 := 0, seq := 0 }
  | .frag f => fragBytes f

/-- The message that MSG bytes carry; none for a reserved KIND. -/
def readMsg (b : List Byte) : MaintMsg :=
  let k := fieldLE b 0 1
  if k = 1 then .probe (readConf b)
  else if k = 2 then .reply (readConf b)
  else if k = 3 then .advert (readConf b)
  else if k = syncKind then .sync (fieldLE b 4 8) (fieldLE b 12 8) (fieldLE b 20 8)
  else if k = 0x20 ∨ k = 0x21 then .frag (readFrag b)
  else .none

/-- Bytes 0-43 of a maintenance block: up to four valid NAK words and MSG (table Maintenance block). -/
def blockHead (naks : List Nat) (m : MaintMsg) : List Byte :=
  ((naks.take 4).flatMap (fun l => toLE 2 (l % 2 ^ 13 + 2 ^ 15)) ++ List.replicate 8 0).take 8 ++ msgBytes m

/-- The 48 bytes of a maintenance block with its MCRC (R254, R775). -/
def blockBytes (naks : List Nat) (m : MaintMsg) : List Byte := blockHead naks m ++ toLE 4 (crc32 (blockHead naks m))

/-- A block that FEC could repair, of full length, whose MCRC holds (R254, R775). -/
def blockGood (b : MaintBlock) : Bool :=
  !b.uncorrectable && b.bytes.length == 48 && fieldLE b.bytes 44 4 == crc32 (b.bytes.take 44)

/-- The LSNs that the valid NAK words of a block name. -/
def blockNaks (bs : List Byte) : List Nat :=
  (List.range 4).filterMap (fun i => let w := fieldLE bs (2 * i) 2; if bit w 15 then some (w % 2 ^ 13) else none)

/-- The message of a block. -/
def blockMsg (bs : List Byte) : MaintMsg := readMsg ((bs.drop 8).take 36)

end Sys2Proof.Machine
end

