-- ==== Sys2Proof/Machine/Time.lean ====
section
/-! DEFINITION. The tally commands: TREF, tally-set, sync exchange, TALLY_EVT, TALLY_CAP (R42-R60, R74-R77, R87-R89). -/
namespace Sys2Proof.Machine

/-- One slot passes: the tally and the local tick advance by 1 (R42, R61), and an edge of the slot clock is counted. -/
def State.advance (s : State) : State :=
  let s := (s.set .TIM_TALLY_TALLY (s.tally + 1)).set .TIM_TICK_TICK (s.tick + 1)
  { s with tb := { s.tb with slots := s.tb.slots + 1 } }

/-- LOCK is cleared and the tally withdrawn from the system tally (R779). -/
def State.withdraw (s : State) : State :=
  { s.set .TIM_STATUS_LOCK 0 with tb := { s.tb with lockOk := false, goodExch := 0 } }

/-- A device that is not the crown and has no parent keeps LOCK at 0 (R49). -/
def State.orphan (s : State) : Bool := !s.is .TIM_CTRL_CROWN && s.get .TIM_SYNC_PARENT_PORT == 0x3F

/-- LOCK falls where R49 keeps it at 0; exchanges with a later parent are counted afresh (log entry 128). -/
def State.holdLock (s : State) : State :=
  if s.orphan then { s.set .TIM_STATUS_LOCK 0 with tb := { s.tb with goodExch := 0 } } else s

/-- A fault of the tally in every running partition (R55, R85). The spec gives no SRCK for the tally: a free value
among the defined kinds (log entry 12). -/
def State.tallyFault (s : State) (code : Nat) : State :=
  let k := s.freeV % 7
  (List.range 128).foldl (fun s q =>
    if s.runSt q = 3 then
      s.sendPk 22 false (localPk 22 18 q (.fault { part := q, code := code, srck := k, step := some (s.curStep q) }))
    else s) s.fresh

/-- TREF_LOST (R45, R85, R721, R779). -/
def execTrefLost (s : State) : Host.Outcome State Fault Refusal :=
  let run := (List.range 128).any (fun q => s.runSt q == 3)
  let s := s.raiseEv { code := 0x1001 }
  let s := (((s.withdraw).set .TIM_STATUS_TREF_LOST 1).set .TIM_STATUS_TREF_PRESENT 0)
  let s := { s with tb := { s.tb with holdover := true } }
  .next (if run then (s.set .TIM_STATUS_SLIP 1).tallyFault 0x1001 else s)

/-- TREF_RETURN (R45): the slot clock returns to TREF; no tally count is added or removed. -/
def execTrefReturn (s : State) : Host.Outcome State Fault Refusal :=
  .next { s.set .TIM_STATUS_TREF_PRESENT 1 with tb := { s.tb with holdover := false } }

/-- Latency of the link on `port` in 1/64 slot: LNK_P_LAT (R47, R354). -/
def State.linkLat (s : State) (port : Nat) : Nat := s.get .LNK_P_LAT_LAT port

/-- Ports in conformateur state 1 or 2 (R48, R49). -/
def State.conformed (s : State) : List Nat :=
  (List.range 32).filter (fun p => s.get .LNK_P_CONF_STATE p == 1 || s.get .LNK_P_CONF_STATE p == 2)

/-- A tally-set leaves on `port` with the value of R47: own tally plus the link's latency. -/
def State.sendTallySet (s : State) (port : Nat) : State :=
  let v := s.tally * 64 + s.linkLat port
  s.emit (.tallySet port (v / 64 % 2 ^ 56) (v % 64))

/-- The system tally-set of R48. -/
def State.setAll (s : State) : State :=
  if s.is .TIM_CTRL_CROWN && !s.anyBusy then
    let s := s.conformed.foldl State.sendTallySet s
    let s := { s with tb := { s.tb with lockOk := true, goodExch := 0 } }
    if s.is .TIM_STATUS_CONFLICT then s else s.set .TIM_STATUS_LOCK 1
  else s.set .TIM_STATUS_SET_REFUSED 1

/-- SET_ALL (R46, R48): the write of TIM_CTRL. -/
def execSetAll (who v : Nat) (s : State) : Host.Outcome State Fault Refusal :=
  let s := (plainWrite who s (addrOf .TIM_CTRL_SET_ALL) v).holdLock
  .next (if privileged who && bit v 3 then s.setAll else s)

/-- TALLY_SET (R46, R47, R49, R50, R89, R372): a tally-set arrives on `port`. -/
def execTallySet (port value frac : Nat) (s : State) : Host.Outcome State Fault Refusal :=
  if port < 32 ∧ port = s.get .TIM_SYNC_PARENT_PORT then
    if s.is .TIM_CTRL_SET_ACCEPT && !s.anyBusy && !s.is .TIM_CTRL_CROWN then
      let s := ((s.set .TIM_TALLY_TALLY value).set .TIM_PHASE_BASE_BASE frac).set .TIM_PHASE_TRIM 0
      let s := { s with tb := { s.tb with lockOk := true, goodExch := 0, exch := [] } }
      .next ((s.conformed.filter (· ≠ port)).foldl State.sendTallySet s)
    else .next (s.raiseEv { code := 0x1004, detail := value % 2 ^ 56 })
  else .next s

/-- SYNC_EXCHANGE (R51): the child's tally has bits [11:0] equal to 0; the cell on the parent port will carry MARK. -/
def execSyncExchange (s : State) : Host.Outcome State Fault Refusal :=
  let p := s.get .TIM_SYNC_PARENT_PORT
  if s.tally % 4096 = 0 ∧ p < 32 ∧ s.is .LNK_P_STAT_UP p then
    .next { s with tb := { s.tb with exch := s.tb.exch ++ [(s.tally * 64, none)], marks := s.tb.marks ++ [p],
                                     syncMsgs := s.tb.syncMsgs ++ [(p, s.tally * 64, 0, 0)] } }
  else .next s

/-- The first slot at or after `x` in which a port sends a link cell: a cell slot or a replay slot (R51, R252, R254). -/
def linkCellSlot (x : Nat) : Nat := (if x % 32 = 29 ∨ x % 32 = 31 then x + 1 else x) % 2 ^ 56

/-- SYNC_MARK_ARRIVE (R51): the parent records t2 and x. -/
def execSyncMarkArrive (port t2 : Nat) (s : State) : Host.Outcome State Fault Refusal :=
  let y : SyncSide := { t1 := (look {} s.tb.parent port).t1, t2 := t2, x := (t2 / 64 + 128) % 2 ^ 56 }
  .next { s with tb := { s.tb with parent := ins s.tb.parent port y } }

/-- SYNC_REPLY (R51): the parent marks the first link cell it sends to the child at or after x; t3 is that slot's edge. -/
def execSyncReply (port : Nat) (s : State) : Host.Outcome State Fault Refusal :=
  match look? s.tb.parent port with
  | some y =>
    if y.t3.isNone ∧ s.tally = linkCellSlot y.x then
      .next { s with tb := { s.tb with parent := ins s.tb.parent port { y with t3 := some (s.tally * 64) },
                                       marks := s.tb.marks ++ [port],
                                       syncMsgs := s.tb.syncMsgs ++ [(port, y.t1, y.t2, s.tally * 64)] } }
    else .next s
  | none => .next s

/-- The oldest exchange without a reply takes the arrival `t4` of its reply cell: cells of one link keep their order. -/
def takeReply (t4 : Nat) : List (Nat × Option Nat) → List (Nat × Option Nat)
  | [] => []
  | (t1, none) :: r => (t1, some t4) :: r
  | e :: r => e :: takeReply t4 r

/-- SYNC_REPLY_ARRIVE (R51): the child records t4. -/
def execSyncReplyArrive (t4 : Nat) (s : State) : Host.Outcome State Fault Refusal :=
  .next { s with tb := { s.tb with exch := takeReply t4 s.tb.exch } }

/-- The trim as a signed count of 1/64 slot. -/
def State.trim (s : State) : Int := sint 7 (s.get .TIM_PHASE_TRIM)

/-- A measured offset as the 8-bit number in an event's DETAIL. The table does not say what an offset outside 8 bits shows: it
saturates (log entry 129). -/
def offsetDetail (off : Int) : Nat := ofSint 8 (max (-128) (min 127 off))

/-- Half of `n2`; the rounding of an odd sum is the free choice `up` (log entry 13). -/
def halfOf (n2 : Int) (up : Nat) : Int := if n2 % 2 = 0 then n2 / 2 else n2 / 2 + (up % 2 : Nat)

/-- Effect of a measured offset. `n2` is twice the offset of R52 in 1/64 slot, so that every comparison is exact; the
rounding of an odd sum is free (log entry 13). -/
def State.syncOffset (s : State) (n2 : Int) : State :=
  let off := halfOf n2 s.freeV
  let s := s.fresh
  let s := (s.set .TIM_PHASE_OFFSET (ofSint 8 (max (-127) (min 127 off)))).set .TIM_PHASE_EXCH (s.get .TIM_PHASE_EXCH + 1)
  let mag := n2.natAbs
  let atLimit := (0 < n2 ∧ s.trim = 16) ∨ (n2 < 0 ∧ s.trim = -16)
  let s := if 32 < mag ∧ atLimit then
      (s.set .TIM_STATUS_SERVO_LIMIT 1).raiseEv { code := 0x1003, detail := offsetDetail off } else s
  let s := if s.is .TIM_CTRL_SERVO_EN && !s.is .TIM_CTRL_CROWN then
      let t := if n2 > 0 then min 16 (s.trim + 1) else if n2 < 0 then max (-16) (s.trim - 1) else s.trim
      s.set .TIM_PHASE_TRIM (ofSint 7 t) else s
  if 64 < mag then
    let s := (s.raiseEv { code := 0x1002, detail := offsetDetail off }).withdraw
    (s.set .TIM_STATUS_SLIP 1).tallyFault 0x1002
  else
    let good := if mag ≤ 16 then s.tb.goodExch + 1 else 0
    let s := { s with tb := { s.tb with goodExch := min 16 good } }
    if good ≥ 16 ∧ s.tb.lockOk ∧ ¬ s.is .TIM_STATUS_CONFLICT ∧ ¬ s.orphan then s.set .TIM_STATUS_LOCK 1 else s

/-- The difference of two times in 1/64 slot, across the wrap of the tally (R42). -/
def timeDiff (a b : Nat) : Int := sint 62 (ofSint 62 ((a : Int) - (b : Int)))

/-- The sync values of an exchange reach the child, which holds its t1 and t4 (R51, R52). -/
def State.syncVals (s : State) (t1 t2 t3 : Nat) : State :=
  match s.tb.exch.find? (fun e => e.1 == t1 && e.2.isSome) with
  | some (a, some d) =>
    let out := timeDiff t2 a
    let back := timeDiff d t3
    let s := { s with tb := { s.tb with exch := s.tb.exch.erase (a, some d), pathLat := halfOf (out + back) (s.freeV / 2) } }
    s.syncOffset (out - back)
  | _ => s

/-- SYNC_VALUES (R51-R55, R84, R779). -/
def execSyncValues (t1 t2 t3 : Nat) (s : State) : Host.Outcome State Fault Refusal := .next (s.syncVals t1 t2 t3)

/-! TALLY_EVT (R74, R75, R88). -/

/-- The pulse period of R74 in slots, 0 for one-shot. -/
def evtPeriod (n : Nat) : Nat := if n = 0 then 0 else 2 ^ (min 40 (max 12 n))

/-- TALLY_EVT's active level (TIM_EVT_CTRL.POLARITY). -/
def State.evtActive (s : State) : Bool := !s.is .TIM_EVT_CTRL_POLARITY

/-- TALLY_EVT stands at its active level during a pulse and at its idle level outside one; a change reaches the pin. -/
def State.evtPin (s : State) : State :=
  let l := if s.tb.evtEnd.isSome then s.evtActive else !s.evtActive
  if l = s.tb.evtLevel then s
  else ({ s with tb := { s.tb with evtLevel := l } } : State).emit (.pin "TALLY_EVT" l)

/-- The pulse schedule that the registers give, from TIM_EVT_AT and PERIOD. -/
def State.evtPlan (s : State) : Nat × Nat := (s.get .TIM_EVT_AT_AT, evtPeriod (s.get .TIM_EVT_CTRL_PERIOD))

/-- A write that sets ARM (R75): a count at or before the tally is missed. The schedule is fixed at the arming; a PERIOD written
while ARM is 1 acts at the next arming or write of TIM_EVT_AT (log entry 130). -/
def State.evtArm (s : State) (arm : Bool) : State :=
  if arm then
    if s.is .TIM_EVT_CTRL_ARM then s
    else if s.get .TIM_EVT_AT_AT ≤ s.tally then s.set .TIM_EVT_CTRL_MISSED 1
    else { s.set .TIM_EVT_CTRL_ARM 1 with tb := { s.tb with evtSched := some s.evtPlan, evtWas := none } }
  else { s.set .TIM_EVT_CTRL_ARM 0 with tb := { s.tb with evtSched := none, evtWas := none } }

/-- A write of TIM_EVT_CTRL (R75). -/
def State.evtCtrlWrite (s : State) (who v : Nat) : State :=
  let s := plainWrite who s (addrOf .TIM_EVT_CTRL_ARM) v
  if privileged who then (s.evtArm (bit v 0)).evtPin else s

/-- TIM_EVT_ARM (R75): the write of TIM_EVT_CTRL. -/
def execTimEvtArm (who v : Nat) (s : State) : Host.Outcome State Fault Refusal := .next (s.evtCtrlWrite who v)

/-- The schedule in force in this slot: a count written while armed acts from the next slot (R88). -/
def State.evtNow (s : State) : Option (Nat × Nat) :=
  match s.tb.evtWas with
  | some (n, old) => if n = s.tb.slots then old else s.tb.evtSched
  | none => s.tb.evtSched

/-- Does a schedule pulse at tally `t` (R60, R74)? -/
def evtDue (x : Nat × Nat) (t : Nat) : Bool := decide (x.1 ≤ t) && (t - x.1) % x.2 == 0

/-- A write of TIM_EVT_AT (R88). -/
def State.evtAt (s : State) (v : Nat) : State :=
  let was := s.evtNow
  let s := s.set .TIM_EVT_AT_AT v
  if s.is .TIM_EVT_CTRL_ARM then
    let s := { s with tb := { s.tb with evtWas := some (s.tb.slots, was) } }
    if s.get .TIM_EVT_AT_AT ≤ s.tally ∧ s.evtPlan.2 = 0 then
      { (s.set .TIM_EVT_CTRL_MISSED 1).set .TIM_EVT_CTRL_ARM 0 with tb := { s.tb with evtSched := none } }
    else { s with tb := { s.tb with evtSched := some s.evtPlan } }
  else s

/-- TIM_EVT_AT_WRITE (R88). -/
def execTimEvtAtWrite (who v : Nat) (s : State) : Host.Outcome State Fault Refusal :=
  .next (if privileged who then s.evtAt (v % 2 ^ 56) else s)

/-- TALLY_EVT_PULSE (R74): the tally reaches a count of the schedule. A one-shot schedule has then run out. -/
def execTallyEvtPulse (s : State) : Host.Outcome State Fault Refusal :=
  match s.evtNow with
  | some x =>
    if evtDue x s.tally then
      let w := max 1 (s.get .TIM_EVT_CTRL_WIDTH)
      let left := if x.2 = 0 ∧ s.tb.evtSched = some x then none else s.tb.evtSched
      .next ({ s with tb := { s.tb with evtEnd := some (s.tb.slots + w), evtSched := left } } : State).evtPin
    else .next s
  | none => .next s

/-- TALLY_EVT_END (R74): the pulse has lasted its width; after a one-shot pulse ARM clears, unless a count written during it is
still to come (R88, log entry 130). -/
def execTallyEvtEnd (s : State) : Host.Outcome State Fault Refusal :=
  if s.tb.evtEnd == some s.tb.slots then
    let s := ({ s with tb := { s.tb with evtEnd := none } } : State).evtPin
    .next (if s.tb.evtSched.isNone then s.set .TIM_EVT_CTRL_ARM 0 else s)
  else .next s

/-- TALLY_CAP_EDGE (R76, R77, R87): an edge on TALLY_CAP. An edge while TIM_CAP_CTRL.ENABLE is 0 starts no interval (log entry 131);
the interval is counted on the slot clock, whatever a tally-set does. -/
def execTallyCapEdge (rising : Bool) (frac : Nat) (s : State) : Host.Outcome State Fault Refusal :=
  if s.is .TIM_CAP_CTRL_ENABLE && rising == !s.is .TIM_CAP_CTRL_EDGE then
    let near := match s.tb.capLast with
      | some n => decide (s.tb.slots < n + 8)
      | none => false
    let s := { s with tb := { s.tb with capLast := some s.tb.slots } }
    if near || decide (s.tb.cap.length ≥ 8) then .next (s.inc .TIM_CAP_OVF_LOST)
    else .next { s with tb := { s.tb with cap := s.tb.cap ++ [{ tally := s.tally, frac := frac % 64 }] } }
  else .next s

end Sys2Proof.Machine
end

