-- ==== Sys2Proof/Machine/DataPlane.lean ====
section
/-! DEFINITION. Slot-table entries, memory nodes, stray tufts and bank switches (R231-R251, R264-R266, R305-R318, R466). -/
namespace Sys2Proof.Machine

/-! Reports. -/

/-- A fault of a node in the member's current step. -/
def State.nodeMsg (s : State) (n q code : Nat) : FaultMsg :=
  if nodeKind n = 1 then { part := q, code := code, panel := nodeIndex n, step := some (s.curStep q), srck := 1 }
  else { part := q, code := code, step := some (s.curStep q), srck := nodeKind n, node := nodeIndex n }

/-- A node reports a fault at once (R248, R314, R468). -/
def State.nodeReport (s : State) (n q code detail : Nat) : State := s.raiseFault (s.nodeMsg n q code) detail

/-- A node reports a fault at the end of the step: a mesh node with its panel's report, another node in the last slots of the member's
current step (R244, R265, log entry 23). -/
def State.nodePend (s : State) (n q code detail : Nat) : State :=
  let f := s.nodeMsg n q code
  if nodeKind n = 1 then s.pnlPend (n - 4096) (f, detail, true) else s.endPend q (none, f, detail, true)

/-- The reports of partition `q` whose step ends now go out (R244, R265). -/
def State.stepEnd (s : State) (q : Nat) : State :=
  let p := s.part q
  let due := p.ends.filter (fun e => s.stepEnding q (e.2.1.step.getD 0))
  due.foldl (fun s e => s.reportEnd e) (s.setPart q { p with ends := p.ends.filter (fun e => !s.stepEnding q (e.2.1.step.getD 0)) })

/-- One slot passes (R42, R61), and reports that wait for the end of a step go out. -/
def State.passSlot (s : State) : State :=
  ((s.advance.parts.filter (fun e => !e.2.ends.isEmpty)).map (·.1)).foldl State.stepEnd s.advance

/-- The first node to set POISON on a tuft records one event (R266). -/
def State.poisonEvent (s : State) (n q stream seq cause : Nat) : State :=
  s.raiseEv { code := 0x3001, part := some q, skind := nodeKind n, sindex := nodeIndex n,
              detail := stream % 2 ^ 24 + seq % 2 ^ 16 * 2 ^ 24 + cause * 2 ^ 40 }

/-- A substitute tuft (R243). -/
def substitute (stream seq : Nat) : Tuft := sealed { stream := stream, seq := seq, poison := true, late := true }

/-- The node sends a substitute instead of a tuft: counted, and an origin of poison (R243, R258, R264). -/
def State.subst (s : State) (n q stream seq cause : Nat) : State × Tuft :=
  ((s.inc .LNK_SUBST_COUNT).poisonEvent n q stream seq cause, substitute stream seq)

/-! HBM units (R304, R310, R315-R318). -/

/-- Device-local address of unit `u` of the stack of die `d`. -/
def unitAddr (d u : Nat) : Nat := (8 * u + d) * 256

/-- The stack and the stack-local byte address of a device-local HBM address (R304). -/
def stackOf (a : Nat) : Nat := a / 256 % 8
def stackLocal (a : Nat) : Nat := a / 2048 * 256 + a % 256

/-- Contents of the unit at `a` before every scheduled write that fired in the last `n` slots or in this one (R310). -/
def State.unitBefore (s : State) (a n : Nat) : List Byte × Bool :=
  match s.hbm.recent.find? (fun e => e.2.1 == a && decide (s.tb.slots ≤ e.1 + n)) with
  | some e => (e.2.2.1, !e.2.2.2.isEmpty)
  | none => (s.hbmRead a 256, s.hbmPoisoned a 256)

/-- A scheduled write of a unit; its words carry `psn` (R307, R318). -/
def State.unitWrite (s : State) (a : Nat) (bs : List Byte) (psn : Bool) : State :=
  let old := (s.tb.slots, a, s.hbmRead a 256, (words a 256 32).filter (fun w => look false s.hbm.poison w))
  let r := s.hbm.recent.filter (fun e => decide (s.tb.slots ≤ e.1 + 512))
  (({ s with hbm := { s.hbm with recent := r ++ [old] } } : State).hbmWrite a bs).hbmMark a 256 psn

/-- The remembered contents of units that scheduled writes changed take another store too: it is visible to every scheduled read issued
from then on (R310, R313). -/
def patched (a : Nat) (bs : List Byte) (e : Nat × Nat × List Byte × List Nat) : Nat × Nat × List Byte × List Nat :=
  (e.1, e.2.1, e.2.2.1.zipIdx.map (fun b => if a ≤ e.2.1 + b.2 ∧ e.2.1 + b.2 < a + bs.length then bs.getD (e.2.1 + b.2 - a) 0 else b.1),
    e.2.2.2.filter (fun w => !(decide (a ≤ 32 * w) && decide (32 * w + 32 ≤ a + bs.length))))

/-- A store to HBM that no slot-table entry makes; it clears the poison of the words it fills (R312, R313, R318, R334). -/
def State.hbmStore (s : State) (a : Nat) (bs : List Byte) : State :=
  let s : State := { s with hbm := { s.hbm with recent := s.hbm.recent.map (patched a bs) } }
  (s.hbmWrite a bs).hbmClean a bs.length

/-- ACHK of a stack-local unit index: the exclusive-or of its five-bit fields (R315). -/
def achk (u : Nat) : Nat := (List.range 10).foldl (fun x i => x ^^^ bits u (5 * i) 5) 0

/-- The 16 check bits of the 32-byte word at device-local address `a` (table HBM word check bits). The code of SECDED is free
(log entry 144). -/
def State.checkBits (s : State) (a : Nat) : Nat :=
  let p := look false s.hbm.poison (a / 32)
  Config.secded (ofLE (s.hbmRead (a / 32 * 32) 32)) p % 2 ^ 10 + b2n p * 2 ^ 10 + achk (a / 2048) * 2 ^ 11

/-- An event of an HBM stack. -/
def State.stackEvent (s : State) (code d : Nat) (part : Option Nat) (detail : Nat) : State :=
  s.raiseEv { code := code, part := part, skind := 10, sindex := d, detail := detail }

/-- A corrected or uncorrectable HBM word at device-local address `a` (R316, R317). A launch's stamp counts corrected
errors of its own reads (R585). -/
def State.hbmEcc (s : State) (a : Nat) (part : Option Nat) (e : Ecc) : State :=
  let d := stackOf a
  match e with
  | .single =>
    let s := (s.inc .MEM_S_CE_COUNT d).stackEvent 0x5004 d part (stackLocal a)
    match part with | some q => s.inc .CHK_CE_CNT_COUNT q | none => s
  | .double => ((s.inc .MEM_S_UE_COUNT d).set .MEM_S_ADDR_ADDR (stackLocal a) d).stackEvent 0x5005 d part (stackLocal a)
  | _ => s

/-- Three and more wrong bits are detected, miscorrected or missed: a free choice (log entry 27). A word of another unit comes with the
check bits of that unit's index. -/
def State.eccKind (s : State) (e : Ecc) (a : Nat := 0) : Ecc :=
  match e with
  | .many => (match s.freeV % 3 with | 0 => .double | 1 => .single | _ => .clean)
  | .unit u => if achk u = achk (a / 2048) then .clean else .double
  | e => e

/-- What a read with more than one wrong bit returns is free. -/
def State.eccData (s : State) (e : Ecc) (bs : List Byte) : List Byte :=
  if e = .many ∨ e = .double then toLE bs.length s.fresh.freeV else bs

/-- The address that a read of HBM reaches: an address error leads to the same place of another unit of the stack (R315). -/
def eccAddr (e : Ecc) (a : Nat) : Nat := match e with | .unit u => unitAddr (stackOf a) u + a % 256 | _ => a

/-- The 32-byte word in which an ECC error of a read of `n` bytes at `a` was found: the surroundings choose it. -/
def State.eccWord (s : State) (a n : Nat) : Nat :=
  let ws := words a n 32
  32 * ws.getD (s.fresh.fresh.freeV % ws.length) (a / 32)

/-! Sources. -/

/-- A tuft with the state after it was taken. -/
abbrev Taken := State × Tuft

/-- The local port of a mesh node departs tuft `seq` (R204, R205, R235, R245). WATCH is a free value: the spec does not
say which streams are watch-visible (log entry 28). -/
def State.takeLocal (s : State) (n q : Nat) (en : Entry) (seq : Nat) (e : Ecc) : Taken :=
  let r := s.depart (n - 4096) q en.bind seq en.stream e
  match r.2 with
  | some d =>
    let w := r.1.freeV % 2 == 1
    let t : Tuft := sealed { payload := d.payload, stream := en.stream, seq := seq, step := d.step % 2 ^ 16, poison := d.psn,
                             late := d.late, last := d.last, fuller := d.fuller, watch := w }
    let s := r.1.fresh
    (if d.psn then s.poisonEvent n q en.stream seq 1 else s, t)
  | none => r.1.subst n q en.stream seq 2

/-- An HBM read port departs unit UBASE + `seq` (R307, R309, R314, R317, R318). Data held for the entry since 512 slots
ago is used; else what R310 states. -/
def State.takeHbm (s : State) (n q k : Nat) (en : Entry) (seq : Nat) (b : Bank) (e : Ecc) : Taken :=
  let d := n - 16384
  let mb := look {} b.binds en.bind
  if mb.limit < seq then
    let r := s.subst n q en.stream seq 4
    (r.1.nodeReport n q 0x3005 (en.bind + seq * 256), r.2)
  else
    let a := unitAddr d (mb.ubase + seq)
    let y := s.node n
    let h := y.held.find? (fun h => h.at_ == s.tally && h.q == q && h.k == k)
    let c : List Byte × Bool := match h with
      | some h => (h.bytes, h.psn)
      | none => s.unitBefore (eccAddr e a) 512
    let s := s.setNode n { y with held := y.held.filter (fun h => decide (0 < cmp32 h.at_ s.tally)
      || (h.at_ == s.tally && !(h.q == q && h.k == k))) }
    let bs := s.eccData e c.1
    let ek := s.eccKind e a
    let s := (s.fresh.fresh.fresh.hbmEcc (s.eccWord a 256) (some q) ek).set .DBG_C_HBM_SRD_BYTES (s.get .DBG_C_HBM_SRD_BYTES q + 256) q
    let t := sealed { payload := bs, stream := en.stream, seq := seq, step := mb.tag, last := seq == mb.limit,
                      poison := c.2 || ek == .double }
    let s := if ek = .double then s.poisonEvent n q en.stream seq 1
      else if c.2 then s.poisonEvent n q en.stream seq 6 else s
    (s, t)

/-- The last step in which a tuft delivered now can have departed on port `p`: that of the schedule slot D before (R257, log entry
145). -/
def State.departStep (s : State) (q p : Nat) : Nat := s.stepOf q (s.slotAt q s.tally - s.get .LNK_P_PATH_ALLOW p)

/-- The delivery buffer of port `p` gives the tuft the entry expects, and the same to every band output node that takes it in this slot
(R251, R258). The substitute's origin is the band output node of the port (R273). -/
def State.takePort (s : State) (q p : Nat) (en : Entry) (seq : Nat) : Taken :=
  let x := s.port p
  let now := x.taken.filter (fun e => e.1 == s.tally)
  match now.find? (fun e => e.2.stream == en.stream && e.2.seq == seq) with
  | some e => (s, e.2)
  | none => match x.delivery.find? (fun e => e.2.stream == en.stream && e.2.seq == seq) with
    | some e =>
      let s := s.setPort p { x with delivery := x.delivery.erase e, taken := now ++ [(s.tally, e.2)] }
      let s := s.set .DBG_C_PORT_RX_TUFTS (s.get .DBG_C_PORT_RX_TUFTS q + 1) q
      (if e.1 = 2 then s.inc .LNK_P_RPL_OK_COUNT p else s, e.2)
    | none =>
      (s.setPort p { x with missed := x.missed ++ [(en.stream, seq, s.departStep q p)],
                            taken := now ++ [(s.tally, substitute en.stream seq)] }).subst (bandKey (64 + p)) q en.stream seq 4

/-- An input without storage gives the tuft available now; one whose STREAM or SEQ disagrees is poisoned (R242, R243). -/
def State.takeInput (s : State) (n q : Nat) (en : Entry) (seq : Nat) : Taken :=
  match s.atInput (if nodeKind n = 3 then crossing else n) en.inp with
  | some t =>
    if t.stream = en.stream ∧ t.seq = seq then (s, t)
    else
      let s := s.inc .LNK_MISMATCH_COUNT
      (if t.poison then s else s.poisonEvent n q t.stream t.seq 3, { t with poison := true })
  | none => s.subst n q en.stream seq 4

/-- The tuft an entry takes on IN. -/
def State.take (s : State) (n q k : Nat) (en : Entry) (seq : Nat) (b : Bank) (e : Ecc) : Taken :=
  match nodeKind n with
  | 1 => if en.inp = 0 then s.takeLocal n q en seq e else s.takeInput n q en seq
  | 3 => if 64 ≤ en.inp then s.takePort q (en.inp - 64) en seq else s.takeInput n q en seq
  | 4 => if 8 ≤ en.inp then s.takeHbm n q k en seq b e else s.takeInput n q en seq
  | _ => s.takeInput n q en seq

/-! Destinations. -/

/-- CHECK is verified at consumption (R237): the state, and whether the payload must not be used. -/
def State.verify (s : State) (n q : Nat) (t : Tuft) : State × Bool :=
  if t.check = checkOf t then (s, t.poison)
  else
    let s := s.inc .LNK_CRC_FAIL_COUNT
    (if t.poison then s else s.poisonEvent n q t.stream t.seq 5, true)

/-- A TUFT trace record at a consumption with WATCH = 1 (R694, R695). -/
def State.traceTuft (s : State) (n q step layer oper : Nat) (t : Tuft) : State :=
  if t.watch ∧ s.getBit .DBG_TRC_CTRL_EN 2 q then
    s.trace q 5 ((if nodeKind n = 1 then 0 else 4) * 4096 + nodeIndex n) step layer oper
      (t.stream % 2 ^ 24 + t.seq % 2 ^ 16 * 2 ^ 24 + t.step % 2 ^ 16 * 2 ^ 40 + tuftFlags t % 16 * 2 ^ 56)
  else s

/-- Delivery into receive binding `b` of a mesh node's panel (R206, R245, R265). -/
def State.recvTuft (s : State) (n q b : Nat) (t : Tuft) : State :=
  let p := n - 4096
  let v := s.verify n q t
  let r := v.1.deliver p q b t v.2
  if r.2 then
    let y := (r.1.panel p).rb b
    r.1.traceTuft n q (s.pnlStep p) y.layer y.oper t
  else r.1

/-- A tuft's payload is written to unit UBASE + `seq` (R307, R314, R318, R265). -/
def State.writeTuft (s : State) (n q : Nat) (en : Entry) (seq : Nat) (b : Bank) (t : Tuft) : State :=
  let mb := look {} b.binds en.bind
  if mb.limit < seq then s.nodeReport n q 0x3005 (en.bind + seq * 256)
  else
    let v := s.verify n q t
    let s := v.1.unitWrite (unitAddr (n - 16384) (mb.ubase + seq)) t.pay v.2
    let s := (s.set .DBG_C_HBM_SWR_BYTES (s.get .DBG_C_HBM_SWR_BYTES q + 256) q).traceTuft n q (s.curStep q) 0xFFFF 0xFFFF t
    if v.2 then s.nodePend n q 0x2008 (s.curStep q % 2 ^ 32 + 0xFFFFFFFF * 2 ^ 32) else s

/-- A copy departs on a port (R253, R257, R260): it waits for its cell slot. A port that is not up carries nothing. -/
def State.departPort (s : State) (q p : Nat) (t : Tuft) : State :=
  if s.is .LNK_P_STAT_UP p then
    let x := s.port p
    let d := s.slotAt q s.tally
    let lim := (s.slotTally q (d + s.get .LNK_P_PATH_ALLOW p) + 2 ^ 56 - s.get .LNK_P_PATH_FLIGHT p - 1) % 2 ^ 56
    s.setPort p { x with txQ := x.txQ ++ [{ part := q, dep := s.tally, limit := lim, tuft := t }] }
  else s

/-- One copy of a tuft goes out on output `o` (R232, R242). -/
def State.sendOut (s : State) (n q : Nat) (en : Entry) (seq : Nat) (b : Bank) (t : Tuft) (o : Nat) : State :=
  match s.dest n o with
  | .input m c lat => s.arriveAt m c ((s.tally + lat) % 2 ^ 56) t
  | .lane st l m c lat =>
    let s := s.set .DBG_LANE_TUFTS (s.get .DBG_LANE_TUFTS (4 * st + l) + 1) (4 * st + l)
    let s := s.set .DBG_C_STITCH_TUFTS (s.get .DBG_C_STITCH_TUFTS q + 1) q
    s.arriveAt m c ((s.tally + lat) % 2 ^ 56) t
  | .recv => s.recvTuft n q en.bind t
  | .port p => s.departPort q p t
  | .write _ => s.writeTuft n q en seq b t
  | .nowhere => s

/-- Output bits of an entry, lowest first. -/
def outs (en : Entry) : List Nat := (List.range 16).filter (fun o => bit en.out o)

/-- Does a band output node of a lower code take the same crossing input now (R251)? -/
def State.lowerTaker (s : State) (n code : Nat) : Bool :=
  nodeKind n == 3 && (List.range (n - 12288)).any (fun c => s.takenAt (bandKey c) code)

/-- An entry fires (R241-R243, R250, R251): every copy but the one on the lowest output leaves with FAN set. -/
def State.fire (s : State) (n q k : Nat) (en : Entry) (seq : Nat) (b : Bank) (e : Ecc) : State :=
  let r := s.take n q k en seq b e
  let t := { r.2 with fan := r.2.fan || s.lowerTaker n en.inp }
  match outs en with
  | [] => r.1
  | o :: os =>
    os.foldl (fun s o => s.sendOut n q en seq b { t with fan := true } o) (r.1.sendOut n q en seq b t o)

/-- An entry of a memory node that uses an HBM port. -/
def usesHbm (n : Nat) (en : Entry) : Bool := nodeKind n == 4 && (decide (8 ≤ en.inp) || decide (256 ≤ en.out))

/-- SLOT_ENTRY_FIRE (R241-R245, R250, R251, R258, R264, R266). An entry that uses an HBM port is MEMORY_NODE_ENTRY's. -/
def execSlotEntryFire (node q k : Nat) (e : Ecc) (s : State) : Host.Outcome State Fault Refusal :=
  match s.firing node q k s.tally with
  | some (en, seq, b) => if usesHbm node en then .next s else .next (s.fire node q k en seq b e)
  | none => .next s

/-- MEMORY_NODE_ENTRY (R307, R309, R310, R314, R316-R318, R333-R335). -/
def execMemoryNodeEntry (d q k : Nat) (e : Ecc) (s : State) : Host.Outcome State Fault Refusal :=
  match s.firing (memKey d) q k s.tally with
  | some (en, seq, b) => if usesHbm (memKey d) en ∧ s.boot.tripped = false then .next (s.fire (memKey d) q k en seq b e) else .next s
  | none => .next s

/-- MEM_READ_ISSUE (R309, R310): the read of the entry that fires 512 tally slots from now goes to the stack; it excludes
writes that fire in this slot. -/
def execMemReadIssue (d q k : Nat) (s : State) : Host.Outcome State Fault Refusal :=
  let n := memKey d
  let t := (s.tally + 512) % 2 ^ 56
  match s.firing n q k t with
  | some (en, seq, b) =>
    let mb := look {} b.binds en.bind
    if 8 ≤ en.inp ∧ seq ≤ mb.limit ∧ s.boot.tripped = false then
      let c := s.unitBefore (unitAddr d (mb.ubase + seq)) 0
      let y := s.node n
      .next (s.setNode n { y with held := y.held ++ [{ at_ := t, q := q, k := k, bytes := c.1, psn := c.2 }] })
    else .next s
  | none => .next s

/-- The running partition that a stray tuft is attributed to: the panel's, the lane's under PRT_LANES, else one with a slice
on the node (R268, R653). -/
def State.inputOwner (s : State) (n code : Nat) : Option Nat :=
  let runs (q : Nat) : Bool := s.runSt q == 3
  let owner : Option Nat := match laneIn n code with
    | some t =>
      let b := 4 * t + code % 4
      (List.range 128).find? (fun q => s.getBit .PRT_LANES_LANES (b % 32) (3 * q + b / 32))
    | none => if nodeKind n = 1 then (s.panel (n - 4096)).part else (((s.node n).slices.map (·.1)).find? runs)
  match owner with
  | some q => if runs q then some q else none
  | none => none

/-- The node that reports a stray tuft: on a band crossing input, the band output node of the same lane. -/
def reporter (n code : Nat) : Nat := if n = crossing then bandKey code else n

/-- TUFT_ARRIVE (R244): an input that no entry takes in this slot discards the tuft. -/
def execTuftArrive (node inp : Nat) (t : Tuft) (s : State) : Host.Outcome State Fault Refusal :=
  let here := (look [] (s.node node).inputs inp).any (fun e => e.1 == s.tally)
  let s := if here then s else s.arriveAt node inp s.tally t
  match s.atInput node inp with
  | none => .next s
  | some t =>
    if s.inputTaken node inp then .next s
    else
      let y := s.node node
      let s := s.setNode node { y with inputs := ins y.inputs inp ((look [] y.inputs inp).filter (fun e => e.1 != s.tally)) }
      let s := s.inc .LNK_STRAY_COUNT
      let det := t.stream % 2 ^ 24 + t.seq % 2 ^ 16 * 2 ^ 24
      .next (match s.inputOwner node inp with
        | none => s
        | some q => s.nodePend (reporter node inp) q 0x3002 det)

/-! Bank switches. -/

/-- The nodes that hold a slice of partition `q`. -/
def State.nodesOf (s : State) (q : Nat) : List Nat :=
  (s.nodes.filter (fun e => (look? e.2.slices q).isSome)).map (·.1)

/-- Every slice of partition `q` on a node that `at_` picks, changed. -/
def State.mapSlicesAt (s : State) (q : Nat) (at_ : Nat → Bool) (f : Slice → Slice) : State :=
  { s with nodes := s.nodes.map (fun e =>
      (e.1, if at_ e.1 then { e.2 with slices := e.2.slices.map (fun y => if y.1 = q then (y.1, f y.2) else y) } else e.2)) }

/-- Every slice of partition `q` changed. -/
def State.mapSlices (s : State) (q : Nat) (f : Slice → Slice) : State := s.mapSlicesAt q (fun _ => true) f

/-- BANKSW (R247, R248, R446, R466): the gateway at `stop` delivers the switch to the nodes of the slice that it serves. Each accepts it,
or refuses it when it arrives less than 64 tally slots before B. Without a run in progress B maps to no tally and the command is
discarded (log entry 29). -/
def execBanksw (stop q b bank : Nat) (s : State) : Host.Outcome State Fault Refusal :=
  let s := s.takeEj stop false (fun p => p.part == q && p.payload == .banksw b bank)
  let ns := (s.nodesOf q).filter (fun n => nodeStop n == stop)
  if s.runSt q = 3 ∧ (s.part q).haltedAt.isNone ∧ ns ≠ [] then
    let sb := (s.extend q b).toNat
    if 64 ≤ s.slotsAhead q (s.extend q b) then
      .next ((s.mapSlicesAt q (fun n => n ∈ ns) (fun x => { x with pending := x.pending ++ [(sb, bank % 2 == 1)] })).set
        .LNK_BANK_PENDING 1 q)
    else .next (ns.foldl (fun s n => s.nodeReport n q 0x3003 (b % 2 ^ 32)) (s.set .LNK_BANK_REFUSED 1 q))
  else .next s

/-- BANK_SWITCH (R247, R280, R681): schedule slot B of an accepted switch has come; while the partition is halted a switch
at or after the halt waits. -/
def execBankSwitch (q : Nat) (s : State) : Host.Outcome State Fault Refusal :=
  let sl := s.slotAt q s.tally
  if s.slotsRun q sl then
    let due (x : Slice) : Bool := x.pending.any (fun p => decide (p.1 ≤ sl))
    let s := s.mapSlices q (fun x =>
      if due x then
        let c := x.bankAt sl
        let p := x.pending.filter (fun p => decide (sl < p.1))
        if c.2 then { x with b := c.1, activeB := true, pending := p } else { x with a := c.1, activeB := false, pending := p }
      else x)
    match (s.nodesOf q).head? with
    | some n =>
      let x := look {} (s.node n).slices q
      .next ((s.set .LNK_BANK_ACTIVE (b2n x.activeB) q).set .LNK_BANK_PENDING (b2n !x.pending.isEmpty) q)
    | none => .next s
  else .next s

end Sys2Proof.Machine
end

