-- ==== Sys2Proof/Machine/Links.lean ====
section
/-! DEFINITION. Board and trunk ports: cell, replay, alignment and maintenance slots, delivery buffers, replay, port loss
(R252-R262, R272-R277, R365-R368, R465). -/
namespace Sys2Proof.Machine

/-- A port transmits: it is up, the device is neither tripped nor in shelf state (R621, R736). -/
def State.sends (s : State) (p : Nat) : Bool := s.is .LNK_P_STAT_UP p && !s.boot.tripped && s.get .PWR_SHELF_STATE == 0

/-- Slot classes of a port by tally bits [4:0] (R252). -/
def State.slotClass (s : State) : Nat := s.tally % 32

/-- The partition that holds a port under PRT_PORTS (R268, R601). -/
def State.portOwner (s : State) (p : Nat) : Option Nat := (List.range 128).find? (fun q => s.getBit .PRT_PORTS_PORTS p q)

/-- An event of a port. -/
def State.portEvent (s : State) (p code : Nat) (part : Option Nat) (detail : Nat) : State :=
  s.raiseEv { code := code, part := part, skind := 7, sindex := p, detail := detail }

/-- A sync mark waits for the next cell or replay slot of the port (R51). -/
def State.markDue (s : State) (p : Nat) : Bool := p ∈ s.tb.marks

/-- A link cell leaves with the next LSN and its LCRC (R254, R775). -/
def State.sendCell (s : State) (p kind : Nat) (t : Tuft) : State :=
  let x := s.port p
  let c := withLcrc { lsn := x.lsn, kind := kind, mark := s.markDue p, tuft := t }
  let s := (s.setPort p { x with lsn := (x.lsn + 1) % 8192 }).emit (.cell p c)
  let s := { s with tb := { s.tb with marks := s.tb.marks.erase p } }
  if kind = 0 then s else s.set .DBG_PORT_TX_CELLS (s.get .DBG_PORT_TX_CELLS p + 1) p

/-- CELL_SLOT (R252-R254): the oldest departure that has come is sent and kept for replay, or an empty cell. -/
def execCellSlot (port : Nat) (s : State) : Host.Outcome State Fault Refusal :=
  if s.sends port ∧ s.slotClass ≤ 28 ∧ port < 32 then
    let x := s.port port
    let old := x.kept.filter (fun k => decide (-8192 ≤ cmp32 k.sent s.tally) || k.nak)
    match x.txQ with
    | d :: rest =>
      let s := s.setPort port { x with txQ := rest, kept := old ++ [{ d with lsn := x.lsn, sent := s.tally }] }
      let s := s.set .DBG_C_PORT_TX_TUFTS (s.get .DBG_C_PORT_TX_TUFTS d.part + 1) d.part
      .next (s.sendCell port 1 d.tuft)
    | [] => .next ((s.setPort port { x with kept := old }).sendCell port 0 {})
  else .next s

/-- The NAKed cell that a replay slot retransmits: the oldest departure whose limit has not passed (R260). -/
def State.replayOf (s : State) (x : Port) : Option Kept :=
  (x.kept.filter (fun k => k.nak && !k.again && decide (0 ≤ cmp32 k.limit s.tally))).foldl (fun m k =>
    match m with
    | none => some k
    | some y => if cmp32 k.dep y.dep < 0 then some k else some y) none

/-- REPLAY_SLOT (R252, R254, R260, R272-R274). -/
def execReplaySlot (port : Nat) (s : State) : Host.Outcome State Fault Refusal :=
  if s.sends port ∧ s.slotClass = 30 ∧ port < 32 then
    let x := s.port port
    match s.replayOf x with
    | some k =>
      let s := s.setPort port { x with kept := x.kept.map (fun y => if y.lsn = k.lsn then { y with again := true, nak := false } else y) }
      let s := ((s.inc .LNK_P_REPLAY_COUNT port).inc .CHK_RPL_CNT_COUNT k.part).portEvent port 0x4005 (some k.part) k.lsn
      .next (s.sendCell port 2 { k.tuft with replayed := true })
    | none => .next (s.sendCell port 0 {})
  else .next s

/-- ALIGNMENT_SLOT (R252, R254). -/
def execAlignmentSlot (port : Nat) (s : State) : Host.Outcome State Fault Refusal :=
  if s.sends port ∧ s.slotClass = 29 ∧ port < 32 then .next (s.emit (.alignment port alignBytes)) else .next s

/-- The acknowledgement fields a control fragment carries (R462, R463). -/
def Port.ackOf (x : Port) (f : Fragment) : Fragment := { f with ackseq := (x.rxFrames + 15) % 16, ackv := x.rxAny }

/-- Is a maintenance message a control fragment? -/
def isFrag (m : MaintMsg) : Bool := match m with | .frag _ => true | _ => false

/-- The message of a maintenance block (R254, R462): a due sync message, else a due conformateur message, else a control
fragment, else an acknowledgement that is due. That sync goes before conformateur is the model's choice (log entry 168). A
probe leaves with its departure time. -/
def State.nextMsg (s : State) (p : Nat) : State × MaintMsg :=
  let x := s.port p
  match s.tb.syncMsgs.find? (fun m => m.1 == p) with
  | some m => ({ s with tb := { s.tb with syncMsgs := s.tb.syncMsgs.erase m } }, .sync m.2.1 m.2.2.1 m.2.2.2)
  | none =>
    match x.msgs.find? (fun m => !isFrag m) with
    | some (.probe m) =>
      let t1 := s.tb.slots * 64
      (s.setPort p { x with msgs := x.msgs.erase (.probe m), probeT1 := some t1 }, .probe { m with t1 := t1 })
    | some m => (s.setPort p { x with msgs := x.msgs.erase m }, m)
    | none =>
      match x.msgs with
      | .frag f :: rest => (s.setPort p { x with msgs := rest, ackDue := false }, .frag (x.ackOf f))
      | _ =>
        if x.ackDue then (s.setPort p { x with ackDue := false }, .frag (x.ackOf { ackOnly := true })) else (s, .none)

/-- MAINTENANCE_SLOT (R254, R259, R462, R463, R775): up to four NAK words, oldest first, and one message, under their MCRC. -/
def execMaintenanceSlot (port : Nat) (s : State) : Host.Outcome State Fault Refusal :=
  if s.sends port ∧ s.slotClass = 31 ∧ port < 32 then
    let x := s.port port
    let naks := x.naks.filter (fun k => decide (-8192 ≤ cmp32 k.2 s.tally))
    let s := s.setPort port { x with naks := naks, txSince := if x.txFrames.isEmpty then 0 else x.txSince + 1 }
    let r := s.nextMsg port
    .next (r.1.emit (.maint port (blockBytes (naks.map (·.1)) r.2)))
  else .next s

/-! Receive side. -/

/-- Tufts a port's delivery buffer holds (R258). -/
def bufSize (p : Nat) : Nat := if p < 16 then 256 else 8192

/-- The LSNs from `a` for `n` cells. -/
def lsnRun (a n : Nat) : List Nat := (List.range n).map (fun i => (a + i) % 8192)

/-- A bad cell is counted and its LSN named in NAK words (R255, R259). -/
def State.badCell (s : State) (p lsn : Nat) : State :=
  let x := s.port p
  (s.setPort p { x with naks := x.naks ++ [(lsn, s.tally)] }).inc .LNK_P_BAD_COUNT p

/-- Is a tuft the one that a missed delivery waited for? It can have been armed in no later step than it can have departed in (R238,
R257, R261, log entry 145). -/
def isMissed (t : Tuft) (m : Nat × Nat × Nat) : Bool :=
  m.1 == t.stream && m.2.1 == t.seq && decide (sint 16 (ofSint 16 ((t.step : Int) - m.2.2)) ≤ 0)

/-- A good cell of KIND 1 or 2 enters the delivery buffer, or is discarded as late or overflowing (R258, R261, R262, R276).
A retransmission ends the oldest NAK (log entry 26). -/
def State.storeCell (s : State) (p : Nat) (c : Cell) : State :=
  let s := s.set .DBG_PORT_RX_CELLS (s.get .DBG_PORT_RX_CELLS p + 1) p
  let x := s.port p
  let s := if c.kind = 2 then
      let s := match x.naks with
        | n :: _ => s.sample 1 (fun sc => bit sc p) (s.portOwner p) ((cmp32 s.tally n.2).toNat + s.get .LNK_P_PATH_FLIGHT p)
        | [] => s
      s.setPort p { x with naks := x.naks.drop 1 }
    else s
  let x := s.port p
  match x.missed.find? (isMissed c.tuft) with
  | some m => (s.setPort p { x with missed := x.missed.erase m }).inc .LNK_P_LATE_COUNT p
  | none =>
    if x.delivery.length < bufSize p then s.setPort p { x with delivery := x.delivery ++ [(c.kind, c.tuft)] }
    else s.inc .LNK_P_LATE_COUNT p

/-- CELL_RECEIVE (R255, R258-R262, R276, R775). A cell that cannot be read stands in the LSN order where it came. -/
def execCellReceive (port : Nat) (c : Cell) (s : State) : Host.Outcome State Fault Refusal :=
  if s.is .LNK_P_STAT_UP port ∧ port < 32 then
    let s := if c.fecCorrected then s.inc .LNK_P_FEC_CORR_COUNT port else s
    let x := s.port port
    if cellGood c then
      let gap := (c.lsn + 8192 - x.rxLsn) % 8192
      let s := (lsnRun x.rxLsn gap).foldl (fun s l => s.badCell port l) s
      let s := s.setPort port { s.port port with rxLsn := (c.lsn + 1) % 8192 }
      .next (if c.kind = 1 ∨ c.kind = 2 then s.storeCell port c else s)
    else .next ((s.setPort port { x with rxLsn := (x.rxLsn + 1) % 8192 }).badCell port x.rxLsn)
  else .next s

/-- NAK words mark the kept cells they name (R259, R260). -/
def markNaks (naks : List Nat) (l : List Kept) : List Kept :=
  l.map (fun k => if k.lsn ∈ naks ∧ k.again = false then { k with nak := true } else k)

/-- REPLAY_ABANDON (R260, R274, R275): the limit of a NAKed tuft has passed. -/
def execReplayAbandon (port lsn : Nat) (s : State) : Host.Outcome State Fault Refusal :=
  let x := s.port port
  match x.kept.find? (fun k => k.lsn == lsn && k.nak && !k.again && decide (cmp32 k.limit s.tally < 0)) with
  | some k =>
    let s := s.setPort port { x with kept := x.kept.erase k }
    .next ((s.inc .LNK_P_ABANDON_COUNT port).portEvent port 0x4002 (some k.part) lsn)
  | none => .next s

/-- The deliveries that partition `q`'s ports missed belong to a run that is over: a load, a launch and an unload forget them. -/
def State.dropMissed (s : State) (q : Nat) : State :=
  { s with ports := s.ports.map (fun e => if s.portOwner e.1 = some q then (e.1, { e.2 with missed := [] }) else e) }

/-! Port loss. -/

/-- The packet a held control frame carries. -/
def State.framePacket (s : State) (f : List Fragment) : Packet := readPacket s.coord (f.flatMap (·.data))

/-- A port's gateway discards the frames it holds; requesters are answered with status 4 (R465). -/
def State.dropFrames (s : State) (p : Nat) : State :=
  (s.port p).txFrames.foldl (fun s f =>
    let pk := s.framePacket f.2
    if pk.rxp ∧ ¬ pkReply pk then s.replyTo (gatewayOf p) pk (.error 4) else s) s

/-- A port goes down (R365, R277, R347, R465): UP clears, STATE becomes 8, and the partition that owns the port and runs
stops. -/
def State.portLost (s : State) (p : Nat) : State :=
  let s := (s.set .LNK_P_STAT_UP 0 p).set .LNK_P_CONF_STATE 8 p
  let o := s.portOwner p
  let s := (s.portEvent p 0x4001 o 0).dropFrames p
  let x := s.port p
  let s := s.setPort p { crown := x.crown, unanswered := true, probes := x.probes }
  match o with
  | some q =>
    if s.runSt q = 3 then s.sendFault { part := q, code := 0x4001, step := some (s.curStep q), srck := 3, node := 64 + p } else s
  | none => s

/-- PORT_DOWN (R365, R277, R465). -/
def execPortDown (port : Nat) (s : State) : Host.Outcome State Fault Refusal :=
  if s.is .LNK_P_STAT_UP port ∧ port < 32 then .next (s.portLost port) else .next s

/-- Spare board ports (R340): port 0 of a 16-device board, ports 0 and 1 of an 8-device board. -/
def State.spare (s : State) (p : Nat) : Bool := p == 0 || (p == 1 && !s.is .LNK_COORD_BSIZE)

/-- A port comes up in STATE 0 (R368, R728). The first LSN each way is 0 (log entry 30). -/
def State.portUp (s : State) (p : Nat) : State :=
  let x := s.port p
  ((s.set .LNK_P_STAT_UP 1 p).set .LNK_P_CONF_STATE 0 p).setPort p { crown := x.crown, unanswered := x.unanswered, probes := x.probes }

end Sys2Proof.Machine
end

