-- ==== Sys2Proof/Machine/Boards.lean ====
section
/-! DEFINITION. Boards, racks and slices: OPTICAL, the rack number, the conformateur, hop adverts, crown conflicts, TSET and the
maintenance blocks that carry their messages (R339-R382). -/
namespace Sys2Proof.Machine

/-- Flight limit of a port's class (R256, R348). -/
def State.flightLimit (s : State) (p : Nat) : Nat :=
  if p < 16 then 30 else if s.is .LNK_P_STAT_OPTICAL p then 2708 else 62

/-- Scheduled delivery allowance for a flight time (R256). -/
def State.allowFor (s : State) (p f : Nat) : Nat :=
  if p < 16 then 160 else if s.is .LNK_P_STAT_OPTICAL p then 3 * f + 67 else 256

/-- REACH and ALLOW recomputed from the measured F (R256, R345, R780). -/
def State.reach (s : State) (p : Nat) : State :=
  let f := s.get .LNK_P_PATH_FLIGHT p
  (s.set .LNK_P_STAT_REACH (b2n (f ≤ s.flightLimit p)) p).set .LNK_P_PATH_ALLOW (s.allowFor p f) p

/-- A port whose F a conformateur run has measured: the pipelines alone make it 24 (R348), and a run that measures none leaves it 0
(R780). -/
def State.measured (s : State) (p : Nat) : Bool := s.get .LNK_P_PATH_FLIGHT p != 0

/-- A write of LNK_P_STAT: only the physical function writes OPTICAL, on a trunk port whose owner is idle (R271, R345). -/
def State.opticalWrite (s : State) (who p v : Nat) : State :=
  let busy := match s.portOwner p with | some q => s.busy q | none => false
  if who = 0 ∧ 16 ≤ p ∧ p < 32 ∧ busy = false ∧ s.live .LNK_P_STAT_OPTICAL p then
    let s' := s.set .LNK_P_STAT_OPTICAL (bits v 1 1) p
    if s'.get .LNK_P_STAT_OPTICAL p ≠ s.get .LNK_P_STAT_OPTICAL p ∧ s.measured p then s'.reach p else s'
  else s

/-- OPTICAL_WRITE (R345). -/
def execOpticalWrite (who port v : Nat) (s : State) : Host.Outcome State Fault Refusal := .next (s.opticalWrite who port v)

/-- A write of LNK_COORD: RACK locks at set-up commit (R13, R349). -/
def State.rackWrite (s : State) (who v : Nat) : State :=
  if privileged who && !s.is .MBX_SETUP_COMMITTED then
    (s.set .LNK_COORD_RACK (bits v 8 4)).set .LNK_COORD_RACKSET 1
  else s

/-- RACK_WRITE (R349). -/
def execRackWrite (who v : Nat) (s : State) : Host.Outcome State Fault Refusal := .next (s.rackWrite who v)

/-! Hop counts (R356, R358). -/

/-- Ports in state 1 or 2 with the smallest HOPS received, the lowest code first; none below 0xFF gives none. -/
def State.nearest (s : State) : Option Nat :=
  let ps := s.conformed.filter (fun p => decide (s.get .LNK_P_SPR_FARHOPS p < 255))
  ps.foldl (fun m p => match m with
    | none => some p
    | some y => if s.get .LNK_P_SPR_FARHOPS p < s.get .LNK_P_SPR_FARHOPS y then some p else some y) none

/-- The HOPS a device advertises (R356). -/
def State.ownHops (s : State) : Nat :=
  if s.is .TIM_CTRL_CROWN then 0
  else match s.nearest with | some p => min 255 (s.get .LNK_P_SPR_FARHOPS p + 1) | none => 255

/-- The CROWN it advertises: 0 beside HOPS 0xFF (R358). -/
def State.ownCrown (s : State) : Nat :=
  if s.is .TIM_CTRL_CROWN then s.coord
  else if s.ownHops = 255 then 0
  else match s.nearest with | some p => (s.port p).crown | none => 0

/-- A conformateur message of this device for a port (table Conformateur message). -/
def State.confMsg (s : State) (p : Nat) : ConfMsg :=
  { coord := s.coord, port := p, bsize := s.is .LNK_COORD_BSIZE, rackset := s.is .LNK_COORD_RACKSET, hops := s.ownHops }

/-! The conformateur (R352-R357, R780). -/

/-- The ports in LNK_CONF_MASK. -/
def State.maskPorts (s : State) : List Nat := (List.range 32).filter (fun p => s.getBit .LNK_CONF_MASK_PORTS p)

/-- A port that a run probes: up, and not spare. -/
def State.probed (s : State) (p : Nat) : Bool := s.is .LNK_P_STAT_UP p && !s.spare p

/-- The next probe of a port is queued, until 16 have been sent (R354). -/
def State.nextProbe (s : State) (p : Nat) : State :=
  let x := s.port p
  if x.probes < 16 then
    s.setPort p { x with probeT1 := none, msgs := x.msgs ++ [.probe { s.confMsg p with seq := x.probes }] }
  else s.setPort p { x with probeT1 := none }

/-- The results of a port are reset (R780). -/
def State.resetConf (s : State) (p : Nat) : State :=
  let s := ((s.set .LNK_P_CONF_STATE 0 p).set .LNK_P_CONF_FAR 0 p).set .LNK_P_CONF_FARPORT 0x3F p
  let s := ((s.set .LNK_P_LAT_LAT 0 p).set .LNK_P_SPR_SPREAD 0 p).set .LNK_P_PATH_FLIGHT 0 p
  let s := (s.set .LNK_P_PATH_ALLOW 0 p).set .LNK_P_STAT_REACH 0 p
  s.setPort p { s.port p with probes := 0, results := [], unanswered := false, probeT1 := none, answer := {}, missed := [] }

/-- A run starts on the ports that the mask holds now (R352, R780). -/
def State.confStart (s : State) : State :=
  let ps := s.maskPorts
  let up := ps.filter s.probed
  let s := ps.foldl State.resetConf ((s.set .LNK_CONF_STAT_BUSY 1).set .LNK_CONF_STAT_DONE 0)
  up.foldl State.nextProbe { s with boot := { s.boot with confMask := ps, confUp := up } }

/-- RUN (R352). -/
def State.confRun (s : State) : State :=
  if s.is .LNK_COORD_RACKSET ∧ ¬ s.is .LNK_COORD_STRAP_BAD ∧ ¬ s.is .LNK_CONF_STAT_BUSY ∧ s.anyBusy = false then s.confStart
  else s.set .LNK_CONF_STAT_REFUSED 1

/-- TSET (R372). -/
def State.tset (s : State) : State :=
  let p := s.get .LNK_CONF_CTRL_TPORT
  if p ∈ s.conformed then s.sendTallySet p else s.set .LNK_CONF_STAT_REFUSED 1

/-- A write of LNK_CONF_CTRL (R352, R357, R372). -/
def State.confCtrlWrite (s : State) (who v : Nat) : State :=
  if privileged who then
    let s := (s.set .LNK_CONF_CTRL_SYNC_AUTO (bits v 1 1)).set .LNK_CONF_CTRL_TPORT (bits v 9 5)
    let s := if bit v 0 then s.confRun else s
    if bit v 8 then s.tset else s
  else s

/-- CONFORMATEUR_RUN (R352, R380, R780): a write of LNK_CONF_CTRL with RUN 1. -/
def execConformateurRun (who v : Nat) (s : State) : Host.Outcome State Fault Refusal := .next (s.confCtrlWrite who v)

/-- TSET (R372): a write of LNK_CONF_CTRL with TSET 1. -/
def execTset (who v : Nat) (s : State) : Host.Outcome State Fault Refusal := .next (s.confCtrlWrite who v)

/-- A probe is held until its reply is due (R353, R354): every up port answers at all times. -/
def State.takeProbe (s : State) (p : Nat) (m : ConfMsg) (t2 : Nat) : State :=
  if s.is .LNK_P_STAT_UP p && decide (p < 32) then s.setPort p { s.port p with probeIn := some (m, t2) } else s

/-- PROBE (R353, R354). -/
def execProbe (port : Nat) (m : ConfMsg) (t2 : Nat) (s : State) : Host.Outcome State Fault Refusal :=
  .next (s.takeProbe port m t2)

/-- PROBE_REPLY_SEND (R353, R354): at T3 of the slot clock, T2 rounded down to a whole slot plus 128 slots. -/
def execProbeReplySend (port : Nat) (s : State) : Host.Outcome State Fault Refusal :=
  let x := s.port port
  match x.probeIn with
  | some (m, t2) =>
    let t3 := t2 / 64 + 128
    if s.tb.slots = t3 ∧ s.sends port then
      let r := { s.confMsg port with t1 := m.t1, t2 := t2, t3 := t3 * 64, seq := m.seq }
      .next ((s.setPort port { x with probeIn := none }).emit (.maint port (blockBytes (x.naks.map (·.1)) (.reply r))))
    else .next s
  | none => .next s

/-- A reply arrives at `t4` (R354): the latency in 1/64 slot, an odd difference rounded freely (log entry 13). -/
def State.takeProbeReply (s : State) (p : Nat) (m : ConfMsg) (t4 : Nat) : State :=
  let x := s.port p
  match x.probeT1 with
  | some t1 =>
    if s.is .LNK_CONF_STAT_BUSY ∧ m.t1 = t1 ∧ m.seq = x.probes ∧ x.probes < 16 then
      let n2 : Int := ((t4 : Int) - t1) - ((m.t3 : Int) - m.t2)
      let lat := (if n2 % 2 = 0 then n2 / 2 else n2 / 2 + (s.freeV % 2 : Nat)).toNat
      let x := { x with results := x.results ++ [lat], answer := m, probes := x.probes + 1 }
      (s.fresh.setPort p x).nextProbe p
    else s
  | none => s

/-- PROBE_REPLY (R354). -/
def execProbeReply (port : Nat) (m : ConfMsg) (t4 : Nat) (s : State) : Host.Outcome State Fault Refusal :=
  .next (s.takeProbeReply port m t4)

/-- PROBE_TIMEOUT (R354): 64 maintenance slots, 2,048 slots, have passed without a reply. -/
def execProbeTimeout (port : Nat) (s : State) : Host.Outcome State Fault Refusal :=
  let x := s.port port
  match x.probeT1 with
  | some t1 =>
    if s.is .LNK_CONF_STAT_BUSY ∧ x.probes < 16 ∧ t1 / 64 + 2048 ≤ s.tb.slots then
      .next ((s.setPort port { x with unanswered := true, probes := x.probes + 1 }).nextProbe port)
    else .next s
  | none => .next s

/-- The far end a port's wiring calls for does not answer (R355, state 3). -/
def State.wrongEnd (s : State) (p : Nat) (m : ConfMsg) : Bool :=
  let q := if s.is .LNK_COORD_BSIZE then p else p / 2
  let want := s.get .LNK_COORD_RACK * 256 + s.get .LNK_COORD_BOARD * 16 + (s.get .LNK_COORD_SLOT ^^^ q)
  m.coord == s.coord
    || (if p < 16 then m.coord != want || m.port != p || m.bsize != s.is .LNK_COORD_BSIZE
        else !m.rackset || decide (m.port < 16))

/-- Smallest and largest of the results. -/
def lo (l : List Nat) : Nat := l.foldl min (l.headD 0)
def hi (l : List Nat) : Nat := l.foldl max 0

/-- The state of a port at the end of a run: the first row of R355 that holds. The run has not been on a port that came up since it
started. -/
def State.confState (s : State) (p : Nat) : Nat :=
  let x := s.port p
  if s.spare p then 7
  else if ¬ s.is .LNK_P_STAT_UP p then 8
  else if p ∉ s.boot.confUp then 0
  else if x.unanswered ∨ x.results.length < 16 then 4
  else if s.wrongEnd p x.answer then 3
  else if 4 < hi x.results - lo x.results then 5
  else if s.flightLimit p < ceilDiv (lo x.results) 64 then 6
  else if p < 16 then 1 else 2

/-- A port's results at the end of a run (R354, R355, R780). -/
def State.finishConf (s : State) (p : Nat) : State :=
  let x := s.port p
  let st := s.confState p
  let s := s.set .LNK_P_CONF_STATE st p
  if st ∈ ([1, 2, 3, 5, 6] : List Nat) then
    let l := lo x.results
    let s := (s.set .LNK_P_CONF_FAR x.answer.coord p).set .LNK_P_CONF_FARPORT x.answer.port p
    let s := (s.set .LNK_P_LAT_LAT l p).set .LNK_P_SPR_SPREAD (min 63 (hi x.results - l)) p
    let s := (s.set .LNK_P_PATH_FLIGHT (ceilDiv l 64) p).reach p
    if x.answer.coord = s.coord then s.portEvent p 0x4003 none x.answer.coord else s
  else s

/-- Every port that the run probes and that is up has made its 16 exchanges. -/
def State.confOver (s : State) : Bool :=
  s.boot.confUp.all (fun p => !s.is .LNK_P_STAT_UP p || decide (16 ≤ (s.port p).probes))

/-- CONFORMATEUR_DONE (R49, R352, R355, R357, R728, R780): the run is over on the ports it started on. -/
def execConformateurDone (s : State) : Host.Outcome State Fault Refusal :=
  if s.is .LNK_CONF_STAT_BUSY ∧ s.confOver then
    let s := s.boot.confMask.foldl State.finishConf s
    let s := if s.is .LNK_CONF_CTRL_SYNC_AUTO then
        (s.set .TIM_SYNC_PARENT_PORT (if s.is .TIM_CTRL_CROWN then 0x3F else s.nearest.getD 0x3F)).holdLock else s
    let s := (s.set .LNK_CONF_STAT_BUSY 0).set .LNK_CONF_STAT_DONE 1
    .next (if s.get .MBX_BOOT_STAGE = 8 then s.set .MBX_BOOT_STAGE 9 else s)
  else .next s

/-- PORT_RETRAIN (R368): a down port of an assembled board retrains once no partition that owns it is busy. In shelf state, under a
thermal trip and in a test mode ports stay down (R621, R736, R747). A run that probes the port goes on with it (R354). -/
def execPortRetrain (port : Nat) (s : State) : Host.Outcome State Fault Refusal :=
  let busy := match s.portOwner port with | some q => s.busy q | none => false
  if port < 32 ∧ ¬ s.is .LNK_P_STAT_UP port ∧ ¬ s.spare port ∧ busy = false ∧ 7 ≤ s.get .MBX_BOOT_STAGE
      ∧ s.get .MBX_BOOT_STAGE ≤ 9 ∧ s.get .PWR_SHELF_STATE = 0 ∧ s.boot.tripped = false
      ∧ (look (0, 0) s.boot.ptest port).1 = 0 then
    let s := s.portUp port
    .next (if s.is .LNK_CONF_STAT_BUSY ∧ port ∈ s.boot.confUp then s.nextProbe port else s)
  else .next s

/-- HOP_ADVERT_SEND (R356, R358). -/
def execHopAdvertSend (s : State) : Host.Outcome State Fault Refusal :=
  let up := (List.range 32).filter (fun p => s.is .LNK_P_STAT_UP p)
  .next (up.foldl (fun s p =>
    let x := s.port p
    s.setPort p { x with msgs := x.msgs ++ [.advert { s.confMsg p with crown := s.ownCrown }] }) s)

/-- The other crown an advert makes a conflict with (R358). -/
def State.conflictWith (s : State) (port : Nat) (m : ConfMsg) : Bool :=
  if m.hops < 255 then
    if s.is .TIM_CTRL_CROWN then m.crown != s.coord
    else decide (port ∈ s.conformed) && s.conformed.any (fun p =>
      p != port && decide (s.get .LNK_P_SPR_FARHOPS p < 255) && (s.port p).crown != m.crown)
  else false

/-- A hop advert arrives (R356, R358, R779). The event is recorded when CONFLICT sets (log entry 31). -/
def State.takeAdvert (s : State) (port : Nat) (m : ConfMsg) : State :=
  if s.is .LNK_P_STAT_UP port ∧ port < 32 then
    let held := s.ownCrown
    let bad := s.conflictWith port m
    let s := (s.set .LNK_P_SPR_FARHOPS m.hops port).setPort port { s.port port with crown := m.crown }
    if bad then
      let s := if s.is .TIM_STATUS_CONFLICT then s
        else s.raiseEv { code := 0x4006, detail := held % 2 ^ 12 + m.crown % 2 ^ 12 * 2 ^ 12 }
      let s := (s.set .TIM_STATUS_CONFLICT 1).withdraw
      { s with boot := { s.boot with conflictSince := s.tb.slots } }
    else s
  else s

/-- HOP_ADVERT_RECEIVE (R356, R358). -/
def execHopAdvertReceive (port : Nat) (m : ConfMsg) (s : State) : Host.Outcome State Fault Refusal :=
  .next (s.takeAdvert port m)

/-- CONFLICT_CLEAR (R358): 64 maintenance slots without a conflicting advert. -/
def execConflictClear (s : State) : Host.Outcome State Fault Refusal :=
  if s.is .TIM_STATUS_CONFLICT ∧ s.boot.conflictSince + 2048 ≤ s.tb.slots then .next (s.set .TIM_STATUS_CONFLICT 0)
  else .next s

/-! Maintenance blocks. -/

/-- The message of a good maintenance block goes to sync, conformateur or control handling (R51, R254, R354, R358, R463).
Probes and replies are timed to 1/64 slot; which one is free. -/
def State.takeMsg (s : State) (p : Nat) (m : MaintMsg) : State :=
  match m with
  | .none => s
  | .sync t1 t2 t3 =>
    if p = s.get .TIM_SYNC_PARENT_PORT then s.syncVals t1 t2 t3
    else
      let y := look {} s.tb.parent p
      { s with tb := { s.tb with parent := ins s.tb.parent p { y with t1 := t1 } } }
  | .probe m => s.fresh.takeProbe p m (s.tb.slots * 64 + s.freeV % 64)
  | .reply m => s.fresh.takeProbeReply p m (s.tb.slots * 64 + s.freeV % 64)
  | .advert m => s.takeAdvert p m
  | .frag f => s.takeFragment p f

/-- MAINTENANCE_BLOCK_RECEIVE (R254, R259, R275, R775): a bad block is discarded whole. -/
def execMaintenanceBlockReceive (port : Nat) (b : MaintBlock) (s : State) : Host.Outcome State Fault Refusal :=
  if blockGood b ∧ s.is .LNK_P_STAT_UP port ∧ port < 32 then
    let x := s.port port
    .next ((s.setPort port { x with kept := markNaks (blockNaks b.bytes) x.kept }).takeMsg port (blockMsg b.bytes))
  else .next s

end Sys2Proof.Machine
end

