-- ==== Sys2Proof/Machine/Endpoint.lean ====
section
/-! DEFINITION. What the PCI Express endpoint presents: identity and capabilities, functions and bars (R384-R386). -/
namespace Sys2Proof.Machine

/-- Table PCIe identity and capabilities: what configuration space presents of one function. -/
structure Identity where
  vendor     : Nat
  device     : Nat
  classCode  : Nat
  revision   : Nat
  tagBits    : Nat
  maxReads   : Nat
  maxPayload : Nat
  maxRead    : Nat
  msixEntries : Nat
  deriving DecidableEq, Repr

/-- The identity of function `fn`, 0 the physical function (R384). -/
def State.identity (s : State) (fn : Nat) : Identity :=
  { vendor := 0x1F3D, device := if fn = 0 then 0xE710 else 0xE711, classCode := 0x120000, revision := s.boot.fuseStep, tagBits := 14,
    maxReads := 4096, maxPayload := 512, maxRead := 4096, msixEntries := 1 }

/-- SR-IOV (R384): TotalVFs, First VF Offset and VF Stride. -/
def totalVfs : Nat := 128
def firstVfOffset : Nat := 1
def vfStride : Nat := 1

/-- Routing identifier of virtual function `k` when the physical function has `rid`. -/
def vfRoutingId (rid k : Nat) : Nat := rid + firstVfOffset + vfStride * k

/-- A bar (R385). -/
structure Bar where
  num      : Nat
  size     : Nat
  wide     : Bool := true
  prefetch : Bool := false
  deriving DecidableEq, Repr

/-- The bars of function `fn` (R385); a virtual function's BAR0 is its VF BAR0. -/
def barsOf (fn : Nat) : List Bar :=
  if fn = 0 then [{ num := 0, size := 2 ^ 26 }, { num := 2, size := 2 ^ 36, prefetch := true }] else [{ num := 0, size := 2 ^ 26 }]

/-- Do `len` bytes at `off` lie in bar `num` of function `fn`? -/
def inBar (fn num off len : Nat) : Bool := (barsOf fn).any (fun b => b.num == num && decide (off + len ≤ b.size))

end Sys2Proof.Machine
end

