-- ==== Sys2Proof/Machine/Memory.lean ====
section
/-! DEFINITION. Stitches and HBM beside the data plane: frames, clock loss, scrub, refresh, self-refresh, quotas and the
BAR2 window (R289-R296, R312-R328, R332-R338, R39, R40). -/
namespace Sys2Proof.Machine

/-! Stitches. -/

/-- The group mapped onto group 15 in a direction, 15 for none (R294). -/
def State.spareOf (s : State) (t : Nat) (east : Bool) : Nat :=
  if east then s.get .MEM_T_STAT_SPARE_E t else s.get .MEM_T_STAT_SPARE_W t

/-- A group that a direction of the stitch uses (R290, R294): 0-13, on a band stitch 14, and 15 in place of a failed one. -/
def State.usedIn (s : State) (t g : Nat) (east : Bool) : Bool :=
  let spare := s.spareOf t east
  if g = 15 then spare != 15 && (decide (spare < 14) || decide (6 ≤ t))
  else (decide (g < 14) || (g == 14 && decide (6 ≤ t))) && g != spare

/-- A group that some direction of the stitch uses. -/
def State.groupUsed (s : State) (t g : Nat) : Bool := s.usedIn t g true || s.usedIn t g false

/-- The group that carries the control rings in a direction of a band stitch (R290, R294). -/
def State.controlGroup (s : State) (t : Nat) (east : Bool) : Nat := if s.spareOf t east = 14 then 15 else 14

/-- The bits in which two byte strings differ. -/
def bitErrors (a b : List Byte) : Nat :=
  (a.zip b).foldl (fun n x => n + ((List.range 8).filter (fun i => (x.1 ^^^ x.2).getLsbD i)).length) 0

/-- A stitch test mode that acts (R301). -/
def State.stitchTests (s : State) (t : Nat) : Bool :=
  s.is .MBX_BOOT_TEST && (List.range 3).any (fun m => s.get .MEM_T_TEST_MODE t == m + 1)

/-- Where a lane of a stitch leads in a direction: node and input code (R233, R285). -/
def laneEnd (t l : Nat) (east : Bool) : Nat × Nat :=
  if t < 6 then (stitchKey t (if east then 1 else 0), 8 + l)
  else if east then (crossing, 4 * (t - 6) + l) else (stitchKey t 0, 8 + l)

/-- A tuft on its way over a lane arrives as errors left it (R263, R332). -/
def State.upset (s : State) (t : Nat) (east : Bool) (u : Upset) : State :=
  let d := laneEnd t (u.lane % 4) east
  let y := s.node d.1
  let l := look [] y.inputs d.2
  if l.any (fun e => e.1 == u.at_) then
    s.setNode d.1 { y with inputs := ins y.inputs d.2 (l.map (fun e => if e.1 = u.at_ then (e.1, u.tuft) else e)) }
  else s

/-- STITCH_FRAME (R290-R292, R302, R332): what one group carried in one frame reaches the far end. In a test mode that acts the bit
errors are counted. A CRC failure is counted; lane data passes unchanged, with the tufts that errors changed; a control frame is
discarded, and its sender keeps it until it is acknowledged, which a good one is at once. -/
def execStitchFrame (t group : Nat) (east : Bool) (fr : StitchFrame) (s : State) : Host.Outcome State Fault Refusal :=
  if 22 ≤ t then .next s
  else if s.stitchTests t then .next (s.inc .MEM_T_TEST_ERRS t (bitErrors fr.sent fr.data))
  else if ¬ s.usedIn t group east then .next s
  else
    let x := s.stitchOf t
    let control := decide (6 ≤ t) && group == s.controlGroup t east
    if fr.crc = crc16 fr.data then
      .next (if control then s.setStitch t { x with held := x.held.erase (east, fr.data) } else s)
    else
      let s := s.inc .MEM_T_CRC_COUNT t
      .next (if control then
          s.setStitch t { x with held := if (east, fr.sent) ∈ x.held then x.held else x.held ++ [(east, fr.sent)] }
        else fr.upsets.foldl (fun s u => s.upset t east u) s)

/-- STITCH_CONTROL_RETRANSMIT (R292): the oldest control frame not acknowledged is sent again and counted; it is kept until its
acknowledgement. -/
def execStitchControlRetransmit (t : Nat) (s : State) : Host.Outcome State Fault Refusal :=
  match (s.stitchOf t).held with
  | f :: _ => if 6 ≤ t ∧ t < 22 then .next ((s.inc .MEM_T_CTL_RPL_COUNT t).emit (.stitchControl t f.1 f.2)) else .next s
  | [] => .next s

/-- Does partition `q` hold a lane of stitch `t` under PRT_LANES (R601)? -/
def State.holdsLane (s : State) (q t : Nat) : Bool :=
  (List.range 4).any (fun l => s.getBit .PRT_LANES_LANES ((4 * t + l) % 32) (3 * q + (4 * t + l) / 32))

/-- STITCH_CLOCK_LOSS (R296): during a run the stitch is down for the rest of it, and every running partition that holds one
of its lanes stops. -/
def execStitchClockLoss (t group : Nat) (s : State) : Host.Outcome State Fault Refusal :=
  let running := (List.range 128).filter (fun q => s.runSt q == 3)
  if t < 22 ∧ running ≠ [] ∧ s.groupUsed t group ∧ ¬ (s.stitchOf t).down then
    let s := (s.setStitch t { s.stitchOf t with down := true }).set .MEM_T_STAT_UP 0 t
    let s := s.raiseEv { code := 0x5002, skind := 9, sindex := t, detail := 0xF }
    .next ((running.filter (fun q => s.holdsLane q t)).foldl (fun s q =>
      s.sendFault { part := q, code := 0x5002, step := some (s.curStep q), srck := 2, node := t }) s)
  else .next s

/-! HBM. -/

/-- An HBM read not made by a memory binding: its latency, which the spec leaves open, is a sample of source 4 (R312,
R631). -/
def State.latencySample (s : State) (stack : Nat) (part : Option Nat) : State :=
  s.fresh.sample 4 (fun sc => bit sc stack) part s.freeV

/-- Is a stack in self-refresh (R322)? -/
def State.inSr (s : State) (stack : Nat) : Bool := s.getBit .MEM_STAT_IN_SR stack

/-- 32-byte words of a stack: 36 GiB (R304). -/
def stackWords : Nat := 36 * 2 ^ 25

/-- SCRUB_READ (R316, R317, R319). -/
def execScrubRead (stack : Nat) (e : Ecc) (s : State) : Host.Outcome State Fault Refusal :=
  if s.is .MEM_CTRL_SCRUB_EN ∧ stack < 8 ∧ ¬ s.inSr stack ∧ s.boot.tripped = false then
    let w := look 0 s.hbm.scrub stack
    let a := unitAddr stack (w / 8) + w % 8 * 32
    let s := { s with hbm := { s.hbm with scrub := put 0 s.hbm.scrub stack ((w + 1) % stackWords) } }
    .next ((s.fresh.hbmEcc a none (s.eccKind e a)).latencySample stack none)
  else .next s

/-- HBM_REFRESH (R320): the controller issues a refresh; a stack in self-refresh refreshes itself. -/
def execHbmRefresh (stack : Nat) (s : State) : Host.Outcome State Fault Refusal :=
  if stack < 8 ∧ ¬ s.inSr stack ∧ s.boot.tripped = false then
    .next { s with hbm := { s.hbm with refr := put 0 s.hbm.refr stack (look 0 s.hbm.refr stack + 1) } }
  else .next s

/-- A write of MEM_CTRL (R321, R336): stacks follow the request bits while no partition is armed, committed or running; else a
request is ignored, with SR_REFUSED set and its bit clear (log entry 32). Outside active state shelf entry, shelf state and wake decide
which stacks are in self-refresh (R621, R624, R626). -/
def State.memCtrlWrite (s : State) (who v : Nat) : State :=
  if privileged who then
    let s := s.set .MEM_CTRL_SCRUB_EN (bits v 8 1)
    let want := bits v 0 8
    if s.anyBusy then (if want = 0 then s else (s.set .MEM_CTRL_SR_REQ 0).set .MEM_STAT_SR_REFUSED 1)
    else
      let s := s.set .MEM_CTRL_SR_REQ want
      if s.get .PWR_SHELF_STATE = 0 then s.set .MEM_STAT_IN_SR want else s
  else s

/-- SELF_REFRESH_REQUEST (R321). -/
def execSelfRefreshRequest (who v : Nat) (s : State) : Host.Outcome State Fault Refusal := .next (s.memCtrlWrite who v)

/-- A write of MEM_QUOTA_q (R328, R338): ignored when the sum over all partitions would exceed 64. -/
def State.quotaWrite (s : State) (who q v : Nat) : State :=
  if privileged who && decide (q < 128) then
    let n := bits v 0 7
    let others := ((List.range 128).filter (· ≠ q)).foldl (fun a p => a + s.get .MEM_QUOTA_QUOTA p) 0
    if 64 < others + n then s.set .MEM_STAT_QUOTA_REFUSED 1 else s.set .MEM_QUOTA_QUOTA n q
  else s

/-- QUOTA_WRITE (R328). -/
def execQuotaWrite (who q v : Nat) (s : State) : Host.Outcome State Fault Refusal := .next (s.quotaWrite who q v)

/-! BAR2 (R327, R337, R39, R40). -/

/-- Device-local HBM address of a BAR2 offset (R327). -/
def State.bar2Addr (s : State) (off : Nat) : Nat := min 224 (s.get .MEM_WIN_BASE) * 2 ^ 30 + off

/-- First address above HBM (R304). -/
def hbmEnd : Nat := 0x4800000000

/-- The partition whose HBM range meets `n` bytes at `a` (R602). -/
def State.hbmOwner (s : State) (a n : Nat) : Option Nat :=
  (List.range 128).find? (fun q => let r := s.hbmRange q; decide (0 < r.2) && decide (a < r.1 + r.2) && decide (r.1 < a + n))

/-- Stacks that `n` bytes at `a` touch (R304). -/
def stacksOf (a n : Nat) : List Nat := (words a n 256).map (· % 8)

/-- What a BAR2 access meets (R39, R40, R322, R327): 0 it is served, 1 refused by range or run (0x6005), 2 self-refresh
(0x5006); with the partition it is attributed to. -/
def State.bar2Check (s : State) (a n : Nat) : Nat × Option Nat :=
  let o := s.hbmOwner a n
  if hbmEnd < a + n then (1, none)
  else
    let running := (List.range 128).find? (fun q =>
      let r := s.hbmRange q
      s.runSt q == 3 && decide (0 < r.2) && decide (a < r.1 + r.2) && decide (r.1 < a + n))
    match running with
    | some q => (1, some q)
    | none => if (stacksOf a n).any s.inSr then (2, o) else (0, o)

/-- A BAR2 access that is not served is counted and recorded. -/
def State.bar2Refused (s : State) (k a : Nat) (o : Option Nat) : State :=
  (s.inc .PCX_BAR2_DROP_COUNT).raiseEv
    { code := if k = 1 then 0x6005 else 0x5006, part := o, skind := 6, sindex := 0, detail := a % 2 ^ 48 }

/-- BAR2_READ (R40, R316, R317, R322, R327, R337, R385). A poisoned completion carries no data that may be used. An access outside the
bar is not one of BAR2. -/
def execBar2Read (off len : Nat) (e : Ecc) (s : State) : Host.Outcome State Fault Refusal :=
  let a := s.bar2Addr off
  let c := s.bar2Check a len
  if inBar 0 2 off len = false ∨ s.boot.tripped then .next s
  else if c.1 = 0 then
    let w := s.eccWord a len
    let ek := s.eccKind e w
    let bs := s.eccData e (s.hbmRead (eccAddr e a) len)
    let ep := ek == .double || s.hbmPoisoned (eccAddr e a) len
    let s := ((s.fresh.fresh.fresh.hbmEcc w c.2 ek).latencySample (stackOf a) c.2).emit (.bar2Data bs ep)
    .next (match c.2 with | some q => s.set .DBG_C_HBM_OTHER_BYTES (s.get .DBG_C_HBM_OTHER_BYTES q + len) q | none => s)
  else .next ((s.bar2Refused c.1 a c.2).emit (.bar2Data (List.replicate len 0xFF) false))

/-- BAR2_WRITE (R39, R322, R327, R385). A write of clean bytes clears the poison of the words it fills. -/
def execBar2Write (off : Nat) (data : List Byte) (s : State) : Host.Outcome State Fault Refusal :=
  let a := s.bar2Addr off
  let n := data.length
  let c := s.bar2Check a n
  if n = 0 ∨ inBar 0 2 off n = false ∨ s.boot.tripped then .next s
  else if c.1 = 0 then
    let s := s.hbmStore a data
    .next (match c.2 with | some q => s.set .DBG_C_HBM_OTHER_BYTES (s.get .DBG_C_HBM_OTHER_BYTES q + n) q | none => s)
  else .next (s.bar2Refused c.1 a c.2)

end Sys2Proof.Machine
end

