-- ==== Sys2Proof/Machine/Power.lean ====
section
/-! DEFINITION. Partition allotments, power domains, shelf state, monitors, rails and the fault pin (R601-R630, R716-R718,
R735-R737). -/
namespace Sys2Proof.Machine

/-! Allotment (R601-R609). -/

/-- The partition holds an image. -/
def State.holds (s : State) (q : Nat) : Bool := (s.part q).image.isSome

/-- An allotment write meets an image held, or one being loaded (R604). -/
def State.allotHeld (s : State) (q : Nat) : Bool := s.holds q || (s.part q).loading.isSome

/-- Other partitions. -/
def others (q : Nat) : List Nat := (List.range 128).filter (· ≠ q)

/-- PRT_FREE shows the granules allotted to no partition (table PRT fields). -/
def State.showFree (s : State) : State :=
  (List.range 4).foldl (fun s w =>
    let used := (List.range 128).foldl (fun a q => a ||| s.get .PRT_GRAN_GRAN (4 * q + w)) 0
    s.set .PRT_FREE_FREE ((2 ^ 32 - 1) ^^^ (used % 2 ^ 32)) w) s

/-- Memory-node port codes that an image's slices use (R608). -/
def Image.memPorts (m : Image) : List Nat :=
  let es := m.img.slices.flatMap (fun x => if nodeKind x.node = 4 then x.a.entries ++ x.b.entries else [])
  es.flatMap (fun e => e.inp :: outs e)

/-- A bitmap register of the allotment (R602, R605, R608): written when no other partition holds one of its bits. A
memory-node port may be shared while no image uses it. -/
def State.bitmapWrite (s : State) (f : Fld) (q i v : Nat) : State :=
  let n := f.info.n2
  let clash := (others q).any (fun p =>
    let both := s.get f (n * p + i) &&& v
    if f = .PRT_MPORT_MPORT then
      match (s.part p).image with
      | some m => m.memPorts.any (fun k => bit both k)
      | none => false
    else both != 0)
  if clash then s.set .PRT_STAT_CONFLICT 1 q
  else
    let s := s.set f v (n * q + i)
    if f = .PRT_GRAN_GRAN then s.showFree else s

/-- A write of the HBM range's base or size (R602, R605): ranges neither overlap nor pass the end of HBM. -/
def State.hbmRangeWrite (s : State) (f : Fld) (q v : Nat) : State :=
  let s' := s.set f v q
  let b := s'.get .PRT_HBM_BASE_BASE q
  let n := s'.get .PRT_HBM_SIZE_SIZE q
  let clash := 0 < n ∧ (0x24000 < b + n ∨ (others q).any (fun p =>
    let b' := s.get .PRT_HBM_BASE_BASE p
    let n' := s.get .PRT_HBM_SIZE_SIZE p
    decide (0 < n') && decide (b < b' + n') && decide (b' < b + n)))
  if clash then s.set .PRT_STAT_CONFLICT 1 q else s'

/-- The lowest free contiguous range of `n` shared-store units (R606). -/
def State.shrFree (s : State) (q n : Nat) : Option Nat :=
  let rs := (others q).map (fun p => (s.get .SEQ_SHR_BASE p, s.get .SEQ_SHR_SIZE p))
  let ok (b : Nat) : Bool := decide (b + n ≤ 4096) && rs.all (fun r => r.2 == 0 || decide (b + n ≤ r.1) || decide (r.1 + r.2 ≤ b))
  -- the lowest start is 0 or the end of a range
  ((0 :: rs.map (fun r => r.1 + r.2)).filter ok).foldl (fun m b => match m with
    | none => some b
    | some x => some (min x b)) none

/-- A write of PRT_LIMITS_q (R604, R606). -/
def State.limitsWrite (s : State) (q v : Nat) : State :=
  let s := s.set .PRT_LIMITS_CTXMAX (bits v 0 4) q
  let n := bits v 16 13
  let s := (s.set .SEQ_SHR_BASE 0 q).set .SEQ_SHR_SIZE 0 q
  if n = 0 then s.set .PRT_LIMITS_SHR 0 q
  else match s.shrFree q n with
    | some b => ((s.set .PRT_LIMITS_SHR n q).set .SEQ_SHR_BASE b q).set .SEQ_SHR_SIZE n q
    | none => (s.set .PRT_LIMITS_SHR 0 q).set .PRT_STAT_CONFLICT 1 q

/-- A 4-byte write of the PRT register at BAR0 offset `off` that belongs to partition `q`'s allotment (R604-R606). Lanes 88-95 are
reserved bits (R14). -/
def State.allotWrite (s : State) (who off v : Nat) : State :=
  let o := off - addrOf .PRT_GRAN_GRAN
  let q := o / 64
  let r := o % 64
  if privileged who && decide (addrOf .PRT_GRAN_GRAN ≤ off) && decide (q < 128) && decide (r < 0x30) then
    if s.allotHeld q then s.set .PRT_STAT_HELD 1 q
    else if r < 0x10 then s.bitmapWrite .PRT_GRAN_GRAN q (r / 4) (v % 2 ^ 32)
    else if r = 0x10 then s.hbmRangeWrite .PRT_HBM_BASE_BASE q v
    else if r = 0x14 then s.hbmRangeWrite .PRT_HBM_SIZE_SIZE q v
    else if r = 0x18 then s.bitmapWrite .PRT_PORTS_PORTS q 0 (v % 2 ^ 32)
    else if r < 0x28 then s.bitmapWrite .PRT_LANES_LANES q ((r - 0x1C) / 4) (v % 2 ^ (if r = 0x24 then 24 else 32))
    else if r = 0x28 then s.bitmapWrite .PRT_MPORT_MPORT q 0 (v % 2 ^ 16)
    else s.limitsWrite q v
  else s

/-- ALLOTMENT_WRITE (R604, R605). -/
def execAllotmentWrite (who off v : Nat) (s : State) : Host.Outcome State Fault Refusal := .next (s.allotWrite who off v)

/-- SHR_WRITE (R604, R606): a write of PRT_LIMITS_q. -/
def execShrWrite (who q v : Nat) (s : State) : Host.Outcome State Fault Refusal :=
  .next (if q < 128 then s.allotWrite who (addrOf .PRT_LIMITS_SHR q) v else s)

/-! The fault pin (R737). -/

/-- FAULT_N follows its conditions; a change is put out. -/
def State.faultPin (s : State) : State :=
  let a := s.boot.released && (s.get .MBX_BOOT_ERR != 0 || s.is .MBX_FAULT_TRIP || s.is .MBX_FAULT_OVERTEMP
    || s.is .MBX_FAULT_AVS || s.is .MBX_FAULT_FORCE)
  if a = s.boot.faultLow then s
  else ({ s.set .MBX_BOOT_FAULT_IN (b2n a) with boot := { s.boot with faultLow := a } } : State).emit (.pin "FAULT_N" !a)

/-! Power domains (R612-R617). -/

/-- Number of switched domains. -/
def domains : Nat := 78

/-- The partition uses domain `d` when it holds image `m` (R612). -/
def State.uses (s : State) (q : Nat) (m : Image) (d : Nat) : Bool :=
  if d < 72 then
    if d % 9 = 8 then true else (List.range 2).any (fun h => s.holdsGran q (16 * (d / 9) + 2 * (d % 9) + h))
  else if d = 73 then s.get .PRT_PORTS_PORTS q % 2 ^ 16 != 0
  else if d = 74 then s.get .PRT_PORTS_PORTS q / 2 ^ 16 != 0
  else if d = 77 then m.img.tsize != 0 || !m.img.watches.isEmpty
  else true

/-- Is a domain needed (R612)? -/
def State.needs (s : State) (d : Nat) : Bool :=
  (List.range 128).any (fun q => match (s.part q).image with | some m => s.uses q m d | none => false)
    || (d == 77 && s.is .DBG_CTRL_OPEN)

/-- Does a LOAD that waits need it (R614, R615)? -/
def State.loadNeeds (s : State) (d : Nat) : Bool :=
  (List.range 128).any (fun q => match (s.part q).loading with | some m => s.uses q m d | none => false)

/-- The mode of a domain; 3 acts as 0 (R638). -/
def State.domMode (s : State) (d : Nat) : Nat := s.get .PWR_DOM_MODE_MODE d % 3

/-- Shelf state holds the domain off from its completion until wake (R621, R626). -/
def State.shelfHolds (s : State) (d : Nat) : Bool :=
  s.get .PWR_SHELF_STATE == 2 && (decide (d < 72) && d % 9 != 8 || decide (73 ≤ d))

/-- Should a domain be on (R613, R614, R620)? In AUTO a row domain is on while needed; another one unless shelf state
holds it off (log entry 33). -/
def State.wantOn (s : State) (d : Nat) : Bool :=
  if s.shelfHolds d then false
  else if s.needs d || s.loadNeeds d then true
  else if s.domMode d = 1 then true
  else if s.domMode d = 2 then false
  else !(decide (d < 72) && d % 9 != 8)

/-- Ports of a domain (R616). -/
def portsOf (d : Nat) : List Nat :=
  if d = 73 then List.range 16 else if d = 74 then (List.range 16).map (· + 16) else []

/-- A domain turns off: its ports go down (R616). -/
def State.turnOff (s : State) (d : Nat) : State :=
  let s := s.setBit .PWR_DOM_STAT_ON (d % 32) false (d / 32)
  ((portsOf d).filter (fun p => s.is .LNK_P_STAT_UP p)).foldl State.portLost s

/-- NEED shows what is needed; a domain no longer wanted turns off at once (R612-R614, R620). -/
def State.powerUpdate (s : State) : State :=
  (List.range domains).foldl (fun s d =>
    let s := s.setBit .PWR_DOM_NEED_NEED (d % 32) (s.needs d) (d / 32)
    if s.domOn d && !s.wantOn d then s.turnOff d else s) s

/-- DOMAIN_ON (R613, R615): a wanted domain has finished turning on. Its ports retrain by themselves (R616, R368). -/
def execDomainOn (dom : Nat) (s : State) : Host.Outcome State Fault Refusal :=
  if dom < domains ∧ s.wantOn dom ∧ ¬ s.domOn dom then .next (s.setBit .PWR_DOM_STAT_ON (dom % 32) true (dom / 32))
  else .next s

/-- A write of PWR_DOM_MODE_w (R613, R614, R638). Fields of domains 78 and 79 are reserved. -/
def State.domModeWrite (s : State) (who w v : Nat) : State :=
  if privileged who && decide (w < 5) then
    ((List.range 16).foldl (fun s i =>
      if 16 * w + i < domains then s.set .PWR_DOM_MODE_MODE (bits v (2 * i) 2) (16 * w + i) else s) s).powerUpdate
  else s

/-- DOMAIN_MODE_WRITE (R613, R642). -/
def execDomainModeWrite (who w v : Nat) (s : State) : Host.Outcome State Fault Refusal := .next (s.domModeWrite who w v)

/-! Shelf state (R621-R627). -/

/-- Entry starts, or is refused (R624, R644). -/
def State.shelfEnter (s : State) : State :=
  if (List.range 128).any s.allotHeld ∨ s.is .LNK_CONF_STAT_BUSY ∨ s.get .PWR_SHELF_STATE ≠ 0 then s.set .PWR_SHELF_REFUSED 1
  else
    let s := s.set .PWR_SHELF_STATE 1
    ((List.range 32).filter (fun p => s.is .LNK_P_STAT_UP p)).foldl State.portLost s

/-- A wake request from source `src` (R626, R627): pending while the device is entering. -/
def State.shelfWake (s : State) (src : Nat) : State :=
  if s.get .PWR_SHELF_STATE = 1 then { s with boot := { s.boot with wake := some src } }
  else if s.get .PWR_SHELF_STATE = 2 then (s.set .PWR_SHELF_STATE 3).set .PWR_SHELF_SRC src
  else s

/-- The wake source of a register writer: the host, or the management controller. -/
def wakeSrc (who : Nat) : Nat := if who = 129 then 3 else 1

/-- A write of PWR_SHELF. -/
def State.shelfWrite (s : State) (who v : Nat) : State :=
  if privileged who then
    let s := plainWrite who s (addrOf .PWR_SHELF_ENTER) v
    let s := if bit v 0 then s.shelfEnter else s
    if bit v 1 then s.shelfWake (wakeSrc who) else s
  else s

/-- SHELF_ENTER (R624): a write of PWR_SHELF. -/
def execShelfEnter (who v : Nat) (s : State) : Host.Outcome State Fault Refusal := .next (s.shelfWrite who v)

/-- Panels of the retention regions (R622). -/
def retention : List Nat := (List.range 8).flatMap (fun d => (List.range 8).map (fun c => 136 * d + c))

/-- Does panel window `w` keep nothing: factory-failed or fenced (R297, R622)? -/
def State.unusable (s : State) (w : Nat) : Bool := s.is .PNL_HOOD_FENCED w || s.is .PNL_HOOD_FUSED w

/-- SHELF_ENTRY_DONE (R621, R622, R624, R627, R648). -/
def execShelfEntryDone (s : State) : Host.Outcome State Fault Refusal :=
  if s.get .PWR_SHELF_STATE = 1 then
    let s := (s.set .MEM_STAT_IN_SR 0xFF).set .PWR_SHELF_STATE 2
    let s := (s.set .TIM_STATUS_LOCK 0).powerUpdate
    let s := { s with tb := { s.tb with lockOk := false, goodExch := 0, exch := [] } }
    let s := (retention.filter s.unusable).foldl (fun s w => s.setPanel w { s.panel w with mem := [], lost := true }) s
    let s := s.raiseEv { code := 0xB002 }
    match s.boot.wake with
    | some src => .next (({ s with boot := { s.boot with wake := none } } : State).shelfWake src)
    | none => .next s
  else .next s

/-- SHELF_WAKE (R626, R627). -/
def execShelfWake (src : Nat) (s : State) : Host.Outcome State Fault Refusal := .next (s.shelfWake src)

/-- SHELF_WAKE_DONE (R323, R626): once every wanted domain is on, the stacks leave self-refresh and the poll resumes. -/
def execShelfWakeDone (s : State) : Host.Outcome State Fault Refusal :=
  if s.get .PWR_SHELF_STATE = 3 ∧ (List.range domains).all (fun d => !s.wantOn d || s.domOn d) then
    let s := ((s.set .MEM_STAT_IN_SR 0).set .MEM_CTRL_SR_REQ 0).set .PWR_SHELF_STATE 0
    .next (s.raiseEv { code := 0xB003, detail := s.get .PWR_SHELF_SRC })
  else .next s

/-! Monitors (R159, R629, R735). -/

/-- The readings of a field, element by element. -/
def State.setAllOf (s : State) (f : Fld) (l : List Nat) (n : Nat) : State :=
  (l.take n).zipIdx.foldl (fun s x => s.set f (min x.1 (2 ^ f.info.width - 1)) x.2) s

/-- A die's Tj reading: a rise to 95 °C or above warns (R159). -/
def State.tjReading (s : State) (d tj : Nat) : State :=
  let was := s.get .MON_DIE_TJ d
  let s := s.set .MON_DIE_TJ (min tj 255) d
  if was < 95 ∧ 95 ≤ tj then
    (s.paceEvt .PWR_PACE_EVT_THERM_WARN d).raiseEv { code := 0xB001, skind := 13, sindex := d, detail := min tj 255 }
  else s

/-- The readings of a refresh (R159, R629, R735, R737); a list shorter than eight leaves the rest. -/
def State.refresh (s : State) (r : Readings) : State :=
  let s := (r.tj.take 8).zipIdx.foldl (fun s x => s.tjReading x.2 x.1) s
  let s := ((s.setAllOf .MON_DIE_POWER r.power 8).setAllOf .MON_DIE_PACE r.pace 8).setAllOf .MEM_S_TEMP_TEMP r.hbmTemp 8
  let s := (s.set .MON_BAND_TJ (min r.bandTj 255)).set .MON_BAND_PKGPWR (min r.pkgPwr 65535)
  let hot := (List.range 8).any (fun d => decide (105 < s.get .MON_DIE_TJ d))
  (s.set .MBX_FAULT_OVERTEMP (b2n hot)).faultPin

/-- MONITOR_REFRESH (R38, R629): the readings given; with `mcDown` the management controller does not respond and every reading holds its
last value. -/
def execMonitorRefresh (r : Readings) (s : State) : Host.Outcome State Fault Refusal :=
  let s : State := { s with boot := { s.boot with mcDown := r.mcDown } }
  .next (if r.mcDown then s else s.refresh r)

/-! Rails (R716-R718). -/

/-- Set point of a rail in mV: the power-up value until one is written (R713). -/
def State.rail (s : State) (r : Nat) : Nat := look (if r = 8 then 750 else 800) s.boot.rails r

/-- Limits of a rail's set point (R713, R717, R719): a batt die's lies below 0.73 V only while no partition holds an image. -/
def State.railOk (s : State) (r mv : Nat) : Bool :=
  if r = 8 then decide (700 ≤ mv ∧ mv ≤ 850)
  else decide (600 ≤ mv ∧ mv ≤ 900) && (!(List.range 128).any s.allotHeld || decide (730 ≤ mv))

/-- One set-point step toward `mv`: at most 50 mV. -/
def railStep (cur mv : Nat) : Nat := if cur < mv then min mv (cur + 50) else max mv (cur - 50)

/-- The writes of one set-point change; `tries` says which are acknowledged without error, true where it ends. Three failures
in a row leave the set point where it is and set AVS (R718). -/
def State.avsWrites (s : State) (r mv : Nat) : Nat → Nat → List Bool → State
  | 0, _, _ => s
  | n + 1, fails, tries =>
    let cur := s.rail r
    if cur = mv then s
    else
      let nx := railStep cur mv
      let s := s.emit (.avs r nx)
      if tries.headD true then
        ({ s with boot := { s.boot with rails := ins s.boot.rails r nx } } : State).avsWrites r mv n 0 (tries.drop 1)
      else if fails = 2 then (s.set .MBX_FAULT_AVS 1).faultPin
      else s.avsWrites r mv n (fails + 1) (tries.drop 1)

/-- Batt-die rails below 0.73 V rise to it as an image comes in (R717, R719, log entry 163). -/
def State.raiseRails (s : State) : State :=
  (List.range 8).foldl (fun s d => if s.rail d < 730 then s.avsWrites d 730 21 0 [] else s) s

/-- AVS_WRITE (R716-R719). No set point is written before boot stage 1. -/
def execAvsWrite (rail mv : Nat) (tries : List Bool) (s : State) : Host.Outcome State Fault Refusal :=
  if rail ≤ 8 ∧ s.railOk rail mv ∧ s.boot.released then .next (s.avsWrites rail mv (21 + tries.length) 0 tries) else .next s

end Sys2Proof.Machine
end

