-- ==== Sys2Proof/Machine/LoadCheck.lean ====
section
/-! DEFINITION. Block images: header and section table, and every load check (R218, R233, R246, R253, R256, R269, R298, R299,
R308, R310, R311, R359, R481, R520-R526, R534, R569, R601-R608, R676). -/
namespace Sys2Proof.Machine

/-! The header and the section table (R520). -/

/-- The block image header (table Block image header). -/
structure Hdr where
  ilen      : Nat := 0
  digest    : List Byte := []
  pace      : Nat := 0
  nrsys     : Nat := 0
  nbsys     : Nat := 0
  nr        : Nat := 0
  nb        : Nat := 0
  bsize     : Nat := 0
  steps     : Nat := 0
  stopreach : Nat := 0
  hopb      : Nat := 0
  nsect     : Nat := 0
  foldkey   : List Byte := []
  good      : Bool := false
  deriving DecidableEq, Repr

/-- The header of image bytes `bs` of which LEN were asked for. -/
def parseHdr (bs : List Byte) (len : Nat) : Hdr :=
  { ilen := fieldLE bs 8 8, digest := (bs.drop 16).take 32, pace := fieldLE bs 48 2, nrsys := fieldLE bs 50 1,
    nbsys := fieldLE bs 51 1, nr := fieldLE bs 52 1, nb := fieldLE bs 53 1, bsize := fieldLE bs 54 1, steps := fieldLE bs 56 4,
    stopreach := fieldLE bs 60 4, hopb := fieldLE bs 64 4, nsect := fieldLE bs 68 4, foldkey := (bs.drop 72).take 16,
    good := decide (128 ≤ len) && bs.take 6 == [0x45, 0x56, 0x4E, 0x42, 0x4C, 0x4B] && fieldLE bs 6 2 == 1
      && fieldLE bs 8 8 == len && fieldLE bs 55 1 == 0 && ((bs.drop 88).take 40).all (· == 0) }

/-- SHA-256 of an image with its DIGEST field taken as zero. -/
def imageDigest (bs : List Byte) : List Byte := sha256 (bs.take 16 ++ List.replicate 32 0 ++ bs.drop 48)

/-- A section entry (table Section entry). -/
structure Sect where
  type   : Nat := 0
  member : Nat := 0
  len    : Nat := 0
  off    : Nat := 0
  deriving DecidableEq, Repr

/-- Entry `i` of the section table. -/
def sectAt (bs : List Byte) (i : Nat) : Sect :=
  let a := 128 + 16 * i
  { type := fieldLE bs a 1, member := fieldLE bs (a + 2) 2, len := fieldLE bs (a + 4) 4, off := fieldLE bs (a + 8) 8 }

/-- The section table, as far as it lies within the image. -/
def sects (bs : List Byte) (h : Hdr) : List Sect := (List.range (min h.nsect ((h.ilen - 128) / 16))).map (sectAt bs)

/-- Two sections overlap. -/
def Sect.meets (a b : Sect) : Bool :=
  decide (0 < a.len) && decide (0 < b.len) && decide (a.off < b.off + b.len) && decide (b.off < a.off + a.len)

/-- The section table is in order: no reserved TYPE, every section within the image, none overlapping another (reason 8). -/
def sectsOk (bs : List Byte) (h : Hdr) : Bool :=
  let l := sects bs h
  decide (128 + 16 * h.nsect ≤ h.ilen)
    && l.all (fun x => decide (1 ≤ x.type) && decide (x.type ≤ 12) && decide (x.off + x.len ≤ h.ilen))
    && l.zipIdx.all (fun x => (l.drop (x.2 + 1)).all (fun y => !x.1.meets y))

/-- The step grid of member `memb`: the boundaries of its section of type 1 (R520, R521). -/
def gridOf (bs : List Byte) (h : Hdr) (memb : Nat) : Option (List Nat) :=
  match (sects bs h).find? (fun x => x.type == 1 && (x.member == memb || x.member == 0xFFFF)) with
  | some x => if x.len = 8 * (h.steps + 1) then some ((List.range (h.steps + 1)).map (fun n => fieldLE bs (x.off + 8 * n) 8))
              else none
  | none => none

/-- Strictly increasing. -/
def rising : List Nat → Bool
  | a :: b :: r => decide (a < b) && rising (b :: r)
  | _ => true

/-- A step grid begins at 0 and increases, with at least one step. -/
def gridOk (g : List Nat) : Bool := decide (2 ≤ g.length) && g.head? == some 0 && rising g

/-! Members and ports. -/

/-- The member that the device binds to (R525), as packed (i, j, s); none when the slice does not fit (reason 7). -/
def State.bindMember (s : State) (h : Hdr) (rOrg bOrg : Nat) : Option Nat :=
  let rk := s.get .LNK_COORD_RACK
  let bd := s.get .LNK_COORD_BOARD
  let sl := s.get .LNK_COORD_SLOT
  if h.bsize ≠ s.get .LNK_COORD_BSIZE ∨ h.nrsys = 0 ∨ 16 < h.nrsys ∨ h.nbsys = 0 ∨ 16 < h.nbsys ∨ h.nrsys ≤ rk ∨ h.nbsys ≤ bd
      ∨ h.nrsys ≤ rOrg ∨ h.nbsys ≤ bOrg ∨ h.nr = 0 ∨ h.nrsys < h.nr ∨ h.nb = 0 ∨ h.nbsys < h.nb then none
  else
    let i := (rk + h.nrsys - rOrg) % h.nrsys
    let j := (bd + h.nbsys - bOrg) % h.nbsys
    if i < h.nr ∧ j < h.nb then some (i * 256 + j * 16 + sl) else none

/-- The image as the partition will hold it. -/
def mkImage (h : Hdr) (rOrg bOrg memb : Nat) (grid : List Nat) (b : BlockImage) : Image :=
  { digest := h.digest, pace := h.pace, nrsys := h.nrsys, nbsys := h.nbsys, nr := h.nr, nb := h.nb, bsize := h.bsize == 1,
    steps := h.steps, stopreach := h.stopreach, hopb := h.hopb, foldkey := h.foldkey, rOrg := rOrg, bOrg := bOrg,
    memb := memb, img := { b with grid := grid } }

/-- The ports that the image's band output nodes name (R233). -/
def slotPorts (b : BlockImage) : List Nat :=
  (b.slices.flatMap (fun x =>
    if nodeKind x.node = 3 then
      let c := x.node - 12288
      let ins := (x.a.entries ++ x.b.entries).filterMap (fun e => if 64 ≤ e.inp ∧ e.inp < 96 then some (e.inp - 64) else none)
      (if 64 ≤ c then [c - 64] else []) ++ ins
    else [])).eraseDups

/-- The ports an image uses, lowest first. -/
def usedPorts (b : BlockImage) : List Nat :=
  (List.range 32).filter (fun p => b.ports.any (fun x => x.port == p) || decide (p ∈ (slotPorts b)))

/-- Why a port is refused: 5 wiring (R359), 6 path too long (R256), 0 for none. A port the slot tables use and the port
section does not record fails as wiring (log entry 35). -/
def State.portReason (s : State) (m : Image) (p : Nat) : Nat :=
  match m.img.ports.find? (fun x => x.port == p) with
  | none => 5
  | some x => if ¬ s.portOk m x then 5 else if x.allow < s.get .LNK_P_PATH_ALLOW p then 6 else 0

/-! Step lists (R216-R218). -/

/-- The checks' surroundings for one panel of an image: seams lead to panels the image declares. -/
def loadEnv (b : BlockImage) (x : ImgSteps) : ChkEnv :=
  { slr := 4096 * x.slr,
    seam := fun sp => match neighbour x.panel (sp - 2) with
      | some l => decide (l ∈ b.panels)
      | none => false }

/-- Streams of the partition's slot-table slices (code 13). -/
def imgStreams (b : BlockImage) : List Nat :=
  b.slices.flatMap (fun x => (x.a.entries ++ x.b.entries).map (·.stream))

/-- Bytes of a region given as a list; bytes beyond it are 0. -/
def regionRead (r : List Byte) (a n : Nat) : List Byte := ((r.drop a).take n ++ List.replicate n 0).take n

/-- The operations of directory entry `d`, or its first failure as (word, code). -/
def checkDir (b : BlockImage) (x : ImgSteps) (d : Nat) : List POp × Option (Nat × Nat) :=
  let e := dirEntry (regionRead x.region) d
  if dirBad (4096 * x.slr) x.dirn e.1 e.2.1 then ([], some (0, 12))
  else
    let r := checkOps (loadEnv b x) (fun st => decide (st ∈ (imgStreams b))) (regionRead x.region) e.1 e.2.1 (e.2.1 + 1) 0 {} none []
    (r.1, r.2.map (fun f => (f.1, f.2.1)))

/-- The panels' step-list sections in ascending logical panel id. -/
def stepsByPanel (b : BlockImage) : List ImgSteps :=
  (List.range 1024).flatMap (fun l => b.steps.filter (fun x => x.panel == l))

/-- The first failing list: logical panel, directory index, word, code (R218). -/
def firstReject (b : BlockImage) : Option (Nat × Nat × Nat × Nat) :=
  (stepsByPanel b).findSome? (fun x => (List.range x.dirn).findSome? (fun d =>
    (checkDir b x d).2.map (fun f => (x.panel, d, f.1, f.2))))

/-- A step-list region with MINW computed into every directory entry (R184, R216). -/
def withMinw (b : BlockImage) (pace : Nat) (x : ImgSteps) : List Byte :=
  let put (r : List Byte) (d : Nat) : List Byte :=
    let m := min (minw pace (checkDir b x d).1) (2 ^ 32 - 1)
    regionRead r 0 (8 * d + 4) ++ toLE 4 m ++ r.drop (8 * d + 8)
  (List.range x.dirn).foldl put x.region

/-! Rows and spares (R298, R299). -/

/-- Rows (8 d + r) of a partition: those of its granules and of the image's panels. -/
def State.rowsOf (s : State) (q : Nat) (b : BlockImage) : List Nat :=
  (List.range 64).filter (fun k =>
    s.holdsGran q (2 * k) || s.holdsGran q (2 * k + 1) || b.panels.any (fun l => l / 16 == k))

/-- Unusable panels of columns 0-15 of a row. -/
def State.badCols (s : State) (k : Nat) : List Nat := (List.range 16).filter (fun c => s.unusable (136 * (k / 8) + 17 * (k % 8) + c))

/-- Is the spare of a row unusable? -/
def State.spareBad (s : State) (k : Nat) : Bool := s.unusable (136 * (k / 8) + 17 * (k % 8) + 16)

/-- The column a row is remapped on, 0x1F for none; no answer for an unserviceable row. -/
def State.rowMap (s : State) (k : Nat) : Option Nat :=
  match s.badCols k with
  | [] => some 0x1F
  | [c] => if s.spareBad k then none else some c
  | _ => none

/-- The images that a partition holds or that are being applied to it. -/
def Part.images (p : Part) : List Image := p.image.toList ++ p.loading.toList

/-- The images of every partition but `q`. -/
def State.otherImages (s : State) (q : Nat) : List Image := (others q).flatMap (fun p => (s.part p).images)

/-- Does another partition's image use row `k`? -/
def State.rowHeld (s : State) (q k : Nat) : Bool := (s.otherImages q).any (fun m => m.img.panels.any (fun l => l / 16 == k))

/-- Reason 9: an unserviceable row, or one whose mapping would have to change under another image (log entry 36). -/
def State.noSpare (s : State) (q : Nat) (b : BlockImage) : Bool :=
  (s.rowsOf q b).any (fun k => match s.rowMap k with
    | none => true
    | some c => s.rowHeld q k && c != s.get .MEM_REMAP_FAILCOL k)

/-! Ownership (R268, R603, R607, R608). -/

/-- The logical panel at the panel end of edge link `o` of stitch node (t, end) (R284, R285). -/
def edgePanel (t end_ o : Nat) : Nat :=
  let d := stitchDie t end_
  if 6 ≤ t then 128 * d + 112 + 8 * (t % 2) + o else 128 * d + 16 * o + (if end_ = 0 then 15 else 0)

/-- The memory-node port code at the far end of a stitch node's link 12 (R305). -/
def stitchMemCode (t end_ : Nat) : Nat := if 6 ≤ t then 6 + t % 2 else if end_ = 0 then 5 else 4

/-- Lane `n` is allotted to partition `q`. -/
def State.laneAllot (s : State) (q n : Nat) : Bool := s.getBit .PRT_LANES_LANES (n % 32) (3 * q + n / 32)

/-- Does partition `q` own port code `c` of node `n`, as an output or an input? -/
def State.ownsCode (s : State) (q n c : Nat) (out : Bool) : Bool :=
  match nodeKind n with
  | 1 => s.holdsGran q (granOf (n - 4096))
  | 2 =>
    let t := (n - 8192) / 2
    let e := (n - 8192) % 2
    if c < 8 then s.holdsGran q (granOf (edgePanel t e c))
    else if c < 12 then s.laneAllot q (4 * t + (c - 8))
    else s.getBit .PRT_MPORT_MPORT (stitchMemCode t e) q
  | 3 =>
    let k := if out then n - 12288 else c
    if k < 64 then s.laneAllot q (24 + k) else s.getBit .PRT_PORTS_PORTS (k - 64) q
  | _ => s.getBit .PRT_MPORT_MPORT c q

/-- `n` bytes at device-local address `a` lie in the partition's HBM range. -/
def State.inRange (s : State) (q a n : Nat) : Bool :=
  let r := s.hbmRange q
  n == 0 || (decide (r.1 ≤ a) && decide (a + n ≤ r.1 + r.2))

/-- Bytes of a context's windows, from its size in quarters. -/
def ctxBytes (c : ImgCtx) : Nat := 16384 * c.size

/-- Length of a checkpoint record (table Checkpoint record). -/
def ckLen (b : BlockImage) : Nat :=
  256 + b.ctxs.foldl (fun n c => n + ctxBytes c) 0 + 64 * b.shrUnits + b.tensor

/-- Reason 10: something outside the allotment. -/
def State.notOwned (s : State) (q : Nat) (b : BlockImage) : Bool :=
  b.panels.any (fun l => !s.holdsGran q (granOf l))
    || b.steps.any (fun x => !decide (x.panel ∈ b.panels))
    || decide (s.get .PRT_LIMITS_CTXMAX q < b.ctxs.length)
    || decide (s.get .SEQ_SHR_SIZE q < b.shrUnits)
    || b.shared.any (fun x => decide (64 * s.get .SEQ_SHR_SIZE q ≤ x.1))
    || decide ((s.hbmRange q).2 < b.hbmLen)
    || b.hbm.any (fun x => !s.inRange q x.1 1)
    || b.ports.any (fun x => !s.getBit .PRT_PORTS_PORTS x.port q)
    || b.intakes.any (fun x => !s.inRange q x.landing (x.n * x.cap))
    || !s.inRange q b.egAddr b.egSize
    || (!b.ckSteps.isEmpty && (!s.inRange q b.ckA (ckLen b) || !s.inRange q b.ckB (ckLen b)))
    || !s.inRange q b.traceBase (32 * b.tsize)
    || b.slices.any (fun x =>
        (nodeKind x.node == 1 && !s.ownsCode q x.node 0 true)
        || (x.a.entries ++ x.b.entries).any (fun e =>
            !s.ownsCode q x.node e.inp false || (outs e).any (fun o => !s.ownsCode q x.node o true)))

/-! Slot tables (R233, R239, R246, R253, R269, R608). -/

/-- Is port code `c` of node `n` a port that node has? Mesh nodes are named by their logical panel. -/
def codeExists (n c : Nat) (out : Bool) : Bool :=
  match nodeKind n with
  | 1 =>
    let l := n - 4096
    if l ≥ 1024 ∨ 4 < c then false
    else if c = 0 then true
    else match neighbour l (c - 1) with
      | some _ => true
      | none => if c = 1 then l % 16 ∈ ([3, 6, 9, 12] : List Nat) else (edgeStitch (l / 128) (l / 16 % 8) (l % 16) (c - 1)).isSome
  | 2 =>
    let t := (n - 8192) / 2
    decide (t < 22) && (decide (t < 6) || n % 2 == 0) && decide (c ≤ 12)
  | 3 => decide (n - 12288 < 96) && (if out then c == 0 else decide (c < 96))
  | _ =>
    let d := n - 16384
    decide (d < 8) && decide (c < 16)
      && (if c = 4 then d != 0 && d != 4 else if c = 5 then d != 3 && d != 7 else true)

/-- Times per frame that slots `o`, `o + flen`, … fall into `w` consecutive slots from `x`. -/
def hits (flen o x w : Nat) : Nat :=
  let k := (o + flen - x % flen) % flen
  if k < w then (w - 1 - k) / flen + 1 else 0

/-- The largest total weight of entries in any `w` consecutive slots of a repeating frame (R253, R311). -/
def peak (flen w : Nat) (l : List (Nat × Nat)) : Nat :=
  if flen = 0 then 0
  else l.foldl (fun m x => max m (l.foldl (fun n y => n + y.2 * hits flen y.1 x.1 w) 0)) 0

/-- Entries of a bank that act. -/
def liveOf (b : Bank) : List Entry := b.entries.filter (·.valid)

/-- Two entries of one bank that meet in one slot: the same input or a common output. -/
def clash (a b : Entry) : Bool := a.offset == b.offset && (a.inp == b.inp || a.out &&& b.out != 0)

/-- One bank of one node is in order under R233, R239, R246 and R253. -/
def bankOk (n lo hi : Nat) (b : Bank) : Bool :=
  let l := liveOf b
  decide (b.flen ≤ 8192) && decide (b.entries.length ≤ hi - lo)
    && b.entries.all (fun e => !e.resv) && l.all (fun e => decide (e.offset < b.flen) && codeExists n e.inp false
      && (outs e).all (fun o => codeExists n o true) && decide (e.out < 2 ^ 16))
    && l.zipIdx.all (fun x => (l.drop (x.2 + 1)).all (fun y => !clash x.1 y))
    && !(nodeKind n == 3 && decide (64 ≤ n - 12288)
      && decide (29 < peak b.flen 32 (l.map (fun e => (e.offset, e.out % 2)))))

/-- The key under which an image's node is kept: a mesh node's logical panel id becomes its window. -/
def State.nodeKey (s : State) (n : Nat) : Nat := if nodeKind n = 1 then meshKey (s.winOfLog (n - 4096)) else n

/-- Reason 11. A node holds at most 8 slices, which do not overlap (R239, R269); images still being applied count. -/
def State.badSlots (s : State) (q : Nat) (m : Image) : Bool :=
  m.img.slices.any (fun x =>
    let held := ((s.otherImages q).flatMap (·.img.slices)).filter (fun y => y.node == x.node)
    decide (8192 < x.hi) || decide (x.hi < x.lo) || decide (8 ≤ held.length)
      || held.any (fun y => decide (x.lo < y.hi) && decide (y.lo < x.hi))
      || !bankOk x.node x.lo x.hi x.a || !bankOk x.node x.lo x.hi x.b)
    || (s.otherImages q).any (fun o => o.memPorts.any (fun k => decide (k ∈ m.memPorts)))

/-! Memory (R308, R310, R311, R676). -/

/-- HBM port uses of an entry: a read, and each written output. -/
def entUses (e : Entry) : Nat := (if 8 ≤ e.inp then 1 else 0) + ((outs e).filter (fun o => decide (8 ≤ o))).length

/-- Does an entry read, or write, HBM? -/
def entReads (e : Entry) : Bool := decide (8 ≤ e.inp)
def entWrites (e : Entry) : Bool := decide (2 ^ 8 ≤ e.out)

/-- Sequence of the n-th firing of an entry (R241). -/
def entSeqAt (e : Entry) (n : Nat) : Nat := (e.seq + n * e.sinc) % 2 ^ 16

/-- The unit an entry's n-th firing reaches, if its sequence is served (R307, R314). -/
def entUnitAt (e : Entry) (binds : SMap MemBind) (n : Nat) : Option Nat :=
  let mb := look {} binds e.bind
  if (entSeqAt e) n ≤ mb.limit then some (mb.ubase + (entSeqAt e) n) else none

/-- The frames by which a write of `w` may precede a read of `r` by 256 to 512 slots, as firing distances. -/
def gaps (flen : Nat) (w r : Entry) : List Int :=
  ((List.range (512 / flen + 3)).map (fun (k : Nat) => (k : Int) - 1)).filter (fun k =>
    let d : Int := (r.offset : Int) - w.offset + k * flen
    decide (256 ≤ d) && decide (d ≤ 512))

/-- Does some frame place a write of `w` to a unit 256 to 512 slots before a read of it by `r` (R310)? Sequences repeat after
2^16 frames. -/
def orderBad (b : Bank) (w r : Entry) : Bool :=
  (gaps b.flen w r).any (fun k => (List.range (2 ^ 16)).any (fun n =>
    let j : Int := (n : Int) + k
    decide (0 ≤ j) && (match (entUnitAt w) b.binds n, (entUnitAt r) b.binds j.toNat with
      | some u, some v => u == v
      | _, _ => false)))

/-- One bank of the memory node of a die breaks R308, R310 or R311. -/
def State.bankMemBad (s : State) (q : Nat) (b : Bank) : Bool :=
  let r := s.hbmRange q
  let l := liveOf b
  b.binds.any (fun x => decide (256 ≤ x.1) || decide (x.2.ubase < r.1 / 2048)
      || decide ((r.1 + r.2) / 2048 ≤ x.2.ubase + x.2.limit))
    || l.any (fun e => decide (0 < (entUses e)) && (match look? b.binds e.bind with
        | some mb => ((entReads e) && !mb.rd) || ((entWrites e) && !mb.wr)
        | none => true))
    || decide (s.get .MEM_QUOTA_QUOTA q < peak b.flen 8 (l.map (fun e => (e.offset, (entUses e)))))
    || (l.filter entWrites).any (fun w => (l.filter entReads).any (fun x => orderBad b w x))

/-- Sum of OBW over the images of the partitions other than `q`. -/
def State.obwOthers (s : State) (q : Nat) : Nat := (s.otherImages q).foldl (fun n m => n + m.img.obw) 0

/-- Reason 12. -/
def State.badMemory (s : State) (q : Nat) (m : Image) : Bool :=
  m.img.slices.any (fun x => nodeKind x.node == 4 && (s.bankMemBad q x.a || s.bankMemBad q x.b))
    || decide (80512 < s.obwOthers q + m.img.obw)

/-! Sections (reason 8). -/

/-- TSIZE is permitted (R675). -/
def tsizeOk (n : Nat) : Bool := n == 0 || (List.range 15).any (fun k => n == 2 ^ (10 + k))

/-- Slots before a halt point that must be free of firings (R676). -/
def quietQ (b : BlockImage) : Nat := b.ports.foldl (fun m p => max m (p.allow + 64)) (if b.ports.isEmpty then 16 else 0)

/-- Does an entry of bank A, in force from its activation slot, fire in slots `x` to `x + w - 1` (log entry 37)? -/
def firesIn (b : Bank) (e : Entry) (x w : Nat) : Bool :=
  let x' := max x b.act
  e.valid && decide (0 < b.flen) && decide (x' < x + w)
    && decide (0 < hits b.flen (e.offset % b.flen) (x' - b.act) (x + w - x'))

/-- A halt point at slot `b` is quiet (R676). -/
def haltQuiet (m : BlockImage) (b : Nat) : Bool :=
  let w := min (quietQ m) b
  !m.slices.any (fun x => x.a.entries.any (fun e => firesIn x.a e (b - w) w))

/-- Reason 8 beyond the section table: the declarations of intake points and of the observation section (R569, R676). -/
def badDecl (m : BlockImage) : Bool :=
  let is := m.intakes.map (·.slot)
  (is.zip (is.drop 1)).any (fun x => decide (x.2 < x.1))
    || !tsizeOk m.tsize
    || m.watches.any (fun w => m.steps.any (fun x => decide (0 < w.size) && decide (w.off < 4096 * x.slr)))
    || m.halts.any (fun n => !(haltQuiet m) (m.grid.getD n 0))
    || m.steps.any (fun x => decide (32 < x.slr) || decide (1024 < x.dirn) || decide (4096 * x.slr < x.region.length))

/-! Contexts (R479, R481). -/

/-- Context SIZE code of a size in quarters. -/
def sizeCode (n : Nat) : Option Nat := match n with | 1 => some 0 | 2 => some 1 | 4 => some 2 | _ => none

/-- The quarters that an image being applied will use. -/
def Part.planned (p : Part) : List Nat :=
  match p.loading with
  | some m => p.plan.flatMap (fun ix => match m.img.ctxs[ix.1]? with
      | some c => (List.range c.size).map (fun i => ix.2 + i)
      | none => [])
  | none => []

/-- The quarters in use: each bound context owns its own and those that follow it; images being applied have theirs. -/
def State.quartersUsed (s : State) : List Nat :=
  (List.range 128).flatMap (fun x =>
    (if s.is .SEQ_CTX_BIND_BOUND x then (List.range (2 ^ s.get .SEQ_CTX_BIND_SIZE x)).map (fun i => x + i) else [])
      ++ (s.part x).planned)

/-- The lowest context free for a size. -/
def freeCtx (used : List Nat) (n : Nat) : Option Nat :=
  (List.range 128).find? (fun x => x % 4 % n == 0 && (List.range n).all (fun i => !decide (x + i ∈ used)))

/-- Contexts for the declared sizes, largest first, as (declaration index, context) (log entry 38). -/
def placeCtxs (used : List Nat) : List (Nat × Nat) → Option (List (Nat × Nat))
  | [] => some []
  | (i, n) :: r =>
    match freeCtx used n with
    | some x => (placeCtxs (used ++ (List.range n).map (fun k => x + k)) r).map (fun l => (i, x) :: l)
    | none => none

/-- The binding of an image's contexts; none is reason 14. -/
def State.ctxPlan (s : State) (b : BlockImage) : Option (List (Nat × Nat)) :=
  let d := b.ctxs.zipIdx.map (fun c => (c.2, c.1.size))
  if d.any (fun x => (sizeCode x.2).isNone) then none
  else placeCtxs s.quartersUsed ([4, 2, 1].flatMap (fun n => d.filter (fun x => x.2 == n)))

/-! The order of the checks (R526). -/

/-- What a refused load reports: reason, physical panel, directory index, word, code, port. -/
structure LoadErr where
  reason : Nat := 0
  panel  : Nat := 0
  dir    : Nat := 0
  word   : Nat := 0
  code   : Nat := 0
  port   : Nat := 0x3F
  deriving DecidableEq, Repr

/-- The device can accept images: stage 9 with no boot error (R732), a good strap, TEST_EN low. -/
def State.ready (s : State) : Bool :=
  s.get .MBX_BOOT_STAGE == 9 && s.get .MBX_BOOT_ERR == 0 && !s.is .LNK_COORD_STRAP_BAD && !s.is .MBX_BOOT_TEST
    && !s.boot.tripped

/-- The stop-reach check (R534): HOPB against every port, STOPREACH against HOPB. -/
def State.reachBad (s : State) (m : Image) : Bool :=
  (usedPorts m.img).any (fun p => decide (m.hopb < s.get .LNK_P_PATH_FLIGHT p + 2208)) || decide (m.stopreach < 4096 + m.hopb)

/-- The checks from reason 7 on, of an image whose header and digests are in order. -/
def State.loadRest (s : State) (q : Nat) (h : Hdr) (bs : List Byte) (m : Image) (grid : Option (List Nat)) : Option LoadErr :=
  if ¬ sectsOk bs h ∨ ¬ gridOk (grid.getD []) ∨ (badDecl m.img) then some { reason := 8 }
  else if s.noSpare q m.img then some { reason := 9 }
  else if s.notOwned q m.img then some { reason := 10 }
  else if s.badSlots q m then some { reason := 11 }
  else if s.badMemory q m then some { reason := 12 }
  else if s.allotHeld q then some { reason := 13 }
  else if (s.ctxPlan m.img).isNone then some { reason := 14 }
  else if s.reachBad m then some { reason := 15 }
  else none

/-- The physical panel that a logical panel of a refused image would have: by the mapping its row would get. -/
def State.wouldBe (s : State) (l : Nat) : Nat :=
  let f := (s.rowMap (l / 16)).getD 0x1F
  256 * (l / 128) + 32 * (l / 16 % 8) + (if l % 16 < f then l % 16 else l % 16 + 1)

/-- Every check in the order of the table Load reasons: the refusal, or the image to apply. -/
def State.loadCheck (s : State) (q rOrg bOrg len : Nat) (p1 p2 : List Byte) (b : BlockImage) : LoadErr ⊕ Image :=
  let h := parseHdr p2 len
  let memb := s.bindMember h rOrg bOrg
  let grid := gridOf p2 h (memb.getD 0)
  let m := mkImage h rOrg bOrg (memb.getD 0) (grid.getD []) b
  if ¬ s.ready then .inl { reason := 1 }
  else if ¬ h.good then .inl { reason := 2 }
  else match firstReject b with
  | some (l, d, w, c) => .inl { reason := 3, panel := s.wouldBe l, dir := d, word := w, code := c }
  | none =>
    if imageDigest p1 ≠ (p1.drop 16).take 32 ∨ imageDigest p2 ≠ h.digest then .inl { reason := 4 }
    else match (usedPorts b).find? (fun p => s.portReason m p == 5) with
    | some p => .inl { reason := 5, port := p }
    | none => match (usedPorts b).find? (fun p => s.portReason m p == 6) with
      | some p => .inl { reason := 6, port := p }
      | none =>
        if memb.isNone then .inl { reason := 7 }
        else match s.loadRest q h p2 m grid with
          | some e => .inl e
          | none => .inr m

end Sys2Proof.Machine
end

