-- ==== Sys2Proof/Machine/Load.lean ====
section
/-! DEFINITION. LOAD, its application once the domains are on, and UNLOAD (R397, R426, R443, R523-R528, R556, R614, R615,
R618, R619, R699). -/
namespace Sys2Proof.Machine

/-- Fields in a list are cleared for element `i`. -/
def State.zero (s : State) (i : Nat) (l : List Fld) : State := l.foldl (fun s f => s.set f f.info.reset i) s

/-- A load refused record (kind 0x02) and the detail bytes of its reason; bytes of other reasons are 0 (R410, R526). -/
def State.loadRefused (s : State) (fn : Nat) (d : Sub) (e : LoadErr) : State :=
  s.complete fn { kind := 2, irq := d.irq, status := 5, tag := d.tag,
                  detail := toLE 1 d.q ++ toLE 1 0 ++ toLE 2 e.panel ++ toLE 2 e.dir ++ toLE 2 e.word ++ toLE 1 e.code
                    ++ toLE 1 e.reason ++ toLE 1 e.port }

/-- Does the load make a domain in FORCE_OFF needed (R614)? -/
def State.overrides (s : State) (q : Nat) (m : Image) : Bool :=
  (List.range domains).any (fun d => s.domMode d == 2 && s.uses q m d && !s.needs d && !s.loadNeeds d)

/-- An access of the loader to `n` bytes at `a` of HBM that meets a stack in self-refresh is recorded, as R322 has it for every access
(log entry 146). -/
def State.noteSr (s : State) (a n : Nat) : State :=
  if (stacksOf a n).any s.inSr then s.raiseEv { code := 0x5006, skind := 6, sindex := 0, detail := a % 2 ^ 48 } else s

/-- What the loader reads of HBM: all ones from a stack in self-refresh (R322). -/
def State.loaderRead (s : State) (a n : Nat) : List Byte :=
  (s.hbmRead a n).zipIdx.map (fun b => if s.inSr (stackOf (a + b.2)) then 0xFF else b.1)

/-- A load of a running partition would write the active bank of its slices: refused, and recorded (R249, R524, log entry 147). -/
def State.noteActive (s : State) (q : Nat) (e : LoadErr) : State :=
  if e.reason = 13 ∧ s.runSt q = 3 then
    match (s.image q).img.slices.head? with
    | some x => s.raiseEv { code := 0x3004, part := some q, skind := nodeKind x.node, sindex := nodeIndex (s.nodeKey x.node) }
    | none => s
  else s

/-- The loader has the two passes of the image and applies every check (R523-R526). `img` is the image's sections for this member, decoded
(log entry 9). -/
def State.loadJudge (s : State) (fn : Nat) (d : Sub) (p1 p2 : List Byte) (img : BlockImage) : State :=
  let q := d.q
  match s.loadCheck q (d.argN 21 1) (d.argN 22 1) (d.argN 16 4) p1 p2 img with
  | .inl e => (s.noteActive q e).loadRefused fn d e
  | .inr m =>
    let s := if s.overrides q m then s.set .PWR_DOM_ERR_OVERRIDDEN 1 else s
    (s.setPart q { s.part q with loading := some m, loadBy := fn, loadTag := d.tag, loadIrq := d.irq,
                                 plan := (s.ctxPlan m.img).getD [] }).powerUpdate

/-- The host reads of a LOAD begin (R397, R422, R523). An image of no bytes needs none. -/
def State.startLoad (s : State) (fn : Nat) (bs : List Byte) (d : Sub) : State :=
  let n := (pieces s.readMax (d.argN 8 8) (d.argN 16 4)).length
  let j : LoadJob := { desc := bs, left := n, second := n == 0 }
  let s : State := { s with hre := { s.hre with loads := ins s.hre.loads fn j } }
  s.readAll (fun off _ => .load fn false off) (d.argN 8 8) (d.argN 16 4)

/-- LOAD (R397, R412, R426, R443, R523-R526). With INHBM 0 the command begins by reading the source twice; once both passes are read, it
checks the image. A failed read ends it with STATUS 2. -/
def execLoad (fn : Nat) (img : BlockImage) (s : State) : Host.Outcome State Fault Refusal :=
  match look? s.hre.loads fn with
  | some j =>
    if j.second ∧ j.left = 0 then
      let s : State := { s with hre := { s.hre with loads := del s.hre.loads fn } }
      .next (s.loadJudge fn (parseSub fn j.desc) (joined j.got1) (joined j.got2) img)
    else .next s
  | none =>
    match s.subFor fn 2 with
    | none => .next s
    | some (d, r) =>
      let bs := (s.ring fn 0).fetched.headD []
      let s := (s.setFetched fn r).setPart d.q { s.part d.q with loadFn := fn }
      let len := d.argN 16 4
      if bit (d.argN 20 1) 0 then
        if s.inRange d.q (d.argN 8 8) len then
          let b := s.loaderRead (d.argN 8 8) len
          .next ((s.noteSr (d.argN 8 8) len).loadJudge fn d b b img)
        else .next (s.loadRefused fn d { reason := 10 })
      else .next (s.startLoad fn bs d)

/-! Application (R527). -/

/-- Rows take their column mapping (R298). -/
def State.mapRows (s : State) (rows : List Nat) : State :=
  rows.foldl (fun s k =>
    let f := (s.rowMap k).getD 0x1F
    let w := 136 * (k / 8) + 17 * (k % 8)
    let s := (s.set .MEM_REMAP_FAILCOL f k).set .MEM_REMAP_SPARE_BAD (b2n (s.spareBad k)) k
    (List.range 16).foldl (fun s c => s.set .PNL_HOOD_REMAPPED (b2n (c == f)) (w + c)) s) s

/-- Registers of a panel that a load clears (R184, R699). -/
def panelRegs : List Fld := [.PNL_SL_CFG_SLR, .PNL_SL_CFG_DIRN, .PNL_SL_STAT_ACTIVE, .PNL_SL_STAT_QUEUED, .PNL_SL_STAT_LASTSEEN,
  .PNL_SL_STAT_ERR, .PNL_SL_STEP_STEP, .PNL_SL_POS_WORD, .PNL_SL_POS_DIR, .PNL_SL_ERRID_LAYER, .PNL_SL_ERRID_OPER,
  .PNL_SL_SBIND_SEND, .PNL_SL_RBIND_RECV, .PNL_C_BUSY_COUNT, .PNL_C_MAC_COUNT, .PNL_C_OSB_COUNT, .PNL_C_PMB_COUNT,
  .PNL_C_INV_COUNT, .PNL_C_OVF_COUNT, .PNL_C_UNF_COUNT, .PNL_C_SAT_COUNT]

/-- One logical panel becomes active: its step-list region from the image, every other byte 0 (R527, R618, R619). -/
def State.activate (s : State) (q : Nat) (m : Image) (l : Nat) : State :=
  let w := s.winOfLog l
  let s := s.zero w panelRegs
  match m.img.steps.find? (fun x => x.panel == l) with
  | some x =>
    let mem := writeBytes [] 0 (withMinw m.img m.pace x)
    ((s.setPanel w { part := some q, logical := l, gated := false, mem := mem }).set .PNL_SL_CFG_SLR x.slr w).set
      .PNL_SL_CFG_DIRN x.dirn w
  | none => s.setPanel w { part := some q, logical := l, gated := false }

/-- A slice with its two banks enters its node, bank A active (R239, R241). -/
def State.putSlice (s : State) (q : Nat) (x : ImgSlice) : State :=
  let n := s.nodeKey x.node
  let y := s.node n
  s.setNode n { y with slices := ins y.slices q { lo := x.lo, hi := x.hi, a := x.a, b := x.b } }

/-- Listed bytes over zeros. -/
def listed (l : List (Nat × Byte)) : SMap Byte := l.foldl (fun m e => put 0 m e.1 e.2) []

/-- A declared context is bound (R481). -/
def State.bindCtx (s : State) (q : Nat) (b : BlockImage) (ix : Nat × Nat) : State :=
  match b.ctxs[ix.1]? with
  | none => s
  | some c =>
    let x := ix.2
    let s := s.setCtx x { imem := listed c.imem, dmem := listed c.dmem, resume := c.resume, decl := ix.1 }
    let s := ((s.set .SEQ_CTX_BIND_PART q x).set .SEQ_CTX_BIND_BOUND 1 x).set .SEQ_CTX_BIND_SIZE ((sizeCode c.size).getD 0) x
    (s.set .SEQ_CTX_ENTRY_ENTRY c.entry x).set .SEQ_CTX_STATE_STATE 1 x

/-- The partition's shared-store range takes its initial contents; bytes not listed are 0. -/
def State.putShared (s : State) (q : Nat) (l : List (Nat × Byte)) : State :=
  let b := s.shrBase q
  let n := s.shrSize q
  let kept := s.shr.filter (fun e => !(decide (b ≤ e.1) && decide (e.1 < b + n)))
  { s with shr := l.foldl (fun m e => put 0 m (b + e.1) e.2) kept }

/-- The HBM data of the image; words written whole lose their poison (R318). A stack in self-refresh takes none (R322). -/
def State.putHbm (s : State) (l : List (Nat × Byte)) : State :=
  let s := match l.find? (fun e => s.inSr (stackOf e.1)) with | some e => s.noteSr e.1 1 | none => s
  let l := l.filter (fun e => !s.inSr (stackOf e.1))
  let bytes := l.foldl (fun m e => put 0 m e.1 e.2) s.hbm.bytes
  let full (w : Nat) : Bool := (List.range 32).all (fun i => l.any (fun e => e.1 == 32 * w + i))
  let ws := ((l.map (fun e => e.1 / 32)).eraseDups).filter full
  { s with hbm := { s.hbm with bytes := bytes, poison := ws.foldl (fun m w => put false m w false) s.hbm.poison } }

/-- The counter set and the trace registers of a partition are cleared (R699, table DBG fields). -/
def dbgRegs : List Fld := [.DBG_TRC_PROD_INDEX, .DBG_TRC_DROP_COUNT, .DBG_WDROP_COUNT, .DBG_C_HBM_SRD_BYTES, .DBG_C_HBM_SWR_BYTES,
  .DBG_C_HBM_OTHER_BYTES, .DBG_C_PORT_TX_TUFTS, .DBG_C_PORT_RX_TUFTS, .DBG_C_STITCH_TUFTS, .DBG_C_OBS_BYTES]

/-- DBG_OBW_USED shows the sum over loaded partitions. -/
def State.showObw (s : State) : State :=
  s.set .DBG_OBW_USED_BYTES ((List.range 128).foldl (fun n q => n + s.get .DBG_OBW_BYTES q) 0)

/-- The declarations are recorded (R409, R527, R675). -/
def State.declare (s : State) (q : Nat) (m : Image) : State :=
  let s := (s.zero q dbgRegs).set .DBG_TRC_SIZE_TSIZE m.img.tsize q
  let s := (s.set .DBG_OBW_BYTES m.img.obw q).showObw
  let fn := (s.part q).loadBy
  [12, 13, 14, 15].foldl (fun s r => s.setRing fn r { s.ring fn r with fseq := 0, gap := none, part := some q }) s

/-- A partition that takes image `m`, its observation bucket at `tok`. What a handshake or a submission holds stays. -/
def Part.loaded (p : Part) (m : Image) (tok t : Nat) : Part :=
  { image := some m, loadFn := p.loadFn, ringFn := p.loadBy, loadBy := p.loadBy, loadTag := p.loadTag, loadIrq := p.loadIrq, msg := p.msg, cmsg := p.cmsg, coording := p.coording,
    armedBy := p.armedBy, refusedBy := p.refusedBy, crowned := p.crowned, launchFn := p.launchFn, launchTag := p.launchTag,
    launchIrq := p.launchIrq, obwTok := tok, obwPrev := t }

/-- Every domain the image needs is on. -/
def State.domsReady (s : State) (q : Nat) (m : Image) : Bool := (List.range domains).all (fun d => !s.uses q m d || s.domOn d)

/-- The image is applied to partition `q` in the order of R527. How full the observation bucket starts is free. -/
def State.applyImage (s : State) (q : Nat) (m : Image) : State :=
  let plan := (s.part q).plan
  let tok := s.freeV % (m.img.obw + 1)
  let s := s.fresh.mapRows (s.rowsOf q m.img)
  let s := m.img.panels.foldl (fun s l => s.activate q m l) s
  let s := m.img.slices.foldl (fun s x => s.putSlice q x) s
  let s := (s.set .LNK_BANK_ACTIVE 0 q).set .LNK_BANK_PENDING 0 q
  let s := plan.foldl (fun s ix => s.bindCtx q m.img ix) s
  let s := ((s.putShared q m.img.shared).putHbm m.img.hbm).declare q m
  let s := (s.setPart q ((s.part q).loaded m tok s.tb.slots)).dropMissed q
  ((s.set .PRT_STAT_IMAGE 1 q).set .TIM_LAUNCH_STATE_STATE 0 q).powerUpdate.raiseRails

/-- LOAD_APPLY (R527, R615): the checks have passed and every domain is on; the LOAD completes. A tripped device writes no HBM (R736). -/
def execLoadApply (q : Nat) (s : State) : Host.Outcome State Fault Refusal :=
  let p := s.part q
  match p.loading with
  | some m =>
    if q < 128 ∧ s.domsReady q m ∧ s.boot.tripped = false then
      .next ((s.applyImage q m).complete p.loadBy
        { kind := 1, irq := p.loadIrq, tag := p.loadTag, detail := toLE 1 q ++ toLE 1 2 })
    else .next s
  | none => .next s

/-! UNLOAD. -/

/-- A panel of the partition is gated: its memories lose their contents (R618, R619). -/
def State.gate (s : State) (w : Nat) : State := s.fresh.setPanel w { undef := some s.free }

/-- A context is unbound (R481). -/
def State.unbind (s : State) (x : Nat) : State :=
  (s.setCtx x {}).zero x [.SEQ_CTX_BIND_PART, .SEQ_CTX_BIND_BOUND, .SEQ_CTX_BIND_SIZE, .SEQ_CTX_STATE_STATE]

/-- Partition `q` has no slice on any node. -/
def State.dropSlices (s : State) (q : Nat) : State :=
  { s with nodes := s.nodes.map (fun e =>
      (e.1, { e.2 with slices := del e.2.slices q, held := e.2.held.filter (fun h => h.q ≠ q) })) }

/-- Frames of the partition not yet written are discarded. -/
def State.dropEgress (s : State) (q : Nat) : State :=
  let fn := (s.part q).ringFn
  [12, 13, 14, 15].foldl (fun s r =>
    s.setRing fn r { s.ring fn r with frames := (s.ring fn r).frames.filter (fun f => f.part ≠ q), gap := none }) s

/-- Rows that no other image uses are unmapped (R623). -/
def State.unmapRows (s : State) (q : Nat) : State :=
  match (s.part q).image with
  | some m => ((s.rowsOf q m.img).filter (fun k => !s.rowHeld q k)).foldl (fun s k =>
      let s := s.set .MEM_REMAP_FAILCOL 0x1F k
      (List.range 16).foldl (fun s c => s.set .PNL_HOOD_REMAPPED 0 (136 * (k / 8) + 17 * (k % 8) + c)) s) s
  | none => s

/-- The partition's image and resources are released (R524, R618, R619, R623). -/
def State.release (s : State) (q : Nat) : State :=
  let ws := (s.panels.filter (fun e => e.2.part == some q)).map (·.1)
  let s := (ws.foldl State.gate s).unmapRows q
  let s := (((s.ctxsOf q).foldl State.unbind s).dropSlices q).dropMissed q
  let s := if s.holds q then s.dropEgress q else s
  let p := s.part q
  let s := s.setPart q { loadFn := p.loadFn, loadBy := p.loadBy, ringFn := p.ringFn, loading := p.loading, plan := p.plan, loadTag := p.loadTag, loadIrq := p.loadIrq, msg := p.msg,
                         cmsg := p.cmsg, coording := p.coording, armedBy := p.armedBy, refusedBy := p.refusedBy, crowned := p.crowned,
                         launchFn := p.launchFn, launchTag := p.launchTag, launchIrq := p.launchIrq }
  let s := (s.set .PRT_STAT_IMAGE 0 q).set .TIM_LAUNCH_STATE_STATE 0 q
  let s := ((s.set .DBG_TRC_SIZE_TSIZE 0 q).set .DBG_OBW_BYTES 0 q).showObw
  let s := (s.set .DBG_HALT_STATE 0 q).set .SEQ_SEM_HELD 0 q
  s.repace.powerUpdate

/-- UNLOAD (R524): STATUS 3 while the partition is armed, committed or running. -/
def execUnload (fn : Nat) (s : State) : Host.Outcome State Fault Refusal :=
  match s.subFor fn 3 with
  | none => .next s
  | some (d, r) =>
    let s := s.setFetched fn r
    if s.busy d.q then .next (s.done fn d 3) else .next ((s.release d.q).done fn d 0)

end Sys2Proof.Machine
end

