-- ==== Sys2Proof/Machine/Seq.lean ====
section
/-! DEFINITION. The sequencer instructions (R484-R518). Each command executes the instruction at the context's PC when
it is the one the command names and the context is ready; `e` says how its memory reads came out. -/
namespace Sys2Proof.Machine

/-- The instruction a word holds: FN for OP 0x00, else 64 * OP; none for an illegal instruction (R484, R486). -/
def seqKind (w : Nat) : Option Nat :=
  let op := bits w 26 6
  let rd := bits w 21 5
  let ra := bits w 16 5
  let im := bits w 0 16
  let ok : Bool := match op with
    | 0x00 => decide (bits w 0 6 ≤ 10) && bits w 6 5 == 0
    | 0x01 | 0x02 | 0x03 => true
    | 0x04 | 0x05 | 0x06 => bits w 6 10 == 0
    | 0x07 => bits w 18 3 == 0
    | 0x08 | 0x09 | 0x0A | 0x0B | 0x0C | 0x0D | 0x0E | 0x0F | 0x10 | 0x11 | 0x12 | 0x13 | 0x14 => true
    | 0x15 => bits w 0 11 == 0
    | 0x16 | 0x17 | 0x18 => true
    | 0x19 => ra == 0 && decide (im ≤ 1)
    | 0x20 => rd == 0
    | 0x21 => rd == 0 && decide (im ≤ 1)
    | 0x24 => ra == 0 && decide (im < 64)
    | 0x25 => rd == 0 && ra == 0 && decide (im < 32)
    | 0x28 => ra == 0 && decide (im < 256)
    | 0x29 => rd == 0
    | 0x2A => rd == 0 && bits w 0 11 == 0
    | 0x3F => rd == 0 && ra == 0
    | _ => false
  if ok then some (if op = 0 then bits w 0 6 else 64 * op) else none

/-- May the instruction execute inside a locked sequence (R501)? -/
def lockOkKind (k : Nat) : Bool :=
  let op := k / 64
  op == 0 || (1 ≤ op && op ≤ 0x12) || op == 0x15

/-- What an instruction works on: context, partition, word, PC. -/
structure SIn where
  x  : Nat
  q  : Nat
  w  : Nat
  pc : Nat

def SIn.rd (i : SIn) : Nat := bits i.w 21 5
def SIn.ra (i : SIn) : Nat := bits i.w 16 5
def SIn.rb (i : SIn) : Nat := bits i.w 11 5
def SIn.imm (i : SIn) : Nat := bits i.w 0 16
/-- IMM sign-extended to 64 bits (R485). -/
def SIn.simm (i : SIn) : BitVec 64 := BitVec.ofInt 64 (sint 16 i.imm)

/-- The step of one instruction (R478-R507, R688): context ready and its partition running, fetch checks, lock rules,
breakpoints, then the body. Where no word can be fetched the word recorded is free (log entry 162). -/
def seqStep (k x : Nat) (e : Ecc) (body : SIn → State → State) (s : State) : Host.Outcome State Fault Refusal :=
  let q := s.get .SEQ_CTX_BIND_PART x
  let pc := s.pcOf x
  let c := s.ctx x
  if s.ctxRuns x && s.get .SEQ_CTX_STATE_STATE x == 2 then
    if pc % 4 ≠ 0 then .next (s.fresh.except x 2 0 (s.freeV % 2 ^ 32))
    else if s.winSize x ≤ pc then .next (s.fresh.except x 4 0 (s.freeV % 2 ^ 32))
    else
      let w := ofLE (readBytes c.imem pc 4)
      if (seqKind w).getD 4096 ≠ k then .next s
      else
        let s := s.breakpoints q x
        let over33 := match c.lock with | some (_, n) => decide (32 ≤ n) | none => false
        if e = .double ∨ e = .many then .next (s.except x 12 0 w)
        else if over33 then .next (s.except x 9 0 w)
        else if c.lock.isSome ∧ lockOkKind k = false then .next (s.except x 8 0 w)
        else
          let s := if e = .single then s.inc .CHK_CE_CNT_COUNT q else s
          .next (body { x := x, q := q, w := w, pc := pc } s)
  else .next s

/-- RD = RA op RB, or RA op an immediate. -/
def aluBody (f : SIn → State → BitVec 64) (i : SIn) (s : State) : State := (s.setG i.x i.rd (f i s)).retire i.x

/-- The two register sources. -/
def rrr (op : BitVec 64 → BitVec 64 → BitVec 64) (i : SIn) (s : State) : BitVec 64 := op (s.g i.x i.ra) (s.g i.x i.rb)

/-- Shift amount: bits [5:0] of the source (R485). -/
def amt (v : BitVec 64) : Nat := v.toNat % 64

def execAdd (x : Nat) (e : Ecc) (s : State) := seqStep 0 x e (aluBody (rrr (· + ·))) s
def execSub (x : Nat) (e : Ecc) (s : State) := seqStep 1 x e (aluBody (rrr (· - ·))) s
def execAnd (x : Nat) (e : Ecc) (s : State) := seqStep 2 x e (aluBody (rrr (· &&& ·))) s
def execOr (x : Nat) (e : Ecc) (s : State) := seqStep 3 x e (aluBody (rrr (· ||| ·))) s
def execXor (x : Nat) (e : Ecc) (s : State) := seqStep 4 x e (aluBody (rrr (· ^^^ ·))) s
def execSll (x : Nat) (e : Ecc) (s : State) := seqStep 5 x e (aluBody (rrr (fun a b => a <<< amt b))) s
def execSrl (x : Nat) (e : Ecc) (s : State) := seqStep 6 x e (aluBody (rrr (fun a b => a >>> amt b))) s
def execSra (x : Nat) (e : Ecc) (s : State) := seqStep 7 x e (aluBody (rrr (fun a b => a.sshiftRight (amt b)))) s
def execSlt (x : Nat) (e : Ecc) (s : State) := seqStep 8 x e (aluBody (rrr (fun a b => if a.slt b then 1 else 0))) s
def execSltu (x : Nat) (e : Ecc) (s : State) := seqStep 9 x e (aluBody (rrr (fun a b => if a.ult b then 1 else 0))) s
def execMul (x : Nat) (e : Ecc) (s : State) := seqStep 10 x e (aluBody (rrr (· * ·))) s
def execAddi (x : Nat) (e : Ecc) (s : State) := seqStep 64 x e (aluBody (fun i s => s.g i.x i.ra + i.simm)) s
def execAndi (x : Nat) (e : Ecc) (s : State) :=
  seqStep 128 x e (aluBody (fun i s => s.g i.x i.ra &&& BitVec.ofNat 64 i.imm)) s
def execOri (x : Nat) (e : Ecc) (s : State) :=
  seqStep 192 x e (aluBody (fun i s => s.g i.x i.ra ||| BitVec.ofNat 64 i.imm)) s
def execSlli (x : Nat) (e : Ecc) (s : State) := seqStep 256 x e (aluBody (fun i s => s.g i.x i.ra <<< (i.imm % 64))) s
def execSrli (x : Nat) (e : Ecc) (s : State) := seqStep 320 x e (aluBody (fun i s => s.g i.x i.ra >>> (i.imm % 64))) s
def execSrai (x : Nat) (e : Ecc) (s : State) :=
  seqStep 384 x e (aluBody (fun i s => (s.g i.x i.ra).sshiftRight (i.imm % 64))) s

/-- LIH: 16 bits of RD replaced (R486). -/
def lihVal (i : SIn) (s : State) : BitVec 64 :=
  let k := 16 * bits i.w 16 2
  (s.g i.x i.rd &&& ~~~ ((0xFFFF : BitVec 64) <<< k)) ||| (BitVec.ofNat 64 i.imm <<< k)
def execLih (x : Nat) (e : Ecc) (s : State) := seqStep 448 x e (aluBody lihVal) s

/-- A taken transfer of control with its BRANCH trace record (R485, R694). -/
def State.jump (s : State) (i : SIn) (target kind : Nat) : State :=
  let c := s.ctx i.x
  let s := if s.getBit .DBG_TRC_CTRL_EN 0 i.q then
      (s.trace i.q 1 (5 * 4096 + i.x) c.lastIss (s.get .SEQ_CTX_ID_LAYER i.x) (s.get .SEQ_CTX_ID_OPER i.x)
        (i.pc + target % 2 ^ 16 * 2 ^ 16 + min 65535 c.notTaken * 2 ^ 32 + kind * 2 ^ 48)).setCtx i.x { c with notTaken := 0 }
    else s
  s.retireAt i.x target

/-- Target of a branch: the instruction's own address plus 4 x OFF (R485). -/
def SIn.target (i : SIn) (off : Int) : Nat := ofSint 64 ((i.pc : Int) + 4 * off)

/-- A conditional branch on RA ([25:21]) and RB ([20:16]). -/
def branchBody (p : BitVec 64 → BitVec 64 → Bool) (i : SIn) (s : State) : State :=
  if p (s.g i.x i.rd) (s.g i.x i.ra) then s.jump i (i.target (sint 16 i.imm)) 0
  else (s.setCtx i.x { s.ctx i.x with notTaken := (s.ctx i.x).notTaken + 1 }).retire i.x

def execBeq (x : Nat) (e : Ecc) (s : State) := seqStep 512 x e (branchBody (fun a b => a == b)) s
def execBne (x : Nat) (e : Ecc) (s : State) := seqStep 576 x e (branchBody (fun a b => a != b)) s
def execBlt (x : Nat) (e : Ecc) (s : State) := seqStep 640 x e (branchBody (fun a b => a.slt b)) s
def execBge (x : Nat) (e : Ecc) (s : State) := seqStep 704 x e (branchBody (fun a b => !a.slt b)) s
def execBltu (x : Nat) (e : Ecc) (s : State) := seqStep 768 x e (branchBody (fun a b => a.ult b)) s
def execBgeu (x : Nat) (e : Ecc) (s : State) := seqStep 832 x e (branchBody (fun a b => !a.ult b)) s

/-- JAL and JALR write RD and jump. -/
def jalBody (i : SIn) (s : State) : State :=
  (s.setG i.x i.rd (BitVec.ofNat 64 (i.pc + 4))).jump i (i.target (sint 21 (bits i.w 0 21))) 1
def jalrBody (i : SIn) (s : State) : State :=
  let t := (s.g i.x i.ra + i.simm).toNat / 4 * 4
  (s.setG i.x i.rd (BitVec.ofNat 64 (i.pc + 4))).jump i t 2
def execJal (x : Nat) (e : Ecc) (s : State) := seqStep 896 x e jalBody s
def execJalr (x : Nat) (e : Ecc) (s : State) := seqStep 960 x e jalrBody s

/-- RA + IMM. -/
def State.ea (s : State) (i : SIn) : Nat := (s.g i.x i.ra + i.simm).toNat

/-- Address checks of an access of `n` bytes aligned to `al` in `size` bytes: the exception cause, 0 for none (R487, R493). -/
def addrCause (a n al size outside : Nat) : Nat := if a % al ≠ 0 then 2 else if size < a + n then outside else 0

/-- LD and ST on the data window (R487). -/
def ldBody (i : SIn) (s : State) : State :=
  let a := s.ea i
  let c := addrCause a 8 8 (s.winSize i.x) 3
  if c ≠ 0 then s.except i.x c 0 i.w
  else (s.setG i.x i.rd (BitVec.ofNat 64 (ofLE (readBytes (s.ctx i.x).dmem a 8)))).retire i.x
def stBody (i : SIn) (s : State) : State :=
  let a := s.ea i
  let c := addrCause a 8 8 (s.winSize i.x) 3
  if c ≠ 0 then s.except i.x c 0 i.w
  else (s.setCtx i.x { s.ctx i.x with dmem := writeBytes (s.ctx i.x).dmem a (toLE 8 (s.g i.x i.rd).toNat) }).retire i.x
def execLd (x : Nat) (e : Ecc) (s : State) := seqStep 1024 x e ldBody s
def execSt (x : Nat) (e : Ecc) (s : State) := seqStep 1088 x e stBody s

/-- LDS and STS on the partition's shared-store range (R487, R500). -/
def ldsBody (i : SIn) (s : State) : State :=
  let a := s.ea i
  let c := addrCause a 8 8 (s.shrSize i.q) 5
  if c ≠ 0 then s.except i.x c 0 i.w
  else (s.setG i.x i.rd (BitVec.ofNat 64 (ofLE (readBytes s.shr (s.shrBase i.q + a) 8)))).retire i.x
def stsBody (i : SIn) (s : State) : State :=
  let a := s.ea i
  let c := addrCause a 8 8 (s.shrSize i.q) 5
  if c ≠ 0 then s.except i.x c 0 i.w
  else (s.shrStore i.q i.x a (s.g i.x i.rd)).retire i.x
def execLds (x : Nat) (e : Ecc) (s : State) := seqStep 1152 x e ldsBody s
def execSts (x : Nat) (e : Ecc) (s : State) := seqStep 1216 x e stsBody s

/-- LKL: load, reserve the word, open the lock (R499). -/
def lklBody (i : SIn) (s : State) : State :=
  let a := s.ea i
  let c := addrCause a 8 8 (s.shrSize i.q) 5
  if c ≠ 0 then s.except i.x c 0 i.w
  else
    let v := BitVec.ofNat 64 (ofLE (readBytes s.shr (s.shrBase i.q + a) 8))
    ((s.setG i.x i.rd v).retire i.x).setLock i.x (some (a, 1)) (some a)
def execLkl (x : Nat) (e : Ecc) (s : State) := seqStep 1280 x e lklBody s

/-- After LKS closed the lock, a context a debug halt waits for stops (R502, R682). -/
def State.afterLks (s : State) (x : Nat) : State :=
  if (s.ctx x).haltPend then
    (s.setCtx x { s.ctx x with haltPend := false, haltSt := 2 }).set .SEQ_CTX_STATE_STATE 11 x
  else s

/-- LKS (R499-R501, R511). -/
def lksBody (i : SIn) (s : State) : State :=
  let a := (s.g i.x i.ra).toNat
  match (s.ctx i.x).lock with
  | some (b, _) =>
    if a ≠ b then s.except i.x 10 0 i.w
    else if (s.ctx i.x).resv = some a then
      (((s.shrStore i.q i.x a (s.g i.x i.rb)).setG i.x i.rd 1).setLock i.x none none |>.retire i.x).afterLks i.x
    else
      let s := (s.inc .SEQ_CTX_LOCKFAIL_COUNT i.x).inc .CHK_NDC_COUNT i.q
      ((s.setG i.x i.rd 0).setLock i.x none none |>.retire i.x).afterLks i.x
  | none => s.except i.x 10 0 i.w
def execLks (x : Nat) (e : Ecc) (s : State) := seqStep 1344 x e lksBody s

/-- LDR and STR: a READ or WRITE of 8 bytes at a board address, then the wait (R488, R489). -/
def boardBody (store : Bool) (i : SIn) (s : State) : State :=
  let a := s.ea i
  if a % 8 ≠ 0 ∨ 2 ^ 52 ≤ a then s.except i.x 2 0 i.w
  else
    let pl := if store then Payload.write (a % 2 ^ 48) (toLE 8 (s.g i.x i.rd).toNat) else Payload.read (a % 2 ^ 48) 8
    match s.request (8 + i.x / 16) i.q a (some i.x) none (if store then .str i.x else .ldr i.x i.rd) pl with
    | some s => (s.setCtx i.x { s.ctx i.x with waitReg := if store then 0 else i.rd }).set .SEQ_CTX_STATE_STATE 6 i.x
    | none => s
def execLdr (x : Nat) (e : Ecc) (s : State) := seqStep 1408 x e (boardBody false) s
def execStr (x : Nat) (e : Ecc) (s : State) := seqStep 1472 x e (boardBody true) s

/-- A WAITT completes `late` slots after its target (R490, R492). -/
def State.waittDone (s : State) (x q rd late : Nat) : State :=
  let s := if 0 < late then s.inc .SEQ_CTX_LATE_COUNT x else s
  let s := if rd ≠ 0 then s.inc .CHK_NDC_COUNT q else s
  (s.setG x rd (BitVec.ofNat 64 late)).retire x

/-- WAITT (R490, R491, R514). The target slot is recomputed at the end of the wait, since a resume moves it (R686). -/
def waittBody (i : SIn) (s : State) : State :=
  let sl := (s.g i.x i.ra + i.simm).toNat
  let d := cmp32 (s.slotTally i.q sl) s.tally
  if 0 < d then
    (s.setCtx i.x { s.ctx i.x with waitArg := sl, waitReg := i.rd, since := s.tally }).set .SEQ_CTX_STATE_STATE 3 i.x
  else s.waittDone i.x i.q i.rd (-d).toNat
def execWaitt (x : Nat) (e : Ecc) (s : State) := seqStep 1536 x e waittBody s

/-- WAITT_COMPLETE (R490, R695). -/
def execWaittComplete (x : Nat) (s : State) : Host.Outcome State Fault Refusal :=
  let q := s.get .SEQ_CTX_BIND_PART x
  let c := s.ctx x
  let d := cmp32 (s.slotTally q c.waitArg) s.tally
  if s.ctxRuns x ∧ s.get .SEQ_CTX_STATE_STATE x = 3 ∧ d ≤ 0 then
    let s := if s.getBit .DBG_TRC_CTRL_EN 1 q then
        s.trace q 4 (5 * 4096 + x) c.lastIss (s.get .SEQ_CTX_ID_LAYER x) (s.get .SEQ_CTX_ID_OPER x) (1 + c.since * 2 ^ 24)
      else s
    .next ((s.set .SEQ_CTX_STATE_STATE 2 x).waittDone x q c.waitReg (-d).toNat)
  else .next s

/-- RDT (R486, R492). -/
def rdtBody (i : SIn) (s : State) : State :=
  let v := if i.imm = 0 then s.tally else s.stepClock i.q
  ((s.inc .CHK_NDC_COUNT i.q).setG i.x i.rd (BitVec.ofNat 64 v)).retire i.x
def execRdt (x : Nat) (e : Ecc) (s : State) := seqStep 1600 x e rdtBody s

/-- An entry joins the 8-entry issue queue, or the context waits for a free one (R493, R494). -/
def State.enqueue (s : State) (i : SIn) (b : List Byte) (step : Option Nat) : State :=
  let c := s.ctx i.x
  if 8 ≤ c.queue.length then s.set .SEQ_CTX_STATE_STATE 8 i.x
  else
    let s := s.setCtx i.x { c with queue := c.queue ++ [b], lastIss := step.getD c.lastIss }
    (s.retire i.x).quadPump i.x

/-- ISSUE (R493). -/
def issueBody (i : SIn) (s : State) : State :=
  let a := s.ea i
  let c := addrCause a 20 4 (s.winSize i.x) 3
  if c ≠ 0 then s.except i.x c 0 i.w
  else
    let b := readBytes (s.ctx i.x).dmem a 20
    s.enqueue i b (some (fieldLE b 0 4))
def execIssue (x : Nat) (e : Ecc) (s : State) := seqStep 2048 x e issueBody s

/-- SWITCH (R494). -/
def switchBody (i : SIn) (s : State) : State :=
  s.enqueue i (toLE 4 ((s.g i.x i.ra).toNat % 2 ^ 32) ++ toLE 1 i.imm) none
def execSwitch (x : Nat) (e : Ecc) (s : State) := seqStep 2112 x e switchBody s

/-- SEMA (R496, R492, R513). -/
def semaBody (i : SIn) (s : State) : State :=
  let n := i.imm % 32
  let try_ := bit i.imm 5
  let count (s : State) : State := if try_ && i.rd != 0 then s.inc .CHK_NDC_COUNT i.q else s
  if s.getBit .SEQ_SEM_HELD n i.q then
    if look? (s.part i.q).semOwner n = some i.x then s.except i.x 11 0 i.w
    else if try_ then ((count s).setG i.x i.rd 0).retire i.x
    else
      let p := s.part i.q
      let s := s.setPart i.q { p with semWait := p.semWait ++ [i.x] }
      (s.setCtx i.x { s.ctx i.x with waitArg := n, waitReg := i.rd, since := s.tally }).set .SEQ_CTX_STATE_STATE 4 i.x
  else
    let p := s.part i.q
    let s := (s.setBit .SEQ_SEM_HELD n true i.q).setPart i.q { p with semOwner := ins p.semOwner n i.x }
    ((count s).setG i.x i.rd 1).retire i.x
def execSema (x : Nat) (e : Ecc) (s : State) := seqStep 2304 x e semaBody s

/-- SEMR (R497). -/
def semrBody (i : SIn) (s : State) : State :=
  let n := i.imm % 32
  if s.getBit .SEQ_SEM_HELD n i.q ∧ look? (s.part i.q).semOwner n = some i.x then (s.semRelease i.q n).retire i.x
  else s.except i.x 11 0 i.w
def execSemr (x : Nat) (e : Ecc) (s : State) := seqStep 2368 x e semrBody s

/-- What an intake point's INTAKE returns once its work is complete (R503). -/
def State.intakeResult (s : State) (q k : Nat) : Option Nat :=
  match look? (s.part q).intakes k with
  | some .done => some (((s.image q).img.intakes.getD k {}).n)
  | some .skipped => some 0
  | _ => none

/-- INTAKE (R503). -/
def intakeBody (i : SIn) (s : State) : State :=
  if (s.image i.q).img.intakes.length ≤ i.imm then s.except i.x 14 0 i.w
  else match s.intakeResult i.q i.imm with
    | some n => (s.setG i.x i.rd (BitVec.ofNat 64 n)).retire i.x
    | none =>
      (s.setCtx i.x { s.ctx i.x with waitArg := i.imm, waitReg := i.rd, since := s.tally }).set .SEQ_CTX_STATE_STATE 5 i.x
def execIntake (x : Nat) (e : Ecc) (s : State) := seqStep 2560 x e intakeBody s

/-- Contexts that wait for intake point `k` go on (R503, R695). -/
def State.wakeIntake (s : State) (q k : Nat) : State :=
  (s.ctxsOf q).foldl (fun s x =>
    let c := s.ctx x
    let st := s.get .SEQ_CTX_STATE_STATE x
    if s.ctxRuns x ∧ (st = 5 ∨ (st = 11 ∧ c.haltSt = 5)) ∧ c.waitArg = k then
      match s.intakeResult q k with
      | some n =>
        let s := if s.getBit .DBG_TRC_CTRL_EN 1 q then
            s.trace q 4 (5 * 4096 + x) c.lastIss (s.get .SEQ_CTX_ID_LAYER x) (s.get .SEQ_CTX_ID_OPER x)
              (3 + k * 256 + c.since * 2 ^ 24)
          else s
        let s := (s.setG x c.waitReg (BitVec.ofNat 64 n)).retire x
        if st = 5 then s.set .SEQ_CTX_STATE_STATE 2 x else s.setCtx x { s.ctx x with haltSt := 2 }
      | none => s
    else s) s

/-- EGRESS (R504, R566, R597): the block is checked and the frame read from its source. -/
def egressBody (i : SIn) (s : State) : State :=
  let a := s.ea i
  let c := addrCause a 24 8 (s.winSize i.x) 3
  if c ≠ 0 then s.except i.x c 0 i.w
  else
    let b := readBytes (s.ctx i.x).dmem a 24
    let ad := fieldLE b 0 8
    let n := fieldLE b 8 4
    let r := fieldLE b 16 1
    let hr := s.hbmRange i.q
    if fieldLE b 17 7 ≠ 0 ∨ n = 0 ∨ 3 < r ∨ ad < hr.1 ∨ hr.1 + hr.2 < ad + n then s.except i.x 14 0 i.w
    else
      let p := s.part i.q
      let s := match look? p.lastEgr r with
        | some y => if y ≠ i.x then s.inc .CHK_NDC_COUNT i.q else s
        | none => s
      let s := s.setPart i.q { p with lastEgr := ins p.lastEgr r i.x }
      let f : Frame := { step := (s.ctx i.x).lastIss, layer := s.get .SEQ_CTX_ID_LAYER i.x,
                         oper := s.get .SEQ_CTX_ID_OPER i.x, src := fieldLE b 12 4, bytes := s.hbmRead ad n }
      let s := s.set .DBG_C_HBM_OTHER_BYTES (s.get .DBG_C_HBM_OTHER_BYTES i.q + n) i.q
      (s.setCtx i.x { s.ctx i.x with egr := some f, egrRing := r }).set .SEQ_CTX_STATE_STATE 7 i.x
def execEgress (x : Nat) (e : Ecc) (s : State) := seqStep 2624 x e egressBody s

/-- EGRESS_STAGED (R504, R583, R584, R596): the frame enters the digests and is staged or dropped; the context goes on. -/
def execEgressStaged (x : Nat) (s : State) : Host.Outcome State Fault Refusal :=
  let q := s.get .SEQ_CTX_BIND_PART x
  let c := s.ctx x
  let st := s.get .SEQ_CTX_STATE_STATE x
  match c.egr with
  | some f =>
    if s.ctxRuns x ∧ (st = 7 ∨ (st = 11 ∧ c.haltSt = 7)) then
      let p := s.part q
      let fseq := (s.ring p.ringFn (12 + c.egrRing)).fseq
      let rd := look [] p.outRings c.egrRing ++ toLE 4 fseq ++ toLE 4 f.bytes.length ++ toLE 4 f.src ++ f.bytes
      let s := s.setPart q { p with outRings := ins p.outRings c.egrRing rd,
                                    outSum := (p.outSum + ofBE (sha256 (toLE 4 f.src ++ f.bytes))) % 2 ^ 256,
                                    nFrames := p.nFrames + 1 }
      let s := (s.stageFrame q (12 + c.egrRing) f).setCtx x { c with egr := none }
      let s := s.retire x
      .next (if st = 7 then s.set .SEQ_CTX_STATE_STATE 2 x else s.setCtx x { s.ctx x with haltSt := 2 })
    else .next s
  | none => .next s

/-- MARK (R505): a mark record, then the current LAYER and OPER. -/
def cmarkBody (i : SIn) (s : State) : State :=
  let b := (s.g i.x i.rb).toNat
  let s := s.trace i.q 2 (5 * 4096 + i.x) (s.ctx i.x).lastIss (b % 2 ^ 16) (b / 2 ^ 16 % 2 ^ 16) ((s.g i.x i.ra).toNat % 2 ^ 32)
  ((s.set .SEQ_CTX_ID_LAYER b i.x).set .SEQ_CTX_ID_OPER (b / 2 ^ 16) i.x).retire i.x
def execCmark (x : Nat) (e : Ecc) (s : State) := seqStep 2688 x e cmarkBody s

/-- HALT (R498, R506, R516). -/
def haltBody (i : SIn) (s : State) : State :=
  if i.imm = 0 then
    let s := (s.set .SEQ_CTX_STATE_STATE 9 i.x).inc .SEQ_CTX_RETIRED_COUNT i.x
    s.releaseAll i.q i.x
  else s.except i.x 13 i.imm i.w
def execHalt (x : Nat) (e : Ecc) (s : State) := seqStep 4032 x e haltBody s

/-- ILLEGAL_INSTRUCTION (R486, R507). -/
def execIllegalInstruction (x : Nat) (e : Ecc) (s : State) :=
  seqStep 4096 x e (fun i s => s.except i.x 1 0 i.w) s

/-- A write of SEQ_MEM_DATA (R509): 8 bytes at the selected address. -/
def State.seqMemWrite (s : State) (v : Nat) : State :=
  let x := s.get .SEQ_MEM_SEL_CTX
  let a := 8 * s.get .SEQ_MEM_ADDR_ADDR
  let q := s.get .SEQ_CTX_BIND_PART x
  let bound := s.is .SEQ_CTX_BIND_BOUND x
  if bound && s.busy q then s.set .SEQ_MEM_SEL_REFUSED 1
  else match s.get .SEQ_MEM_SEL_SPACE with
    | 0 => if a + 8 ≤ s.winSize x then s.setCtx x { s.ctx x with imem := writeBytes (s.ctx x).imem a (toLE 8 v) } else s
    | 1 => if a + 8 ≤ s.winSize x then s.setCtx x { s.ctx x with dmem := writeBytes (s.ctx x).dmem a (toLE 8 v) } else s
    | 2 => if bound ∧ a + 8 ≤ s.shrSize q then { s with shr := writeBytes s.shr (s.shrBase q + a) (toLE 8 v) } else s
    | _ => s

/-- SEQ_MEM_DATA_WRITE (R509). A virtual function does not see the register. -/
def execSeqMemDataWrite (who v : Nat) (s : State) : Host.Outcome State Fault Refusal :=
  if privileged who && s.live .SEQ_MEM_DATA_DATA 0 then .next (s.seqMemWrite v) else .next s

end Sys2Proof.Machine
end

