-- ==== Sys2Proof/Machine/RunLife.lean ====
section
/-! DEFINITION. A run from its launch slot to its end on one member: launch, halt at a fault stop, checkpoints, the finish boundary
(R62, R66, R187, R482, R508, R531, R535, R539-R544, R549, R551, R569, R571, R585). -/
namespace Sys2Proof.Machine

/-- Unscheduled HBM bytes of a partition, observation excluded (table DBG counter fields). -/
def State.hbmOther (s : State) (q n : Nat) : State := s.set .DBG_C_HBM_OTHER_BYTES (s.get .DBG_C_HBM_OTHER_BYTES q + n) q

/-- An unscheduled write to HBM by the device for partition `q` (R312, R318). A tripped device issues none (R736). -/
def State.hbmPut (s : State) (q a : Nat) (bs : List Byte) : State :=
  if s.boot.tripped then s else (s.hbmStore a bs).hbmOther q bs.length

/-! The intake log (R569-R571). -/

/-- N: the sum of n over the image's intake points. -/
def Image.logN (m : Image) : Nat := m.img.intakes.foldl (fun n p => n + p.n) 0

/-- base(k): the sum of n over the points before point `k`. -/
def Image.logBase (m : Image) (k : Nat) : Nat := (m.img.intakes.take k).foldl (fun n p => n + p.n) 0

/-- The log header (table Log header). -/
def Image.logHeader (m : Image) : List Byte :=
  ([0x45, 0x56, 0x4E, 0x4C, 0x4F, 0x47, 0, 0] : List Byte) ++ toLE 4 m.logN ++ toLE 2 m.memb ++ toLE 2 0 ++ m.digest
    ++ List.replicate 16 0

/-- Is the log area misplaced (R569)? -/
def State.logBad (s : State) (q : Nat) (m : Image) (ref : Nat) : Bool :=
  decide (ref % 64 ≠ 0) || !s.inRange q ref (64 * (1 + m.logN))

/-! Launch. -/

/-- A panel of the partition begins a run: no binding, no issue record, nothing pending (R187). -/
def State.startPanel (s : State) (w : Nat) : State :=
  let x := s.panel w
  let s := s.setPanel w { x with queue := [], prev := none, win := none, bads := [], st := .idle, lanes := [], kind := .unset,
                                 written := false, rows := [], colsum := [], sbind := [], rbind := [], psnAll := false,
                                 faults := [], seams := [], seamPos := 0, seamGot := [], vcyc := 0, stretch := 0, holds := 0,
                                 lastOp := (0xFFFF, 0xFFFF) }
  s.zero w [.PNL_SL_SBIND_SEND, .PNL_SL_RBIND_RECV, .PNL_SL_STAT_ACTIVE, .PNL_SL_STAT_QUEUED, .PNL_SL_STAT_LASTSEEN]

/-- A bound context starts at its entry address, or at the resume entry of checkpoint `ck` (R482, R542). -/
def State.startCtx (s : State) (ck : Option Nat) (x : Nat) : State :=
  let c := s.ctx x
  let e := s.get .SEQ_CTX_ENTRY_ENTRY x
  let pc := match ck with | some n => c.resume.getD n e | none => e
  let s := s.setCtx x { c with g := [], resv := none, lock := none, queue := [], haltPend := false, reply := none, lastIss := 0,
                               egr := none, pcHi := 0, notTaken := 0 }
  let s := (s.zero x [.SEQ_CTX_ID_LAYER, .SEQ_CTX_ID_OPER, .SEQ_CTX_STATE_LOCKED]).set .SEQ_CTX_STATE_PC pc x
  s.set .SEQ_CTX_STATE_STATE 2 x

/-- Contexts in declaration order. -/
def State.ctxsDeclared (s : State) (q : Nat) : List Nat :=
  (List.range 8).filterMap (fun i => (s.ctxsOf q).find? (fun x => (s.ctx x).decl == i))

/-- Data windows and the shared-store range come from the checkpoint record at `a` (R542). -/
def State.restore (s : State) (q a : Nat) : State :=
  let r := (s.ctxsDeclared q).foldl (fun (p : State × Nat) x =>
    let n := p.1.winSize x
    (p.1.setCtx x { p.1.ctx x with dmem := writeBytes [] 0 (p.1.hbmRead p.2 n) }, p.2 + n)) (s, a + 256)
  let n := 64 * (s.image q).img.shrUnits
  let s : State := { r.1 with shr := writeBytes r.1.shr (r.1.shrBase q) (r.1.hbmRead r.2 n) }
  s.hbmOther q (r.2 + n - a)

/-- Egress FSEQ continues from the record (R542). -/
def State.restoreFseq (s : State) (q : Nat) (h : List Byte) : State :=
  let fn := (s.part q).ringFn
  (List.range 4).foldl (fun s i => s.setRing fn (12 + i) { s.ring fn (12 + i) with fseq := fieldLE h (120 + 4 * i) 4 }) s

/-- CHK registers of a partition's set. -/
def chkRegs : List Fld := [.CHK_RUN_FLAGS, .CHK_NDC_COUNT, .CHK_PC_CNT_COUNT, .CHK_PC_SKIP_COUNT, .CHK_SH_CNT_COUNT,
  .CHK_CE_CNT_COUNT, .CHK_RPL_CNT_COUNT, .CHK_DIV_ENTRY, .CHK_DIV_CAUSE, .CHK_DIVCNT_COUNT]

/-- What a partition holds of a run as it begins. -/
def Part.begun (p : Part) (base step : Nat) : Part :=
  { p with base := base, startStep := step, stop := none, haltedAt := none, faulted := false, reports := [], finished := false,
           stamped := false, ckArea := 0, ckDone := [], ckPend := [], intakes := [], inReads := [], inLog := [], inSum := 0,
           outRings := [], outSum := 0, nFrames := 0, nDrops := 0, firstDiv := 2 ^ 56 - 1, refBad := false, refSeen := false,
           lastEgr := [], semWait := [], semOwner := [], halt := none, resumedAt := none, ends := [] }

/-- CHK_RUN.FLAGS at launch: RECORD, REPLAY, MIXED, LOGBAD, RESUMED. -/
def runFlags (m : LaunchMsg) (mixed bad : Bool) : Nat :=
  b2n m.record + 2 * b2n m.replay + 4 * b2n mixed + 16 * b2n bad + 32 * b2n (m.ckpt != 0)

/-- The launch takes effect on a partition with image `m` under message `l` (R66, R482, R531, R542, R566, R569, R571). The next
checkpoint of a resumed run goes to the area that the record it resumed from does not lie in (R539, R549, log entry 34). -/
def State.launchRun (s : State) (q : Nat) (m : Image) (l : LaunchMsg) : State :=
  let h := s.hbmRead l.ckpt 256
  let step := if l.ckpt = 0 then 0 else fieldLE h 4 4 + 1
  let base := m.img.grid.getD step 0
  let s := ((s.set .TIM_LAUNCH_STATE_STATE 3 q).set .TIM_LAUNCH_AT_AT l.l q).set .TIM_LAUNCH_STATE_DIL l.dil q
  let s := s.setPart q { (s.part q).begun base step with ckArea := b2n (decide (l.ckpt ≠ 0 ∧ l.ckpt = m.img.ckA)) }
  let s := s.zero q (chkRegs ++ [.SEQ_SEM_HELD, .DBG_HALT_STATE, .DBG_HALT_HARD, .DBG_HALT_CAUSE])
  let ws := (s.panels.filter (fun e => e.2.part == some q)).map (·.1)
  let s := ws.foldl State.startPanel s
  let s := (s.dropMissed q).voidDma (forIntake q)
  let ck := if l.ckpt = 0 then none else some (fieldLE h 0 4)
  let s := (s.ctxsOf q).foldl (fun s x => s.startCtx ck x) s
  let s := if l.ckpt = 0 then s else
    (((s.restore q l.ckpt).restoreFseq q h).set .CHK_NDC_COUNT (fieldLE h 136 4) q)
  let log := l.record || l.replay
  let bad := log && s.logBad q m l.ref
  let s := s.set .CHK_RUN_FLAGS (runFlags l (l.dclass != s.get .CHK_CLASS_DCLASS) bad) q
  if l.record ∧ ¬ bad then s.hbmPut q l.ref m.logHeader else s

/-- Ports of the image that are down at launch raise link-down in the first step (R551). -/
def State.deadPorts (s : State) (q : Nat) (m : Image) : State :=
  (m.img.ports.filter (fun p => !s.is .LNK_P_STAT_UP p.port)).foldl (fun s p =>
    s.sendFault { part := q, code := 0x4001, step := some (s.part q).startStep, srck := 3, node := 64 + p.port }) s

/-- LAUNCH_SLOT (R66, R439, R551, R725): the tally reaches L on a committed member. -/
def execLaunchSlot (q : Nat) (s : State) : Host.Outcome State Fault Refusal :=
  let p := s.part q
  match p.image with
  | some m =>
    if q < 128 ∧ s.runSt q = 2 ∧ p.commit ∧ s.tally = p.msg.l then
      let s := (s.launchRun q m p.msg).deadPorts q m
      let st := (s.part q).startStep
      .next (if p.flrStop then s.hreFault q 0 0x9003 (some st) st else s)
    else .next s
  | none => .next s

/-! Halt at a fault stop (R508, R535, R683). -/

/-- Is this tally slot one at which the member halts: a step boundary at or after the stop boundary, the end of the grid, or any
slot while the partition is halted for debug? -/
def State.haltsNow (s : State) (q : Nat) (n : StopNote) : Bool :=
  let sl := s.curSlot q
  decide (2 ≤ s.get .DBG_HALT_STATE q) || decide (s.boundary q (s.image q).steps ≤ sl)
    || (decide (s.slotTally q sl = s.tally) && decide (sl ∈ (s.image q).img.grid) && decide (s.boundary q (n.stopStep + 1) ≤ sl))

/-- A context stops at whatever instruction it has reached; any wait is abandoned, the reservation cancelled, STATE frozen (R500, R508,
R517). -/
def State.stopCtx (s : State) (x : Nat) : State :=
  s.setCtx x { s.ctx x with queue := [], reply := none, haltPend := false, egr := none, resv := none }

/-- Every context of a partition stops, and no semaphore stays held (R498, R508). -/
def State.stopCtxs (s : State) (q : Nat) : State :=
  let s := (s.ctxsOf q).foldl State.stopCtx s
  (s.set .SEQ_SEM_HELD 0 q).setPart q { s.part q with semWait := [], semOwner := [] }

/-- The member halts (R187, R508, R535). -/
def State.haltMember (s : State) (q : Nat) : State :=
  let s := (s.discardHalt q).setPart q { (s.discardHalt q).part q with haltedAt := some (s.curSlot q) }
  let s := if 2 ≤ s.get .DBG_HALT_STATE q then s.resumeDone q 5 else s
  let s := (s.set .TIM_LAUNCH_STATE_STATE 4 q).set .DBG_HALT_STATE 0 q
  let s := s.setPart q { s.part q with halt := none }
  ((s.stopCtxs q).dropBindings q).repace

/-- MEMBER_HALT (R535, R683). -/
def execMemberHalt (q : Nat) (s : State) : Host.Outcome State Fault Refusal :=
  match (s.part q).stop with
  | some n =>
    if s.runSt q = 3 ∧ (s.part q).haltedAt.isNone ∧ s.haltsNow q n then .next (s.haltMember q) else .next s
  | none => .next s

/-! Checkpoints (R539-R541, R549). -/

/-- The first checkpoint step whose boundary this tally slot is, not yet taken (R531, R539). -/
def State.dueCk (s : State) (q : Nat) : Option Nat :=
  let m := s.image q
  let p := s.part q
  m.img.ckSteps.find? (fun c =>
    let b := s.boundary q (c + 1)
    !decide (c ∈ p.ckDone) && decide (p.base < b) && s.reached q b && decide (s.slotTally q b = s.tally))

/-- Bytes of a checkpoint record's context and shared-store parts as they stand (R539). -/
def State.ckState (s : State) (q : Nat) : List Byte :=
  (s.ctxsDeclared q).flatMap (fun x => readBytes (s.ctx x).dmem 0 (s.winSize x))
    ++ readBytes s.shr (s.shrBase q) (64 * (s.image q).img.shrUnits)

/-- The header of a checkpoint record (table Checkpoint record). What the next unconsumed descriptors' DSEQ are the device has not
read: free values. -/
def State.ckHeader (s : State) (q c st : Nat) (body : List Byte) (dseq : Nat → Nat) : List Byte :=
  let m := s.image q
  let fn := (s.part q).ringFn
  toLE 4 (m.img.ckSteps.idxOf c) ++ toLE 4 c ++ toLE 8 (s.boundary q (c + 1)) ++ m.digest ++ sha256 body ++ toLE 8 (256 + body.length)
    ++ (List.range 8).flatMap (fun r => toLE 4 (dseq r)) ++ (List.range 4).flatMap (fun r => toLE 4 (s.ring fn (12 + r)).fseq)
    ++ toLE 4 (s.get .CHK_NDC_COUNT q) ++ toLE 2 m.memb ++ toLE 1 st ++ List.replicate 113 0

/-- WRITEs of `bs` at `a` of the mirror's member, one for each 256-byte unit (R304, R541). -/
def State.mirrorWrites (s : State) (q coord a : Nat) : Nat → List Byte → State
  | 0, _ => s
  | n + 1, bs =>
    if bs.isEmpty then s
    else
      let k := 256 - a % 256
      (s.sendPk 22 false (s.pkTo 22 (ownerStop a) q coord (.write a (bs.take k)))).mirrorWrites q coord (a + k) n (bs.drop k)

/-- Bytes for the mirror, if one is declared. -/
def State.mirror (s : State) (q off : Nat) (bs : List Byte) : State :=
  match (s.image q).img.mirror with
  | some (memb, a) => s.mirrorWrites q ((s.image q).coordOf memb) (a + off) (bs.length + 1) bs
  | none => s

/-- CHECKPOINT_WRITE (R539-R541): the record goes to area A first, then alternates (log entry 34); its STATE is 0 until CDIGEST is written. -/
def execCheckpointWrite (q : Nat) (s : State) : Host.Outcome State Fault Refusal :=
  match s.dueCk q with
  | some c =>
    if s.runSt q = 3 ∧ (s.part q).haltedAt.isNone then
      let m := (s.image q).img
      let p := s.part q
      let a := if p.ckArea % 2 = 0 then m.ckA else m.ckB
      let st := s.ckState q
      let body := st ++ s.hbmRead (a + 256 + st.length) m.tensor
      let h := s.ckHeader q c 1 body (fun r => (Config.freeValue (s.free + r)) % 2 ^ 32)
      let s := (List.range 8).foldl (fun s _ => s.fresh) s
      let s := ((s.hbmPut q a (h ++ st)).hbmOther q m.tensor).mirror q 0 (h ++ st)
      .next (s.setPart q { s.part q with ckArea := p.ckArea + 1, ckDone := p.ckDone ++ [c], ckPend := p.ckPend ++ [(c, a)] })
    else .next s
  | none => .next s

/-- CHECKPOINT_COMMIT (R540, R549): STOPREACH after its boundary a record becomes committed unless a stop step of c or lower is
held. -/
def execCheckpointCommit (q : Nat) (s : State) : Host.Outcome State Fault Refusal :=
  let p := s.part q
  match p.ckPend with
  | (c, a) :: r =>
    if s.reached q (s.boundary q (c + 1) + (s.image q).stopreach) then
      let s := s.setPart q { p with ckPend := r }
      let held := match p.stop with | some n => decide (n.stopStep ≤ c) | none => false
      let t := s.hbmPut q (a + 142) (toLE 1 2)
      .next (if held then s else t.mirror q 136 (t.hbmRead (a + 136) 8))
    else .next s
  | [] => .next s

/-! The finish boundary (R544, R583, R585). -/

/-- A member's finish report (tables LAUNCH payload, Finish report body). -/
def State.report (s : State) (q : Nat) : FinishRep :=
  let p := s.part q
  let g (f : Fld) : Nat := s.get f q
  let fl := s.get .CHK_RUN_FLAGS q
  let top (f : Fld) : Bool := s.get f q == 2 ^ f.info.width - 1
  { part := q, member := (s.image q).memb, coord := s.coord, dclass := s.get .CHK_CLASS_DCLASS, diverged := bit fl 3,
    logbad := bit fl 4,
    saturated := ([.CHK_NDC_COUNT, .CHK_PC_CNT_COUNT, .CHK_PC_SKIP_COUNT, .CHK_SH_CNT_COUNT, .CHK_CE_CNT_COUNT, .CHK_RPL_CNT_COUNT,
      .CHK_DIVCNT_COUNT] : List Fld).any top,
    ndc := g .CHK_NDC_COUNT, pchecks := g .CHK_PC_CNT_COUNT, pskip := g .CHK_PC_SKIP_COUNT, shadow := g .CHK_SH_CNT_COUNT,
    ecc := g .CHK_CE_CNT_COUNT, replays := g .CHK_RPL_CNT_COUNT, frames := p.nFrames, drops := p.nDrops, firstDiv := p.firstDiv,
    divCount := g .CHK_DIVCNT_COUNT, indig := sha256 (p.inLog.flatMap (·.2)), insum := p.inSum,
    outdig := sha256 ((List.range 4).flatMap (fun r => sha256 (look [] p.outRings r))), outsum := p.outSum }

/-- Every bound context has halted with code 0 and every panel that received an issue record has completed END.LAST (R544). -/
def State.finishedClean (s : State) (q : Nat) : Bool :=
  (s.ctxsOf q).all (fun x => s.get .SEQ_CTX_STATE_STATE x == 9)
    && s.panels.all (fun e => e.2.part != some q || e.2.prev.isNone || s.is .PNL_SL_STAT_LASTSEEN e.1)

/-- FINISH_BOUNDARY (R508, R544, R545). -/
def execFinishBoundary (q : Nat) (s : State) : Host.Outcome State Fault Refusal :=
  let p := s.part q
  let m := s.image q
  if s.runSt q = 3 ∧ p.haltedAt.isNone ∧ p.stop.isNone ∧ p.finished = false ∧ s.reached q (s.boundary q m.steps) then
    let ok := s.finishedClean q
    let s := s.stopCtxs q
    let s := s.setPart q { s.part q with finished := true }
    if ok then .next (s.sendPk 22 false (s.pkTo 22 22 q p.msg.src (.report p.msg (s.report q))))
    else .next (s.hreFault q (s.home q) 0x9007 (some (m.steps - 1)) (m.steps - 1))
  else .next s

end Sys2Proof.Machine
end

