-- ==== Sys2Proof/Machine/Intake.lean ====
section
/-! DEFINITION. Intake points: the doorbell read at the point's slot, consumption, log and comparison, lateness (R400-R407, R437,
R438, R441, R532, R555, R569-R575, R583, R592, R595). -/
namespace Sys2Proof.Machine

/-- INTAKE_POINT (R401, R407, R438, R531, R532): at the tally slot of I the doorbell word of the point's ring is read. On a ring stopped by
an index error the intake faults; on one that is not in use, or with the link down, the read fails. -/
def execIntakePoint (q k : Nat) (s : State) : Host.Outcome State Fault Refusal :=
  match s.point q k with
  | some p =>
    let fn := (s.part q).ringFn
    let r := ringOf p
    if q < 128 ∧ s.intakeSt q k = .waiting ∧ s.liveSlot q s.tally = some p.slot ∧ (s.part q).base ≤ p.slot then
      if (s.ring fn r).stopped then .next (s.intakeFault q k 0x9005 p)
      else if s.ringOn fn r then
        .next (((s.setIntake q k .reading).setInRead q k { left := 1 }).startDma (.point q k) (s.dbAddr fn r) 16)
      else .next (s.setIntake q k .failed)
    else .next s
  | none => .next s

/-! Log entries (R570). -/

/-- What an entry records of one input. -/
structure LogIn where
  skip   : Bool := false
  len    : Nat := 0
  digest : List Byte := List.replicate 32 0
  dseq   : Nat := 0
  deriving DecidableEq, Repr

/-- The hashed part of entry `j` of point `k`. -/
def hashedPart (k ring j : Nat) (e : LogIn) : List Byte :=
  toLE 1 k ++ toLE 1 ring ++ toLE 1 j ++ toLE 1 (b2n e.skip) ++ toLE 4 e.len ++ e.digest

/-- A whole log entry. -/
def logEntry (k ring j cstep : Nat) (e : LogIn) : List Byte :=
  hashedPart k ring j e ++ toLE 4 e.dseq ++ toLE 4 0 ++ toLE 7 cstep ++ List.replicate 9 0

/-- A mismatch with the reference (R573, R574): the first is the member's divergence. -/
def State.diverge (s : State) (q k j dseq ref cause cstep entry : Nat) (p : ImgIntake) : State :=
  let first := !bit (s.get .CHK_RUN_FLAGS q) 3
  let s := s.inc .CHK_DIVCNT_COUNT q
  if first then
    let st := s.stepOf q p.slot
    let s := (s.setBit .CHK_RUN_FLAGS 3 true q).setPart q { s.part q with firstDiv := cstep }
    let s := (s.set .CHK_DIV_ENTRY entry q).set .CHK_DIV_CAUSE cause q
    let s := s.raiseEv { code := 0xA001, part := some q, skind := 6, sindex := s.home q, detail := entry + cause * 2 ^ 32 }
    let s := s.complete (s.home q)
      { kind := 8, irq := true,
        detail := toLE 1 q ++ toLE 1 k ++ toLE 1 p.ring ++ toLE 1 j ++ toLE 4 dseq ++ toLE 4 ref ++ toLE 1 cause ++ toLE 3 0
          ++ toLE 7 cstep ++ toLE 1 0 ++ toLE 4 entry ++ toLE 4 st }
    if s.is .CHK_CTRL_DIV_STOP then
      s.sendFault { part := q, code := 0xA001, step := some st, srck := 6, node := s.home q }
    else s
  else s

/-- The cause of a mismatch between hashed parts (table Divergence report). Entries that differ in POINT, RING or J alone have none
of the causes listed: a free one of the three. -/
def divCause (mine ref : List Byte) (free : Nat) : Nat :=
  if (mine.drop 3).take 1 ≠ (ref.drop 3).take 1 then 1
  else if (mine.drop 4).take 4 ≠ (ref.drop 4).take 4 then 2
  else if (mine.drop 8).take 32 ≠ (ref.drop 8).take 32 then 3
  else 1 + free % 3

/-- The reference header is compared once, at the first intake point that acts (R572, R592). REFDSEQ of a header is free. -/
def State.compareHeader (s : State) (q k dseq cstep : Nat) (p : ImgIntake) : State :=
  let x := s.part q
  if x.refSeen then s
  else
    let s := (s.setPart q { x with refSeen := true }).hbmOther q 64
    let h := s.hbmRead x.msg.ref 64
    let mine := (s.image q).logHeader
    if h.take 6 = mine.take 6 ∧ (h.drop 12).take 2 = (mine.drop 12).take 2 ∧ (h.drop 16).take 32 = (mine.drop 16).take 32 then s
    else (s.fresh.setPart q { s.part q with refBad := true }).diverge q k 0 dseq (s.freeV % 2 ^ 32) 4 cstep 0 p

/-- Entry `j` of point `k` is written or compared (R570-R573). -/
def State.logOne (s : State) (q k cstep : Nat) (p : ImgIntake) (j : Nat) (e : LogIn) : State :=
  let x := s.part q
  let i := 1 + (s.image q).logBase k + j
  let a := x.msg.ref + 64 * i
  let mine := hashedPart k p.ring j e
  let s := s.setPart q { x with inLog := ins x.inLog k (look [] x.inLog k ++ mine) }
  let s := s.setPart q { s.part q with inSum := if e.skip then x.inSum else (x.inSum + ofBE e.digest) % 2 ^ 256 }
  if bit (s.get .CHK_RUN_FLAGS q) 4 then s
  else if x.msg.record then s.hbmPut q a (logEntry k p.ring j cstep e)
  else if x.msg.replay then
    let s := s.compareHeader q k e.dseq cstep p
    if (s.part q).refBad then s
    else
      let s := s.hbmOther q 64
      let ref := s.hbmRead a 64
      if ref.take 40 = mine then s
      else s.fresh.diverge q k j e.dseq (fieldLE ref 40 4) (divCause mine ref s.freeV) cstep i p
  else s

/-- All entries of a point. -/
def State.logPoint (s : State) (q k : Nat) (p : ImgIntake) (l : List LogIn) : State :=
  let cstep := (s.slotTally q p.slot + 2 ^ 56 - s.get .TIM_LAUNCH_AT_AT q) % 2 ^ 56
  l.zipIdx.foldl (fun s e => s.logOne q k cstep p e.2 e.1) s

/-! Consumption. -/

/-- Input `j` lands: its LEN bytes, then zeros to CAP (R403). -/
def State.land (s : State) (q : Nat) (p : ImgIntake) (j : Nat) (bs : List Byte) : State :=
  s.hbmPut q (p.landing + j * p.cap) ((bs ++ List.replicate p.cap 0).take p.cap)

/-- A descriptor's write-back: CTALLY, DONE and DIGEST (table Intake descriptor). -/
def State.writeBack (s : State) (fn r i ctally : Nat) (digest : List Byte) : State :=
  s.emit (.hostWrite fn (s.descAddr fn r i + 24) (toLE 7 ctally ++ toLE 1 128 ++ digest))

/-- Slots by which tally `t` precedes tally `c`, 0 when it does not. -/
def leadOf (c t : Nat) : Nat := let d := (c + 2 ^ 56 - t) % 2 ^ 56; if d < 2 ^ 55 then d else 0

/-- The lead sample of a consumed descriptor (R406, R631). One first seen at or after the point's slot leads by 0 (log entry 156). -/
def State.leadSample (s : State) (q ring i ctally : Nat) (seen : List (Nat × Nat)) : State :=
  match seen.find? (fun e => e.1 == i) with
  | some (_, t) => s.sample 5 (fun sc => bit sc ring) (some q) (leadOf ctally t)
  | none => s

/-- The n descriptors from DIDX are consumed (R401, R403, R404, R503, R570). -/
def State.consume (s : State) (q k : Nat) (p : ImgIntake) (descs inputs : List (List Byte)) : State :=
  let fn := (s.part q).ringFn
  let r := ringOf p
  let d := s.get .RING_STAT_DIDX (16 * fn + r)
  let ct := s.slotTally q p.slot
  let seen := (s.ring fn r).seen
  let es := (descs.zip inputs).map (fun x => ({ len := fieldLE x.1 8 4, digest := sha256 x.2, dseq := fieldLE x.1 12 4 } : LogIn))
  let s := inputs.zipIdx.foldl (fun s x => s.land q p x.2 x.1) s
  let s := es.zipIdx.foldl (fun s x => s.writeBack fn r (d + x.2) ct x.1.digest) s
  let s := (List.range p.n).foldl (fun s j => s.leadSample q p.ring ((d + j) % 2 ^ 32) ct seen) s
  let s := s.setRing fn r { s.ring fn r with
    seen := seen.filter (fun e => !(List.range p.n).any (fun j => e.1 == (d + j) % 2 ^ 32)) }
  let s := ((s.set .RING_STAT_DIDX (d + p.n) (16 * fn + r)).shadow fn r)
  ((s.logPoint q k p es).setIntake q k .done).wakeIntake q k

/-- Too few descriptors (R402): a fault under the stop policy; else the point is skipped. -/
def State.shortIntake (s : State) (q k : Nat) (p : ImgIntake) : State :=
  if p.skip then
    (((s.inc .CHK_NDC_COUNT q).logPoint q k p (List.replicate p.n { skip := true })).setIntake q k .skipped).wakeIntake q k
  else s.intakeFault q k 0x9005 p

/-- What the reads of a point decide (R395, R401-R403, R407, R441): an index error stops the ring. -/
def State.decideIntake (s : State) (q k : Nat) (p : ImgIntake) (x : InRead) : State :=
  let fn := (s.part q).ringFn
  let ds := x.descList p.n
  if (s.ring fn (ringOf p)).stopped then s.intakeFault q k 0x9005 p
  else if x.bad then (s.indexError fn (ringOf p)).intakeFault q k 0x9005 p
  else if x.shown < p.n then s.shortIntake q k p
  else if ¬ lensOk p.cap ds then s.intakeFault q k 0x9005 p
  else s.consume q k p ds ((List.range p.n).map x.inputOf)

/-- INTAKE_CONSUME (R401-R407, R426, R438): every read of the point has returned, and the points that took descriptors before it have
consumed them. Work not complete by I + W is left to INTAKE_DEADLINE. -/
def execIntakeConsume (q k : Nat) (s : State) : Host.Outcome State Fault Refusal :=
  match s.point q k with
  | some p =>
    let x := s.inRead q k
    if s.intakeSt q k ≠ .reading ∨ x.left ≠ 0 ∨ s.runSt q ≠ 3 ∨ (s.part q).haltedAt.isSome
        ∨ (x.takes ≠ 0 ∧ s.get .RING_STAT_DIDX (16 * (s.part q).ringFn + ringOf p) ≠ x.base)
        ∨ 0 < cmp32 s.tally (s.slotTally q (p.slot + p.w)) then .next s
    else .next (s.decideIntake q k p x)
  | none => .next s

/-- INTAKE_DEADLINE (R404, R438, R532): I + W has come and the work is incomplete. -/
def execIntakeDeadline (q k : Nat) (s : State) : Host.Outcome State Fault Refusal :=
  match s.point q k with
  | some p =>
    let x := s.intakeSt q k
    if q < 128 ∧ s.runSt q = 3 ∧ (s.part q).haltedAt.isNone ∧ (s.part q).base ≤ p.slot ∧ p.slot < s.boundary q (s.image q).steps
        ∧ (x = .waiting ∨ x = .reading ∨ x = .failed) ∧ s.reached q (p.slot + p.w) then
      .next (s.intakeFault q k 0x9006 p)
    else .next s
  | none => .next s

end Sys2Proof.Machine
end

