-- ==== Sys2Proof/Machine/Reset.lean ====
section
/-! DEFINITION. Resets of a function, of PCI Express, of the system and of everything, and the link (R383, R416, R438, R439, R444,
R622, R722-R726, R739, R750, R757, R758). -/
namespace Sys2Proof.Machine

/-- The registers without those of the fields that satisfy `p`: they read their reset values (R12, R723). -/
def State.resetFields (s : State) (p : Fld → Bool) : State :=
  let ks := (Fld.all.filter p).map Fld.ctorIdx
  { s with regs := s.regs.filter (fun e => !decide (e.1 % 512 ∈ ks)) }

/-! Functions. -/

/-- A ring set's registers. -/
def ringSet : List Fld := [.RING_BASE_ADDR, .RING_DB_ADDR, .RING_CFG_LOG2N, .RING_CFG_ENABLE, .RING_CFG_GEN, .RING_WAIT_WAIT,
  .RING_STAT_DIDX, .RING_ERR_IDX_ERR, .RING_ERR_RD_ERR, .RING_ERR_OVF, .RING_DROP_COUNT]

/-- Is a read on behalf of function `fn`, its rings, its LOAD or the intake points that its rings serve? -/
def State.readFor (s : State) (fn : Nat) (p : DmaPurp) : Bool :=
  match p with
  | .doorbell f _ => f == fn
  | .sub f _ _ => f == fn
  | .bufs f _ _ _ => f == fn
  | .point q _ => (s.part q).ringFn == fn
  | .desc q _ _ _ => (s.part q).ringFn == fn
  | .input q _ _ _ => (s.part q).ringFn == fn
  | .load f _ _ => f == fn
  | .push => false
  | .void => false

/-- A function's ring sets are reset and disabled, its backlog and its unwritten records discarded, its commands and reads at an end
(R416, R439, R444, table Reset kinds). Frames that wait keep their place. -/
def State.resetRings (s : State) (fn : Nat) : State :=
  let s := (List.range 16).foldl (fun s r =>
    let x := s.ring fn r
    (s.zero (16 * fn + r) ringSet).setRing fn r { fseq := x.fseq, frames := x.frames, gap := x.gap, part := x.part }) s
  let s : State := { s with hre := { s.hre with loads := del s.hre.loads fn } }
  (s.voidDma (s.readFor fn)).setFunc fn { s.func fn with cq := [], backlog := [], lost := 0, flr := false }

/-- A partition armed, committed or running stops with the cause "function reset": at once, or at its launch (R439, R725). A PCIe
reset (`pcie`) makes an armed one miss its commit (R757). -/
def State.resetStop (s : State) (pcie : Bool) (q : Nat) : State :=
  let p := s.part q
  match s.runSt q with
  | 1 => s.setPart q { p with flrStop := true, missCommit := p.missCommit || pcie }
  | 2 => s.setPart q { p with flrStop := true }
  | 3 =>
    let st := s.curStep q
    (s.setPart q { p with flrStop := true }).hreFault q 0 0x9003 (some st) st
  | _ => s

/-- FLR_VF (R416, R439): the backlog is discarded; the rings are disabled at once, or once the run of the function's partition has
stopped. -/
def execFlrVf (f : Nat) (s : State) : Host.Outcome State Fault Refusal :=
  if f < 128 then
    let t := (s.resetStop false f).setBit .PCX_FLR_BUSY (f % 32) true (f / 32)
    .next (if s.busy f then t.setFunc (f + 1) { t.func (f + 1) with cq := [], backlog := [], lost := 0, flr := true }
           else t.resetRings (f + 1))
  else .next s

/-- FUNCTION_LEVEL_RESET_DONE (R439, table PCX fields): a reset whose partition still runs is not at its end. -/
def execFunctionLevelResetDone (f : Nat) (s : State) : Host.Outcome State Fault Refusal :=
  let wait := (s.func (f + 1)).flr
  if f < 128 ∧ (wait = false ∨ s.busy f = false) then
    .next ((if wait then s.resetRings (f + 1) else s).setBit .PCX_FLR_BUSY (f % 32) false (f / 32))
  else .next s

/-- A virtual function is enabled with memory space on, or not. -/
def State.vfEnable (s : State) (f : Nat) (on : Bool) : State :=
  (s.setFunc (f + 1) { s.func (f + 1) with vfEn := on }).setBit .PCX_VF_ACT_ACTIVE (f % 32) on (f / 32)

/-- VF_ENABLE (R416). -/
def execVfEnable (f : Nat) (on : Bool) (s : State) : Host.Outcome State Fault Refusal :=
  if f < 128 then .next (s.vfEnable f on) else .next s

/-- FLR_PF (R433, R444): every virtual function is reset with the physical one, and VF Enable is cleared. -/
def execFlrPf (s : State) : Host.Outcome State Fault Refusal :=
  let s := (List.range 128).foldl (fun s q => s.resetStop false q) s
  let s := (List.range 129).foldl State.resetRings s
  .next ((List.range 128).foldl (fun s f => (s.vfEnable f false).setBit .PCX_FLR_BUSY (f % 32) true (f / 32)) s)

/-! PCI Express. -/

/-- The endpoint, HRE and PCX are reset (table Reset kinds): rings, functions, reads and frames are gone. -/
def State.resetPcie (s : State) : State :=
  let s := s.resetFields (fun f => f.info.blk == .HRE || f.info.blk == .PCX)
  { s with hre := {}, parts := s.parts.map (fun e => (e.1, { e.2 with staged := 0 })) }

/-- PCIE_RESET (R722, R725, R757): PERST_N falls. -/
def execPcieReset (s : State) : Host.Outcome State Fault Refusal :=
  let s := ((List.range 128).foldl (fun s q => s.resetStop true q) s).resetPcie
  .next { s with boot := { s.boot with perst := true } }

/-- PERST_RELEASE (R726): PERST_N rises; the endpoint becomes ready. -/
def execPerstRelease (s : State) : Host.Outcome State Fault Refusal :=
  if s.boot.powered then .next { s with boot := { s.boot with perst := false } } else .next s

/-- PCIE_LINK_DOWN (R438). -/
def execPcieLinkDown (s : State) : Host.Outcome State Fault Refusal := .next (s.set .PCX_LINK_RATE 0)

/-- PCIE_LINK_UP (R383). -/
def execPcieLinkUp (rate width : Nat) (flit : Bool) (s : State) : Host.Outcome State Fault Refusal :=
  .next (((s.set .PCX_LINK_RATE rate).set .PCX_LINK_WIDTH width).set .PCX_LINK_FLIT (b2n flit)).linkBack

/-! System reset, cold reset, power-down. -/

/-- A retention panel after a system reset: kept when the reset begins in shelf state, undefined otherwise (R622, R724). -/
def State.keepRetention (s : State) (shelf : Bool) : SMap Panel :=
  retention.map (fun w =>
    let x := s.panel w
    (w, if shelf then { mem := x.mem, lost := x.lost, undef := x.undef, known := x.known } else { undef := some s.free }))

/-- The state of R723 after a system reset. `pwrOk` says that PWR_OK stayed high. Fuses, rails, the TAP and the level of PERST_N
are outside the reset; so is what was put out. -/
def State.systemReset (s : State) (pwrOk : Bool) : State :=
  let keep (f : Fld) : Bool := f.info.blk == .EVR || f == .TIM_TALLY_TALLY || f == .TIM_TICK_TICK || f == .PNL_HOOD_FENCED
    || (f == .MBX_FAULT_TRIP && pwrOk)
  let b := s.boot
  let r := s.fresh.resetFields (fun f => !keep f)
  let trip := b.tripped && pwrOk
  let t : State :=
    { regs := r.regs, tb := { holdover := s.tb.holdover }, evr := s.evr, panels := s.keepRetention (s.get .PWR_SHELF_STATE == 2),
      out := s.out, free := r.free, pending := s.pending,
      boot := { fuseStep := b.fuseStep, fuseGrade := b.fuseGrade, fuseClass := b.fuseClass, fuseSvn := b.fuseSvn,
                fuseKey := b.fuseKey, fusePos := b.fusePos, fuseSer := b.fuseSer, fuseFail := b.fuseFail, fuseBad := b.fuseBad,
                straps := b.straps, powered := b.powered, perst := b.perst, tripped := trip, rails := b.rails,
                tapInstr := b.tapInstr, tapData := b.tapData, tapDie := b.tapDie, boundary := b.boundary } }
  let t := if b.faultLow then t.emit (.pin "FAULT_N" true) else t
  let t := if s.tb.evtLevel then t.emit (.pin "TALLY_EVT" false) else t
  if b.tripped && !trip then t.emit (.pin "THERMTRIP_N" true) else t

/-- SYSTEM_RESET (R722-R724, R739, R750, R758): PWR_OK or SYS_RST_N held low for at least 2 µs. -/
def execSystemReset (pwrOk : Bool) (s : State) : Host.Outcome State Fault Refusal :=
  if s.boot.powered then .next (s.systemReset pwrOk) else .next s

/-- Everything lost but the fuses and what stands outside the package. -/
def State.powerLost (s : State) (powered : Bool) : State :=
  let b := s.boot
  { out := s.out, free := s.free, pending := s.pending,
    boot := { fuseStep := b.fuseStep, fuseGrade := b.fuseGrade, fuseClass := b.fuseClass, fuseSvn := b.fuseSvn,
              fuseKey := b.fuseKey, fusePos := b.fusePos, fuseSer := b.fuseSer, fuseFail := b.fuseFail, fuseBad := b.fuseBad,
              powered := powered, perst := b.perst } }

/-- COLD_RESET (R722): VDD_AON rises; the tally and the local tick restart at 0. -/
def execColdReset (s : State) : Host.Outcome State Fault Refusal := .next (s.powerLost true)

/-- POWER_DOWN (R715, R739): VDD_AON falls; no output is driven. -/
def execPowerDown (s : State) : Host.Outcome State Fault Refusal := .next (s.powerLost false)

end Sys2Proof.Machine
end

