-- ==== Sys2Proof/Machine/Boot.lean ====
section
/-! DEFINITION. Straps, boot stages, firmware, set-up, SMBus, thermal trip, TAP (R286-R288, R293, R294, R301-R303, R349, R350,
R690, R691, R727-R736, R744-R757, R763). -/
namespace Sys2Proof.Machine

/-- TAP instructions during which the device holds itself in system reset (R745). -/
def holdsReset (i : Nat) : Bool := i ∈ ([0x00, 0x03, 0x04, 0x05, 0x06] : List Nat)

/-- RESET_RELEASE (R349, R727, R745): the straps are sampled and stage 1 begins. -/
def execResetRelease (st : Straps) (s : State) : Host.Outcome State Fault Refusal :=
  if s.boot.powered ∧ ¬ s.boot.released ∧ holdsReset s.boot.tapInstr = false then
    let s := { s with boot := { s.boot with straps := st, released := true } }
    let s := ((s.set .LNK_COORD_SLOT st.slot).set .LNK_COORD_BOARD st.board).set .LNK_COORD_BSIZE (b2n st.bsize)
    let s := ((s.set .MBX_BOOT_BOOTSEL st.bootSrc).set .MBX_BOOT_TEST (b2n st.testEn)).set .MBX_BOOT_STAGE 1
    .next s.faultPin
  else .next s

/-- The device is in boot stage `n`, out of reset and not held by a latched trip (R750). -/
def State.inStage (s : State) (n : Nat) : Bool := s.boot.released && !s.boot.tripped && s.get .MBX_BOOT_STAGE == n

/-- Boot stops in stage 15 with error `e` (R728, R737). -/
def State.bootStop (s : State) (e : Nat) : State := ((s.set .MBX_BOOT_ERR e).set .MBX_BOOT_STAGE 15).faultPin

/-- The POS fuse of die `k`; the fuses of an assembled part hold k (log entry 6). -/
def State.fusePos (s : State) (k : Nat) : Nat := look k s.boot.fusePos k

/-- The fuses are copied into IDN, CHK_CLASS, PNL_HOOD.FUSED and the grade's pace floor, which is also
the reset value of TARGET and APPLIED (R33, R35, R170, R286, R297, R763, R765). -/
def State.copyFuses (s : State) : State :=
  let b := s.boot
  let s := ((s.set .IDN_DEV_STEPPING b.fuseStep).set .IDN_DEV_GRADE b.fuseGrade).set .IDN_DEV_DCLASS b.fuseClass
  let s := (s.set .IDN_SVN_SVN_MIN b.fuseSvn).set .CHK_CLASS_DCLASS b.fuseClass
  let s := (List.range 6).foldl (fun s i => s.set .IDN_KEYDIG_KEYDIG (look 0 b.fuseKey i) i) s
  let s := (List.range 9).foldl (fun s k => (s.set .IDN_DIE_POS (s.fusePos k) k).set .IDN_SERIAL_SERIAL (look 0 b.fuseSer k) k) s
  let s := (List.range 64).foldl (fun s k =>
    let f := look 0x1F b.fuseFail k
    let w := 136 * (k / 8) + 17 * (k % 8)
    let s := (s.set .IDN_FAIL_FAILCOL f k).set .IDN_FAIL_SPARE_BAD (look 0 b.fuseBad k) k
    let s := if f < 16 then s.set .PNL_HOOD_FUSED 1 (w + f) else s
    s.set .PNL_HOOD_FUSED (look 0 b.fuseBad k) (w + 16)) s
  if b.fuseGrade = 1 then
    (List.range 8).foldl (fun s d => (s.set .PWR_PACE_CTRL_TARGET 0xB8 d).set .PWR_PACE_CTRL_APPLIED 0xB8 d) (s.set .PWR_PACE_FLOOR_FLOOR 0xB8)
  else s

/-- BOOT_ROM (R728): stage 1 is done. -/
def execBootRom (s : State) : Host.Outcome State Fault Refusal :=
  if s.inStage 1 then .next (s.copyFuses.set .MBX_BOOT_STAGE 2) else .next s

/-- An accepted firmware image of source `src` (R729, R751). -/
def State.firmwareOk (s : State) (src : Nat) : State :=
  let s := ((s.set .MBX_BOOT_SRC src).set .MBX_BOOT_ERR 0).set .MBX_BOOT_STAGE 3
  ({ s with boot := { s.boot with wait := false } } : State).faultPin

/-- FIRMWARE (R729, R751): `copyA` and `copyB` say which QSPI copy verifies. -/
def execFirmware (copyA copyB : Bool) (s : State) : Host.Outcome State Fault Refusal :=
  if s.inStage 2 ∧ s.boot.wait = false then
    if s.get .MBX_BOOT_BOOTSEL ≠ 0 then .next { s with boot := { s.boot with wait := true } }
    else if copyA then .next (s.firmwareOk 0)
    else if copyB then .next (s.firmwareOk 1)
    else .next ({ s.set .MBX_BOOT_ERR 1 with boot := { s.boot with wait := true } } : State).faultPin
  else .next s

/-- Does the device wait in stage 2 for a push? -/
def State.waitsPush (s : State) : Bool := s.inStage 2 && s.boot.wait

/-- A write of MBX_PUSH_CTRL (R729, R734, R752). -/
def State.pushWrite (s : State) (who v : Nat) : State :=
  let s := plainWrite who s (addrOf .MBX_PUSH_CTRL_GO) v
  if privileged who && bit v 0 then
    if s.waitsPush && !s.is .MBX_PUSH_CTRL_BUSY then
      let s := (s.set .MBX_PUSH_CTRL_BUSY 1).readAll (fun _ _ => .push) (s.get .MBX_PUSH_ADDR_ADDR) (s.get .MBX_PUSH_LEN_LEN)
      { s with boot := { s.boot with pushSrc := 2 } }
    else s.set .MBX_PUSH_CTRL_FAIL 1
  else s

/-- PUSH_GO (R734, R752). -/
def execPushGo (who v : Nat) (s : State) : Host.Outcome State Fault Refusal := .next (s.pushWrite who v)

/-- PUSH_VERIFY_DONE (R729, R751): the whole image is there. -/
def execPushVerifyDone (ok : Bool) (s : State) : Host.Outcome State Fault Refusal :=
  if s.waitsPush ∧ s.is .MBX_PUSH_CTRL_BUSY ∧ ¬ s.hre.dma.any (fun d => d.2.purp == DmaPurp.push)
      ∧ ¬ s.hre.dmaWait.any (fun d => d.1 == DmaPurp.push) then
    let s := s.set .MBX_PUSH_CTRL_BUSY 0
    .next (if ok then s.firmwareOk s.boot.pushSrc else s.set .MBX_PUSH_CTRL_FAIL 1)
  else .next s

/-- Dies whose POS fails R287: unwritten, reserved, or that of another die. -/
def State.badDies (s : State) : List Nat :=
  (List.range 9).filter (fun k => decide (8 < s.fusePos k) || (List.range 9).any (fun j => j != k && s.fusePos j == s.fusePos k))

/-- FUSE_AND_STRAP_CHECKS (R287, R350, R728). -/
def execFuseAndStrapChecks (fuseOk : Bool) (s : State) : Host.Outcome State Fault Refusal :=
  if s.inStage 3 then
    match s.badDies with
    | k :: _ => .next ((s.raiseEv { code := 0x5001, skind := 13, sindex := k, detail := s.fusePos k }).bootStop 2)
    | [] =>
      if ¬ fuseOk then .next (s.bootStop 6)
      else if s.boot.straps.bsize = false ∧ 8 ≤ s.boot.straps.slot then
        .next (((s.set .LNK_COORD_STRAP_BAD 1).raiseEv { code := 0x4004, detail := s.boot.straps.slot }).bootStop 5)
      else .next (s.set .MBX_BOOT_STAGE 4)
  else .next s

/-- HBM_TRAINING (R303): `trained` has a bit for each stack that trained. -/
def execHbmTraining (trained : Nat) (s : State) : Host.Outcome State Fault Refusal :=
  if s.inStage 4 then
    let s := s.set .MEM_STAT_TRAINED trained
    let bad := (List.range 8).filter (fun d => !bit trained d)
    if bad.isEmpty then .next (s.set .MBX_BOOT_STAGE 5)
    else .next ((bad.foldl (fun s d => s.raiseEv { code := 0x5003, skind := 10, sindex := d }) s).bootStop 3)
  else .next s

/-- Do the POS values at the ends of stitch `t` agree with the placement (R288)? -/
def State.stitchPosOk (s : State) (t : Nat) : Bool :=
  if t < 6 then s.fusePos (stitchDie t 0) + 1 == s.fusePos (stitchDie t 1) else s.fusePos ((t - 6) / 2) == (t - 6) / 2

/-- A stitch whose ends disagree is recorded with the POS seen (R288). -/
def State.wrongPos (s : State) (t : Nat) : State :=
  s.raiseEv { code := 0x5001, skind := 9, sindex := t, detail := s.fusePos (if t < 6 then stitchDie t 1 else (t - 6) / 2) }

/-- The groups of stitch `t` that failed in a direction. -/
def failedOf (l : List (Nat × Bool × Nat)) (t : Nat) (east : Bool) : List Nat :=
  (List.range 16).filter (fun g => l.any (fun f => f.1 == t && f.2.1 == east && f.2.2 == g))

/-- One direction of a stitch (R294): the group mapped onto group 15, 15 for none; no answer when two or more failed. -/
def spareFor (l : List Nat) : Option Nat := match l with
  | [] => some 15
  | [g] => some g
  | _ => none

/-- STITCH_TRAINING (R288, R293, R294): the groups that failed, with direction (true east) and stitch. Which of several failing
groups the event names is free. -/
def execStitchTraining (failed : List (Nat × Bool × Nat)) (s : State) : Host.Outcome State Fault Refusal :=
  if s.inStage 5 then
    let wrong := (List.range 22).filter (fun t => !s.stitchPosOk t)
    let fOf (t : Nat) : List Nat :=
      let e := failedOf failed t true
      if 2 ≤ e.length then e else failedOf failed t false
    let down := (List.range 22).filter (fun t =>
      (spareFor (failedOf failed t true)).isNone || (spareFor (failedOf failed t false)).isNone)
    let s := (List.range 22).foldl (fun s t =>
      let s := (s.set .MEM_T_STAT_SPARE_E ((spareFor (failedOf failed t true)).getD 15) t).set .MEM_T_STAT_SPARE_W
        ((spareFor (failedOf failed t false)).getD 15) t
      s.set .MEM_T_STAT_UP (b2n (!decide (t ∈ down))) t) s
    match wrong, down with
    | _ :: _, _ =>
      .next ((wrong.foldl State.wrongPos s).bootStop 2)
    | [], [] => .next (((s.set .MEM_STAT_STITCH_OK 1).set .MEM_STAT_ID_OK 1).set .MBX_BOOT_STAGE 6)
    | [], _ =>
      .next ((down.foldl (fun s t =>
        s.fresh.raiseEv { code := 0x5002, skind := 9, sindex := t, detail := (fOf t).getD (s.freeV % (fOf t).length) 0 }) s).bootStop 4)
  else .next s

/-- PORT_TRAINING (R728): every non-spare port trains; one that does not stays down. -/
def execPortTraining (trained : Nat) (s : State) : Host.Outcome State Fault Refusal :=
  if s.inStage 6 then
    let ps := (List.range 32).filter (fun p => bit trained p && !s.spare p)
    .next ((ps.foldl State.portUp s).set .MBX_BOOT_STAGE 7)
  else .next s

/-- A write of MBX_SETUP (R730, R731, R753). -/
def State.setupWrite (s : State) (who v : Nat) : State :=
  let s := plainWrite who s (addrOf .MBX_SETUP_COMMIT) v
  if privileged who && bit v 0 then
    if s.get .MBX_BOOT_STAGE = 7 ∧ s.is .LNK_COORD_RACKSET then
      ((s.set .MBX_SETUP_COMMITTED 1).set .MBX_BOOT_STAGE 8).confRun
    else s.set .MBX_SETUP_REFUSED 1
  else s

/-- SETUP_COMMIT (R730, R731, R753). -/
def execSetupCommit (who v : Nat) (s : State) : Host.Outcome State Fault Refusal := .next (s.setupWrite who v)

/-! SMBus (R733). The target answers from stage 1 on. -/

/-- A read command's bytes, least significant first. -/
def State.smbusRead (s : State) (bs : List Byte) : State := if s.boot.released then s.emit (.smbus bs) else s

/-- BOOT_STATUS (R733): MBX_BOOT [15:0]. -/
def execBootStatus (s : State) : Host.Outcome State Fault Refusal :=
  .next (s.smbusRead (toLE 2 (s.get .MBX_BOOT_STAGE + s.get .MBX_BOOT_ERR * 2 ^ 8 + s.get .MBX_BOOT_SRC * 2 ^ 12
    + s.get .MBX_BOOT_BOOTSEL * 2 ^ 14)))

/-- FW_BLOCK (R733): an offset and 32 bytes of a pushed image. -/
def execFwBlock (data : List Byte) (s : State) : Host.Outcome State Fault Refusal :=
  let o := fieldLE data 0 4
  if s.waitsPush ∧ data.length = 36 ∧ o % 32 = 0 then
    .next { s with boot := { s.boot with push := writeBytes s.boot.push o (data.drop 4) } }
  else .next s

/-- FW_DONE (R729, R733): verification of the pushed image starts. -/
def execFwDone (units : Nat) (s : State) : Host.Outcome State Fault Refusal :=
  if s.waitsPush ∧ ¬ s.is .MBX_PUSH_CTRL_BUSY ∧ units < 256 then
    .next { s.set .MBX_PUSH_CTRL_BUSY 1 with boot := { s.boot with pushSrc := 3 } }
  else .next s

/-- SHELF (R624, R626, R733). -/
def execShelf (code : Nat) (s : State) : Host.Outcome State Fault Refusal :=
  if s.boot.released then
    if code = 1 then .next s.shelfEnter else if code = 2 then .next (s.shelfWake 2) else .next s
  else .next s

/-- COORD (R733): LNK_COORD [15:0]. -/
def execCoord (s : State) : Host.Outcome State Fault Refusal :=
  .next (s.smbusRead (toLE 2 (s.coord + s.get .LNK_COORD_BSIZE * 2 ^ 12 + s.get .LNK_COORD_RACKSET * 2 ^ 13
    + s.get .LNK_COORD_STRAP_BAD * 2 ^ 14)))

/-- FAULT (R733, R749): MBX_FAULT [7:0]. -/
def execFault (s : State) : Host.Outcome State Fault Refusal :=
  .next (s.smbusRead (toLE 1 (s.get .MBX_FAULT_FORCE + s.get .MBX_FAULT_OVERTEMP * 2 + s.get .MBX_FAULT_AVS * 4
    + s.get .MBX_FAULT_TRIP * 8)))

/-- SMBUS_PEC_REJECT (R733): a write with a bad PEC byte or a reserved code changes nothing. -/
def execSmbusPecReject (_code : Nat) (s : State) : Host.Outcome State Fault Refusal := .next s

/-! Thermal trip. -/

/-- THERMAL_TRIP (R736, R737, R749): pace generators, transmitters and HBM commands stop while `tripped` is set. -/
def execThermalTrip (die : Nat) (s : State) : Host.Outcome State Fault Refusal :=
  if s.boot.powered ∧ ¬ s.boot.tripped ∧ die ≤ 8 then
    let s := ({ s.set .MBX_FAULT_TRIP 1 with boot := { s.boot with tripped := true } } : State).emit (.pin "THERMTRIP_N" false)
    .next s.faultPin
  else .next s

/-! The TAP (R744-R748). -/

/-- The current instruction changes. -/
def State.tapIr (s : State) (i : Nat) : State := { s with boot := { s.boot with tapInstr := i } }

/-- An instruction that holds the device in system reset takes effect (R745, R755). -/
def State.tapHold (s : State) (i : Nat) : State := if s.boot.released then (s.systemReset true).tapIr i else s.tapIr i

/-- EXTEST (R745, R755). -/
def execExtest (s : State) : Host.Outcome State Fault Refusal := .next (s.tapHold 0x00)
/-- HIGHZ (R745). -/
def execHighz (s : State) : Host.Outcome State Fault Refusal := .next (s.tapHold 0x03)
/-- CLAMP (R745). -/
def execClamp (s : State) : Host.Outcome State Fault Refusal := .next (s.tapHold 0x04)
/-- EXTEST_PULSE (R745). -/
def execExtestPulse (s : State) : Host.Outcome State Fault Refusal := .next (s.tapHold 0x05)
/-- EXTEST_TRAIN (R745). -/
def execExtestTrain (s : State) : Host.Outcome State Fault Refusal := .next (s.tapHold 0x06)

/-- SAMPLE_PRELOAD (R744): the levels sampled at the lands, which the spec does not give here, go out; `v` is preloaded. -/
def execSamplePreload (v : Nat) (s : State) : Host.Outcome State Fault Refusal :=
  let s := (s.fresh.tapIr 0x01).emit (.tdo s.freeV)
  .next { s with boot := { s.boot with boundary := v } }

/-- IDCODE (R744). -/
def execIdcode (s : State) : Host.Outcome State Fault Refusal := .next ((s.tapIr 0x02).emit (.tdo 0x2E710B47))

/-- BYPASS and reserved codes (R744). -/
def execBypass (_code : Nat) (s : State) : Host.Outcome State Fault Refusal := .next (s.tapIr 0xFF)

/-- TEST_EN as sampled (R301, R754). -/
def State.testEn (s : State) : Bool := s.is .MBX_BOOT_TEST

/-- DIESEL (R746): 0-7 a batt die, 8 the band die, 9-15 reserved. Without TEST_EN it acts as BYPASS. -/
def execDiesel (v : Nat) (s : State) : Host.Outcome State Fault Refusal :=
  if ¬ s.testEn then .next (s.tapIr 0xFF)
  else if 9 ≤ v % 16 then .fault (.reservedOperand (v % 16))
  else .next { s.tapIr 0x10 with boot := { s.boot with tapInstr := 0x10, tapDie := v % 16 } }

/-- Does die `d` (8 the band die) hold an end of stitch `t` (R284, R285)? -/
def dieHas (d t : Nat) : Bool :=
  decide (t < 22) && (if t < 6 then stitchDie t 0 == d || stitchDie t 1 == d else d == 8 || (t - 6) / 2 == d)

/-- STITCHTEST (R301, R302, R746): `errs` is what the test mode written has counted by the capture, on top of the count so far. Modes 4-7
are reserved. -/
def execStitchtest (v errs : Nat) (s : State) : Host.Outcome State Fault Refusal :=
  if ¬ s.testEn then .next (s.tapIr 0xFF)
  else
    let t := bits v 0 5
    let m := bits v 5 3
    if 4 ≤ m then .fault (.reservedOperand m)
    else
      let s := s.tapIr 0x11
      if dieHas s.boot.tapDie t then
        let s := s.set .MEM_T_TEST_MODE m t
        let s := if m = 0 then s else s.inc .MEM_T_TEST_ERRS t errs
        .next (s.emit (.tdo (t + m * 2 ^ 5 + s.get .MEM_T_TEST_ERRS t * 2 ^ 8)))
      else .next s

/-- PORTTEST (R747): a port in modes 1-3 is down for the data plane. -/
def execPorttest (v errs : Nat) (s : State) : Host.Outcome State Fault Refusal :=
  if ¬ s.testEn then .next (s.tapIr 0xFF)
  else
    let p := bits v 0 5
    let m := bits v 5 2
    let s := s.tapIr 0x12
    let s := if m ≠ 0 ∧ s.is .LNK_P_STAT_UP p then s.portLost p else s
    let n := if m = 0 then (look (0, 0) s.boot.ptest p).2 else min errs 65535
    let s := { s with boot := { s.boot with ptest := put (0, 0) s.boot.ptest p (m, n) } }
    .next (s.emit (.tdo (p + m * 2 ^ 5 + n * 2 ^ 8)))

end Sys2Proof.Machine
end

