-- ==== Sys2Proof/Machine/View.lean ====
section
/-! DEFINITION. Reading registers: what each field shows a requester, windows of memory behind BAR0, side effects and quiet
aliases of reads, and accesses of a bad size (R13-R15, R19, R80, R267, R271, R419, R617, R662, R666, R760-R769). -/
namespace Sys2Proof.Machine

/-! Slot-use maps (R267). -/

/-- The partition whose image uses the port that LNK_MAP_SEL selects. -/
def State.mapOwner (s : State) : Option Nat :=
  let p := s.get .LNK_MAP_SEL_PORT
  match s.portOwner p with
  | some q => if s.holds q && decide (p ∈ usedPorts (s.image q).img) then some q else none
  | none => none

/-- The selected bank of the port's band output node. -/
def State.mapBank (s : State) (q : Nat) : Bank :=
  match look? (s.node (bandKey (64 + s.get .LNK_MAP_SEL_PORT))).slices q with
  | some x => if s.is .LNK_MAP_SEL_BANK then x.b else x.a
  | none => {}

/-- The departures of one frame of a bank of a band output node. -/
def depsOf (b : Bank) : List Entry := (liveOf b).filter (fun e => e.out % 2 == 1)

/-- The largest number of departures in 32 consecutive schedule slots. -/
def peakOf (b : Bank) : Nat := peak b.flen 32 ((depsOf b).map (fun e => (e.offset, 1)))

/-- The far end that the image expects on the selected port. -/
def State.mapFar (s : State) (q : Nat) : Nat :=
  let m := s.image q
  match m.img.ports.find? (fun x => x.port == s.get .LNK_MAP_SEL_PORT) with
  | some x => m.coordOf x.far
  | none => 0

/-- Bit `o` of a slot-use map's bitmap word `i`. -/
def mapWord (b : Bank) (i : Nat) : Nat :=
  (List.range 32).foldl (fun a k => if (depsOf b).any (fun e => e.offset == 32 * i + k) then a + 2 ^ k else a) 0

/-- What a field of LNK_MAP shows; 0 while no map is valid. -/
def State.ofMap (s : State) (f : Nat → Nat) : Nat :=
  match s.mapOwner with
  | some q => f q
  | none => 0

/-- The 8 bytes that SEQ_MEM_SEL and SEQ_MEM_ADDR select; all ones outside the space (R509). -/
def State.seqMemRead (s : State) : Nat :=
  let x := s.get .SEQ_MEM_SEL_CTX
  let a := 8 * s.get .SEQ_MEM_ADDR_ADDR
  let q := s.get .SEQ_CTX_BIND_PART x
  match s.get .SEQ_MEM_SEL_SPACE with
  | 0 => if a + 8 ≤ s.winSize x then ofLE (readBytes (s.ctx x).imem a 8) else 2 ^ 64 - 1
  | 1 => if a + 8 ≤ s.winSize x then ofLE (readBytes (s.ctx x).dmem a 8) else 2 ^ 64 - 1
  | 2 => if s.is .SEQ_CTX_BIND_BOUND x ∧ a + 8 ≤ s.shrSize q then ofLE (readBytes s.shr (s.shrBase q + a) 8) else 2 ^ 64 - 1
  | _ => 2 ^ 64 - 1

/-- The value of element `i` of a field: most lie in the register file, some show other state; a WO field reads 0. -/
def State.readField (s : State) (f : Fld) (i : Nat) : Nat :=
  match f with
  | .TIM_CAP_FIFO_TALLY => (s.tb.cap.headD {}).tally
  | .TIM_CAP_FIFO_FRACTION => (s.tb.cap.headD {}).frac
  | .TIM_CAP_FIFO_VALID => b2n (!s.tb.cap.isEmpty)
  | .LNK_MAP_INFO_OWNER => s.ofMap id
  | .LNK_MAP_INFO_USED => s.ofMap (fun _ => 1)
  | .LNK_MAP_INFO_FAR => s.ofMap s.mapFar
  | .LNK_MAP_INFO_PEAK => s.ofMap (fun q => peakOf (s.mapBank q))
  | .LNK_MAP_LEN_FLEN => s.ofMap (fun q => (s.mapBank q).flen)
  | .LNK_MAP_LEN_DEPS => s.ofMap (fun q => (depsOf (s.mapBank q)).length)
  | .LNK_MAP_DATA_BITMAP => s.ofMap (fun q => mapWord (s.mapBank q) i)
  | .LNK_P_STAT_OWNER => (s.portOwner i).getD 0
  | .LNK_P_STAT_OWNED => b2n (s.portOwner i).isSome
  | .LNK_CONF_STAT_HOPS => s.ownHops
  | .HRE_TAGS_INUSE => s.hre.dma.length
  | .HRE_TAGS_QUAR => s.hre.quar.length
  | .RING_ERR_LOCKED => b2n (s.locked .RING_CFG_ENABLE i)
  | .EVR_STAT_COUNT => s.evr.log.length
  | .EVR_STAT_HOLD => s.evr.hold.length
  | .SEQ_MEM_DATA_DATA => s.seqMemRead
  | f => if f.info.acc = .WO then 0 else s.get f i

/-- What a requester reads of a field (R271, R386, R617, R764, R768, R770). -/
def State.showField (s : State) (who : Nat) (f : Fld) (i : Nat) : Nat :=
  if s.sees who f i && s.live f i then s.readField f i % 2 ^ f.info.width else 0

/-- Offset of a field's quiet alias from its main place, 0 for none; the whole upper half of a panel window is quiet
(R15, R767). -/
def quietOff (f : Fld) : Nat := if f.info.blk = .PNL then 0x2000 else f.info.quiet

/-- The elements of a field shown by the 4-byte word at offset `o` of its block, at the main place or the quiet alias. -/
def shownElems (f : Fld) (o fn : Nat) : List (Nat × Nat) :=
  elems f o fn ++ (if quietOff f = 0 ∨ o < quietOff f then [] else elems f (o - quietOff f) fn)

/-- The part of element `i` in half `h` of its register. -/
def State.wordPart (s : State) (who : Nat) (f : Fld) (ih : Nat × Nat) : Nat :=
  (s.showField who f ih.1 <<< loOf f ih.1) >>> (32 * ih.2) % 2 ^ 32

/-- The register fields of the 4-byte word at BAR0 offset `off`. -/
def State.fieldWord (s : State) (who off : Nat) : Nat :=
  Fld.all.foldl (fun a f =>
    if off < blkBase f.info.blk then a
    else (shownElems f (off - blkBase f.info.blk) (fnOf who)).foldl (fun a ih => a + s.wordPart who f ih) a) 0

/-- Byte `a` of the recorder's window (R666): pages 0-15 the log, page 16 the stamp index, empty slots 0. -/
def State.evrByte (s : State) (a : Nat) : Byte :=
  let page := s.get .EVR_PAGE_PAGE
  if page < 16 then
    match s.evr.log.find? (fun e => e.1 == 1024 * page + a / 32) with
    | some e => (recBytes e.2).getD (a % 32) 0
    | none => 0
  else if page = 16 then (look [] s.evr.stamps (a / 512)).getD (a % 512) 0
  else 0

/-- Word `k` of a function's MSI-X table entry: address, address high, data, vector control (log entry 40). -/
def msixWord (m : Msix) (k : Nat) : Nat :=
  match k with
  | 0 => m.addr % 2 ^ 32
  | 1 => m.addr / 2 ^ 32 % 2 ^ 32
  | 2 => m.data % 2 ^ 32
  | _ => b2n m.masked

/-- The 4-byte word at BAR0 offset `off` in a requester's view, without side effect. -/
def State.word (s : State) (who off : Nat) : Nat :=
  if 0xB8000 ≤ off ∧ off < 0xC0000 then
    if privileged who then ofLE ((List.range 4).map (fun k => s.evrByte (off - 0xB8000 + k))) else 0
  else if 0x38000 ≤ off ∧ off < 0x38010 then
    if s.domOn 72 then msixWord (s.func (fnOf who)).msix ((off - 0x38000) / 4) else 0
  else if off = 0x39000 then (if s.domOn 72 then b2n (s.func (fnOf who)).msix.pending else 0)
  else s.fieldWord who off

/-- A read at the main offset of one element: an RC counter is cleared when the read covers its byte 0, and `evs` events of the
same cycle are counted after it (R13, R19, R761). -/
def State.clearElem (s : State) (who : Nat) (f : Fld) (ih : Nat × Nat) (evs : Nat) : State :=
  if f.info.acc = .RC ∧ ih.2 = loOf f ih.1 / 32 ∧ s.sees who f ih.1 ∧ s.live f ih.1 then (s.set f 0 ih.1).inc f ih.1 evs else s

/-- The side effects of a read of the 4-byte word at `off` (R13, R80, R761, R769). -/
def State.readEffect (s : State) (who off evs : Nat) : State :=
  let s := if off = addrOf .TIM_CAP_FIFO_TALLY && privileged who then { s with tb := { s.tb with cap := s.tb.cap.drop 1 } } else s
  Fld.all.foldl (fun s f =>
    if f.info.acc ≠ .RC ∨ off < blkBase f.info.blk then s
    else (elems f (off - blkBase f.info.blk) (fnOf who)).foldl (fun s ih => s.clearElem who f ih evs) s) s

/-- The value of `len` bytes at `off`, both halves from one slot (R760). -/
def State.readValue (s : State) (who off len : Nat) : Nat :=
  s.word who off + (if len = 8 then s.word who (off + 4) * 2 ^ 32 else 0)

/-- The side effects of a read of `len` bytes at `off`; each register acts on its own (R761). -/
def State.readEffects (s : State) (who off len evs : Nat) : State :=
  let s := s.readEffect who off (evs % 2 ^ 32)
  if len = 8 then s.readEffect who (off + 4) (evs / 2 ^ 32) else s

/-- A host access must be 4 or 8 bytes wide and naturally aligned (R760). -/
def badAccess (off len : Nat) : Bool := !((len == 4 || len == 8) && off % len == 0)

/-- A read of a bad size or alignment is answered with Unsupported Request; both kinds are counted (R760). -/
def State.refuseAccess (s : State) (write : Bool) (off len : Nat) : State :=
  let s := s.inc .PCX_UR_COUNT
  if write then s else s.emit (.unsupported off len)

/-- A read of BAR0 by a requester. -/
def State.readBar0 (s : State) (who off len evs : Nat) : State :=
  if badAccess off len then s.refuseAccess false off len
  else (s.readEffects who off len evs).emit (.readData who off len (s.readValue who off len))

/-- TIM_CAP_FIFO_POP (R80, R769): a read of TIM_CAP_FIFO at its side-effect offset. -/
def execTimCapFifoPop (who off len : Nat) (s : State) : Host.Outcome State Fault Refusal :=
  if off / 8 * 8 = addrOf .TIM_CAP_FIFO_TALLY then .next (s.readBar0 who off len 0) else .next s

/-- RC_COUNTER_READ (R13, R19, R760, R761): a read of BAR0 at `off`. `evs` counts the events of the same cycle, in its low
32 bits those of the counter at `off` and above them those of the counter at `off` + 4. -/
def execRcCounterRead (who off len evs : Nat) (s : State) : Host.Outcome State Fault Refusal :=
  .next (s.readBar0 who off len evs)

/-- BAR0_BAD_ACCESS (R760). -/
def execBar0BadAccess (write : Bool) (off len : Nat) (s : State) : Host.Outcome State Fault Refusal :=
  .next (if badAccess off len then s.refuseAccess write off len else s)

end Sys2Proof.Machine
end

