-- ==== Sys2Proof/Machine/Access.lean ====
section
/-! DEFINITION. Writing registers: one write of BAR0 does what the commands of the registers it covers do (R13-R15, R20, R21,
R386, R432, R690, R760, R761, R771-R773). -/
namespace Sys2Proof.Machine

/-! The debug path (R690, R691). -/

/-- A debug read of 8 bytes at a board address for partition `q`. Its READ carries the debug header, except a side-effect read
of another device (log entry 41). -/
def State.debugRead (s : State) (q ba : Nat) (side : Bool) (p : Purp) : Option State :=
  let a := ba % 2 ^ 52
  let far := a / 2 ^ 48 != s.coord % 16
  let h := if side && far then none else some (false, s.get .DBG_CTRL_SESSION)
  (s.request 19 q a none h p (.read (a % 2 ^ 48) 8)).map (fun s =>
    if side then s.raiseEv { code := 0xD008, part := some q, skind := 8, sindex := 19, detail := a } else s)

/-- A write of DBG_DACC_CTRL: GO starts a read unless one is in progress. -/
def State.daccWrite (s : State) (who v : Nat) : State :=
  let s := plainWrite who s (addrOf .DBG_DACC_CTRL_GO) v
  if privileged who && bit v 0 && s.live .DBG_DACC_CTRL_GO 0 && !s.is .DBG_DACC_CTRL_BUSY then
    let side := s.is .DBG_DACC_CTRL_SIDE
    match s.debugRead (s.get .DBG_DACC_CTRL_PART) (s.get .DBG_DACC_ADDR_ADDR) side (.dacc side) with
    | some s => s.set .DBG_DACC_CTRL_BUSY 1
    | none => s
  else s

/-- DEBUG_READ (R690, R691): a write of DBG_DACC_CTRL with GO 1. -/
def execDebugRead (who v : Nat) (s : State) : Host.Outcome State Fault Refusal := .next (s.daccWrite who v)

/-- Is a debug read of the TAP in progress? -/
def State.tapBusy (s : State) : Bool :=
  s.ctl.reqs.any (fun e => match e.2.purp with | .tap _ => true | _ => false)

/-- DBGACC (R748): the capture returns the last read's data and status and BUSY; the update starts a read unless one is in
progress. TEST_EN does not gate it. -/
def execDbgacc (v : Nat) (s : State) : Host.Outcome State Fault Refusal :=
  let busy := s.tapBusy
  let s := (s.tapIr 0x20).emit (.tdo (s.boot.tapData % 2 ^ 72 + b2n busy * 2 ^ 72))
  if busy ∨ s.boot.released = false then .next s
  else
    let side := bit v 59
    match s.debugRead (bits v 52 7) (bits v 0 52) side (.tap side) with
    | some s => .next s
    | none => .next s

/-! Writes. -/

/-- The element whose register has a 4-byte word at BAR0 offset `off`; a ring set shows the writer's own rings. -/
def idxAt (f : Fld) (off : Nat) : Option Nat :=
  let x := f.info
  let b := blkBase x.blk + x.base
  let n := if x.n1 = 129 then x.n2 else x.n1
  let st := if x.n1 = 129 then x.s2 else x.s1
  let d := off - b
  if off < b ∨ d % 4 ≠ 0 then none
  else if st = 0 then (if d < x.size then some 0 else none)
  else if d % st < x.size ∧ d / st < n then some (d / st) else none

/-- A write of TIM_CTRL (R48). -/
def State.timCtrlWrite (s : State) (who v : Nat) : State :=
  let s := (plainWrite who s (addrOf .TIM_CTRL_SET_ALL) v).holdLock
  if privileged who && bit v 3 then s.setAll else s

/-- A write of DBG_SNAP_CTRL (R700). -/
def State.snapWrite (s : State) (who v : Nat) : State :=
  let s := plainWrite who s (addrOf .DBG_SNAP_CTRL_GO) v
  if privileged who && bit v 0 && s.live .DBG_SNAP_CTRL_GO 0 then s.snapshot (s.get .DBG_SNAP_CTRL_PART) else s

/-- A write of RING_BASE or RING_DB of the writer's ring `r`, which `w` carries out: with R432 in force it is recorded and ignored. -/
def State.ringPlace (s : State) (who r : Nat) (w : State → State) : State :=
  let fn := fnOf who
  if s.locked .RING_CFG_ENABLE (16 * fn + r) then
    s.raiseEv { code := 0x6006, part := fnPart fn, skind := 6, sindex := fn, detail := r }
  else w s

/-- A 4-byte write of half a RING_BASE or RING_DB. -/
def State.ringPlaceWrite (s : State) (who off r v : Nat) : State := s.ringPlace who r (fun s => writeWord who s off v)

/-- The ring whose RING_BASE or RING_DB begins at BAR0 offset `off`. -/
def placeAt (off : Nat) : Option Nat :=
  if off % 8 = 0 then (idxAt .RING_BASE_ADDR off).or (idxAt .RING_DB_ADDR off) else none

/-- A write of a capture unit's SCOPE, BASE or WIDTH: ignored while EN is 1 (R635). -/
def State.cuPlaceWrite (s : State) (who off n v : Nat) : State :=
  if s.is .CU_CTRL_EN n then s else writeWord who s off v

/-- The registers whose 4-byte write has an effect of its own, by a field in each, with that effect on the element written. -/
def writeOps (who off v : Nat) : List (Fld × (State → Nat → State)) :=
  [(.TIM_CTRL_SET_ALL, fun s _ => s.timCtrlWrite who v),
   (.TIM_EVT_CTRL_ARM, fun s _ => s.evtCtrlWrite who v),
   (.TIM_SYNC_PARENT_PORT, fun s _ => (writeWord who s off v).holdLock),
   (.PWR_PACE_CTRL_TARGET, fun s d => s.paceWrite who d v),
   (.MEM_CTRL_SR_REQ, fun s _ => s.memCtrlWrite who v),
   (.MEM_QUOTA_QUOTA, fun s q => s.quotaWrite who q v),
   (.LNK_P_STAT_OPTICAL, fun s p => s.opticalWrite who p v),
   (.LNK_COORD_RACK, fun s _ => s.rackWrite who v),
   (.LNK_CONF_CTRL_RUN, fun s _ => (plainWrite who s off v).confCtrlWrite who v),
   (.RING_CFG_ENABLE, fun s r => s.ringCfgWrite who r v),
   (.RING_BASE_ADDR, fun s r => s.ringPlaceWrite who off r v),
   (.RING_DB_ADDR, fun s r => s.ringPlaceWrite who off r v),
   (.RING_KICK_KICK, fun s r => s.ringKick (fnOf who) r v),
   (.PWR_DOM_MODE_MODE, fun s w => s.domModeWrite who w v),
   (.PWR_SHELF_ENTER, fun s _ => s.shelfWrite who v),
   (.CU_CTRL_EN, fun s n => s.cuCtrlWrite who n v),
   (.CU_SCOPE_SCOPE, fun s n => s.cuPlaceWrite who off n v),
   (.CU_BASE_BASE, fun s n => s.cuPlaceWrite who off n v),
   (.CU_WIDTH_WIDTH, fun s n => s.cuPlaceWrite who off n v),
   (.EVR_FREEZE_FREEZE, fun s _ => s.evrFreezeWrite who v),
   (.EVR_CLR_ARM_QUOTE, fun s _ => s.clearArm who v),
   (.EVR_CLR_COMMIT_QUOTE, fun s _ => s.clearCommit who v),
   (.MBX_SETUP_COMMIT, fun s _ => s.setupWrite who v),
   (.MBX_PUSH_CTRL_GO, fun s _ => s.pushWrite who v),
   (.MBX_FAULT_FORCE, fun s _ => (plainWrite who s off v).faultPin),
   (.DBG_CTRL_OPEN, fun s _ => (plainWrite who s off v).powerUpdate),
   (.DBG_DACC_CTRL_GO, fun s _ => s.daccWrite who v),
   (.DBG_SNAP_CTRL_GO, fun s _ => s.snapWrite who v)]

/-- A write of word `k` of the writer's MSI-X table entry; clearing the mask sends a held message (R419, log entry 40). -/
def State.msixWrite (s : State) (who k v : Nat) : State :=
  let fn := fnOf who
  let f := s.func fn
  let m := f.msix
  if s.domOn 72 then
    match k with
    | 0 => s.setFunc fn { f with msix := { m with addr := m.addr / 2 ^ 32 * 2 ^ 32 + v } }
    | 1 => s.setFunc fn { f with msix := { m with addr := m.addr % 2 ^ 32 + v * 2 ^ 32 } }
    | 2 => s.setFunc fn { f with msix := { m with data := v } }
    | _ => if bit v 0 then s.setFunc fn { f with msix := { m with masked := true } } else s.unmask fn
  else s

/-- A 32-bit half of a 64-bit value replaced. -/
def withHalf (cur h v : Nat) : Nat := if h = 0 then cur / 2 ^ 32 * 2 ^ 32 + v else cur % 2 ^ 32 + v * 2 ^ 32

/-- A 4-byte write at BAR0 offset `off` by a requester. -/
def State.writeReg (s : State) (who off v : Nat) : State :=
  if 0x38000 ≤ off ∧ off < 0x38010 then s.msixWrite who ((off - 0x38000) / 4) v
  else if addrOf .PRT_GRAN_GRAN ≤ off ∧ off < addrOf .PRT_GRAN_GRAN + 128 * 64 ∧ (off - addrOf .PRT_GRAN_GRAN) % 64 < 0x30 then
    s.allotWrite who off v
  else if off / 8 * 8 = addrOf .TIM_EVT_AT_AT then
    if privileged who then s.evtAt (withHalf (s.get .TIM_EVT_AT_AT) (off / 4 % 2) v) else s
  else if off / 8 * 8 = addrOf .SEQ_MEM_DATA_DATA then
    if privileged who && s.live .SEQ_MEM_DATA_DATA 0 then s.seqMemWrite (withHalf s.seqMemRead (off / 4 % 2) v) else s
  else match (writeOps who off v).findSome? (fun h => (idxAt h.1 off).map (h.2 s)) with
    | some s => s
    | none => writeWord who s off v

/-- An 8-byte write at BAR0 offset `off`: a register of 8 bytes takes it whole, two registers of 4 bytes each their half
(R761, R772). -/
def State.writeReg8 (s : State) (who off v : Nat) : State :=
  if off = addrOf .TIM_EVT_AT_AT then (if privileged who then s.evtAt (v % 2 ^ 56) else s)
  else if off = addrOf .SEQ_MEM_DATA_DATA then
    if privileged who && s.live .SEQ_MEM_DATA_DATA 0 then s.seqMemWrite (v % 2 ^ 64) else s
  else match placeAt off with
    | some r => s.ringPlace who r (fun s => writeWord who (writeWord who s off (v % 2 ^ 32)) (off + 4) (v / 2 ^ 32 % 2 ^ 32))
    | none => (s.writeReg who off (v % 2 ^ 32)).writeReg who (off + 4) (v / 2 ^ 32 % 2 ^ 32)

/-- A write of BAR0 by a requester. -/
def State.writeBar0 (s : State) (who off len v : Nat) : State :=
  if badAccess off len then s.refuseAccess true off len
  else if len = 8 then s.writeReg8 who off v
  else s.writeReg who off (v % 2 ^ 32)

/-- One W1C element with the bits of register half `ih.2` that hardware sets in `evs`. -/
def setElem (s : State) (f : Fld) (ih : Nat × Nat) (evs : Nat) : State :=
  if f.info.acc = .W1C ∧ covers f ih.1 ih.2 then s.set f (s.get f ih.1 ||| (mergeWord f ih.1 0 ih.2 evs).2) ih.1 else s

/-- Hardware sets the W1C bits `evs` of the 4-byte word at BAR0 offset `off` in the requester's view. -/
def State.hwSet (s : State) (who off evs : Nat) : State :=
  Fld.all.foldl (fun s f =>
    if off < blkBase f.info.blk then s
    else (elems f (off - blkBase f.info.blk) (fnOf who)).foldl (fun s ih => setElem s f ih evs) s) s

/-- REGISTER_WRITE (R13, R14, R18, R20, R386, R760). `evs` are the W1C bits that hardware sets in the cycle of the write, the low 32
of the word at `off`, the rest of the word at `off` + 4: they stand at 1 after it (R18). What else their causes do belongs to the
commands of those causes. -/
def execRegisterWrite (who off len v evs : Nat) (s : State) : Host.Outcome State Fault Refusal :=
  let s := s.writeBar0 who off len v
  .next (if badAccess off len then s
    else
      let s := s.hwSet who off (evs % 2 ^ 32)
      if len = 8 then s.hwSet who (off + 4) (evs / 2 ^ 32) else s)

end Sys2Proof.Machine
end

