-- ==== Sys2Proof/Machine/Board.lean ====
section
/-! DEFINITION. READ and WRITE requests at the stop that owns their address: HBM, panel memory, the register image and the
ranges that lead nowhere (R310, R313, R316, R317, R322, R324-R326, R460, R488, R610, R617, R619, R622, R623, R691, R762). -/
namespace Sys2Proof.Machine

/-- What an access comes to: served; status 5; an error reply of the given status with an event 0x5006 of a source; an error
reply of a status the spec does not state. -/
inductive BoardRes where
  | ok | denied
  | memErr (status skind sindex : Nat)
  deriving DecidableEq, Repr

/-- The status of an error reply to which the spec gives none: 1 to 255 (log entry 42). -/
def State.freeStatus (s : State) : Nat := 1 + s.freeV % 255

/-- The partition an access is attributed to: none for a privileged one. -/
def attrib (pk : Packet) : Option Nat := if pk.priv then none else some pk.part

/-- First address of panel memory, and of the register image (R324). -/
def panelBase : Nat := 0x800000000000
def regBase : Nat := 0xC00000000000

/-- Checks of an access to HBM by stop `stop` (R322, R460, R610): `n` bytes at `a`. -/
def State.hbmCheck (s : State) (pk : Packet) (a n : Nat) : BoardRes :=
  let r := s.hbmRange pk.part
  if !pk.priv && !(decide (r.1 ≤ a) && decide (a + n ≤ r.1 + r.2)) then .denied
  else if hbmEnd < a + n then .memErr 7 10 (stackOf a)
  else match (stacksOf a n).find? s.inSr with
    | some d => .memErr s.freeStatus 10 d
    | none => .ok

/-- Management reads and writes the retention region while no image is loaded in the row (R623). -/
def State.retains (s : State) (pk : Packet) (w : Nat) : Bool :=
  pk.priv && pk.src == 17 && rowOf w == 0 && decide (colOf w < 8)
    && (List.range 17).all (fun c => (s.panel (136 * dieOf w + c)).gated)

/-- Checks of an access to `n` bytes at offset `o` of panel memory (R326, R460, R610): the window of the panel, or why not. -/
def State.panelCheck (s : State) (pk : Packet) (o n : Nat) (write : Bool) : BoardRes :=
  let l := o / 0x80000
  let w := s.winOfLog l
  let x := s.panel w
  if !pk.priv && !s.holdsGran pk.part (granOf l) then .denied
  else if 0x80000 < o % 0x80000 + n then .memErr 7 0 (idOf w)
  else if x.gated && !s.retains pk w then .memErr 7 0 (idOf w)
  else if write && !x.gated && decide (o % 0x80000 < 4096 * s.get .PNL_SL_CFG_SLR w) then .memErr 7 0 (idOf w)
  else .ok

/-- The requester whose register view a packet has (R663, R762). -/
def viewOf (pk : Packet) : Nat := if pk.priv then 129 else 1 + pk.part

/-- Is there a register at the 4-byte word `off` that the requester cannot see? A word without a register is no such
register. -/
def State.hidden (s : State) (who off : Nat) : Bool :=
  if (0xB8000 ≤ off ∧ off < 0xC0000) then !privileged who
  else
    let es := Fld.all.flatMap (fun f =>
      if off < blkBase f.info.blk then [] else (shownElems f (off - blkBase f.info.blk) (fnOf who)).map (fun ih => (f, ih.1)))
    !es.isEmpty && !es.any (fun e => s.sees who e.1 e.2)

/-- The 4-byte words of an access to the register image. -/
def wordsFrom (o n : Nat) : List Nat := (List.range (n / 4)).map (fun k => o + 4 * k)

/-- Checks of an access to `n` bytes at offset `o` of the register image (R326, R610, R762, R774). Only whole 4-byte words are
registers (log entry 43). -/
def State.regCheck (s : State) (pk : Packet) (o n : Nat) : BoardRes :=
  if 2 ^ 26 < o + n ∨ o % 4 ≠ 0 ∨ n % 4 ≠ 0 then .memErr 7 8 23
  else if !pk.priv && (wordsFrom o n).any (s.hidden (viewOf pk)) then .denied
  else .ok

/-- The checks of a READ or WRITE of `n` bytes at device-local address `a` that reaches `stop`. An address of another stop is
reserved there (log entry 18). -/
def State.boardCheck (s : State) (stop : Nat) (pk : Packet) (a n : Nat) (write : Bool) : BoardRes :=
  if ownerStop a ≠ stop then .memErr 7 8 stop
  else if a < hbmEnd then s.hbmCheck pk a n
  else if a < regBase then (if a < panelBase + 2 ^ 29 ∧ panelBase ≤ a then s.panelCheck pk (a - panelBase) n write else .memErr 7 8 stop)
  else s.regCheck pk (a - regBase) n

/-- A byte of a panel's memory as a control access sees it: what the retention region kept (R622, R724). -/
def Panel.heldByte (x : Panel) (w a : Nat) : Byte :=
  if x.lost then 0xFF
  else match x.undef with
    | some e => if look false x.known a then look 0 x.mem a else Config.lostByte e (0x80000 * w + a)
    | none => look 0 x.mem a

/-- Bytes written to a panel's memory by a control access. -/
def Panel.holdBytes (x : Panel) (a : Nat) (bs : List Byte) : Panel :=
  let y := x.pokeAll 0 (bs.zipIdx.map (fun b => (a + b.2, (b.1, false))))
  if x.undef.isSome then
    { y with known := (List.range bs.length).foldl (fun m j => put false m (a + j) true) y.known }
  else y

/-- A corrected error of panel memory met by a control read (R96, R585). -/
def State.panelCe (s : State) (w : Nat) : State :=
  match (s.panel w).part with
  | some q => s.pnlCe w q (s.curStep q) 1
  | none => s

/-- A control access spends the partition's HBM bytes in its counter set (DBG_C_HBM_OTHER). -/
def State.countOther (s : State) (a n : Nat) : State :=
  match s.hbmOwner a n with
  | some q => s.hbmOther q n
  | none => s

/-- A reply to a request that expects one. -/
def State.answer (s : State) (stop : Nat) (pk : Packet) (pl : Payload) : State := if pk.rxp then s.replyTo stop pk pl else s

/-- An access that is not served: dropped with status 5, or an event and an error reply (R322, R326, R610). -/
def State.refuseBoard (s : State) (stop : Nat) (pk : Packet) (a : Nat) (r : BoardRes) : State :=
  match r with
  | .ok => s
  | .denied => s.dropPk stop 5 pk
  | .memErr st k i =>
    (s.raiseEv { code := 0x5006, part := attrib pk, skind := k, sindex := i, detail := a % 2 ^ 48 }).answer stop pk (.error st)

/-- Does a READ act on registers without side effect: one that carries the debug header, unless it is this device's own
side-effect read (R15, R454, R691, log entry 41)? -/
def State.readsQuietly (s : State) (pk : Packet) : Bool :=
  pk.dbg.isSome && !(pk.src == 19 && pk.tunnel.isNone && match look? s.ctl.reqs (256 * 19 + pk.rtag) with
    | some r => r.purp == .dacc true || r.purp == .tap true
    | none => false)

/-- An uncorrectable word of panel memory met by a control read fences the panel; its fault stops the run the panel is in (R297). The
read belongs to no operation. Codes 0x2007 and 0x200A always carry a partition (R653): a panel that has none records nothing. -/
def State.panelUe (s : State) (w : Nat) : State :=
  let s := s.fence w
  match (s.panel w).part with
  | some q =>
    let f := pnlMsg w q 0x2007 (s.curStep q) 0xFFFF 0xFFFF
    s.pnlReport w (f, FaultMsg.detail f, true)
  | none => s

/-- A READ that its stop serves (R297, R313, R316, R317, R488). -/
def State.serveRead (s : State) (stop : Nat) (pk : Packet) (a n : Nat) (e : Ecc) : State :=
  if a < hbmEnd then
    let w := s.eccWord a n
    let ek := s.eccKind e w
    let bs := s.eccData e (s.hbmRead (eccAddr e a) n)
    let s := ((s.fresh.fresh.fresh.hbmEcc w (s.hbmOwner a n) ek).latencySample (stackOf a) (s.hbmOwner a n)).countOther a n
    if ek = .double then s.fresh.answer stop pk (.error s.freeStatus) else s.answer stop pk (.data bs)
  else if a < regBase then
    let ek := s.eccKind e
    let o := a - panelBase
    let w := s.winOfLog (o / 0x80000)
    let bs := s.eccData e ((List.range n).map (fun j => (s.panel w).heldByte w (o % 0x80000 + j)))
    let s := s.fresh.fresh
    if ek = .double then (s.fresh.panelUe w).answer stop pk (.error s.freeStatus)
    else (if ek = .single then s.panelCe w else s).answer stop pk (.data bs)
  else
    let ws := wordsFrom (a - regBase) n
    let bs := ws.flatMap (fun o => toLE 4 (s.word (viewOf pk) o))
    let s := if s.readsQuietly pk then s else ws.foldl (fun s o => s.readEffect (viewOf pk) o 0) s
    s.answer stop pk (.data bs)

/-- READ (R313, R316, R317, R322, R326, R460, R488, R610, R691, R762): the request at the head of what `stop` ejected. -/
def execRead (stop : Nat) (pk : Packet) (e : Ecc) (s : State) : Host.Outcome State Fault Refusal :=
  match pk.payload with
  | .read a n =>
    if a < hbmEnd ∧ s.boot.tripped then .next s else
    let s := s.takeEj stop false (fun p => p == pk)
    match s.boardCheck stop pk a n false with
    | .ok => .next (s.serveRead stop pk a n e)
    | r => .next (s.fresh.refuseBoard stop pk a r)
  | _ => .next s

/-- Register writes of a control packet: pairs of words on 8-byte places as one 8-byte write. -/
def State.writeImage (s : State) (who o : Nat) : List Byte → Nat → State
  | _, 0 => s
  | bs, k + 1 =>
    if bs.length < 4 then s
    else if o % 8 = 0 ∧ 8 ≤ bs.length then (s.writeReg8 who o (ofLE (bs.take 8))).writeImage who (o + 8) (bs.drop 8) k
    else (s.writeReg who o (ofLE (bs.take 4))).writeImage who (o + 4) (bs.drop 4) k

/-- A WRITE that its stop serves (R39, R313, R488, R576). -/
def State.serveWrite (s : State) (stop : Nat) (pk : Packet) (a : Nat) (bs : List Byte) : State :=
  let s :=
    if a < hbmEnd then (s.hbmStore a bs).countOther a bs.length
    else if a < regBase then
      let o := a - panelBase
      let w := s.winOfLog (o / 0x80000)
      s.setPanel w ((s.panel w).holdBytes (o % 0x80000) bs)
    else s.writeImage (viewOf pk) (a - regBase) bs bs.length
  s.answer stop pk .ack

/-- WRITE (R185, R313, R322, R326, R460, R488, R610, R762). -/
def execWrite (stop : Nat) (pk : Packet) (s : State) : Host.Outcome State Fault Refusal :=
  match pk.payload with
  | .write a bs =>
    if a < hbmEnd ∧ s.boot.tripped then .next s else
    let s := s.takeEj stop false (fun p => p == pk)
    match s.boardCheck stop pk a bs.length true with
    | .ok => .next (s.serveWrite stop pk a bs)
    | r => .next (s.fresh.refuseBoard stop pk a r)
  | _ => .next s

end Sys2Proof.Machine
end

