-- ==== Sys2Proof/Machine/Dispatch.lean ====
section
/-! DEFINITION. The dispatch: one arm per command. -/
namespace Sys2Proof.Machine

def exec (i : Instr) (s : State) : Host.Outcome State Fault Refusal :=
  match i with
  | .trefLost => Sys2Proof.Machine.execTrefLost s
  | .trefReturn => Sys2Proof.Machine.execTrefReturn s
  | .setAll who v => Sys2Proof.Machine.execSetAll who v s
  | .tallySet port value frac => Sys2Proof.Machine.execTallySet port value frac s
  | .syncExchange => Sys2Proof.Machine.execSyncExchange s
  | .syncMarkArrive port t2 => Sys2Proof.Machine.execSyncMarkArrive port t2 s
  | .syncReply port => Sys2Proof.Machine.execSyncReply port s
  | .syncReplyArrive t4 => Sys2Proof.Machine.execSyncReplyArrive t4 s
  | .syncValues t1 t2 t3 => Sys2Proof.Machine.execSyncValues t1 t2 t3 s
  | .launch fn => Sys2Proof.Machine.execLaunch fn s
  | .arm m => Sys2Proof.Machine.execArm m s
  | .armed m => Sys2Proof.Machine.execArmed m s
  | .refuse m => Sys2Proof.Machine.execRefuse m s
  | .commit m => Sys2Proof.Machine.execCommit m s
  | .abort m => Sys2Proof.Machine.execAbort m s
  | .launchNotCommitted q => Sys2Proof.Machine.execLaunchNotCommitted q s
  | .launchSlot q => Sys2Proof.Machine.execLaunchSlot q s
  | .timEvtArm who v => Sys2Proof.Machine.execTimEvtArm who v s
  | .timEvtAtWrite who v => Sys2Proof.Machine.execTimEvtAtWrite who v s
  | .tallyEvtPulse => Sys2Proof.Machine.execTallyEvtPulse s
  | .tallyEvtEnd => Sys2Proof.Machine.execTallyEvtEnd s
  | .tallyCapEdge rising frac => Sys2Proof.Machine.execTallyCapEdge rising frac s
  | .timCapFifoPop who off len => Sys2Proof.Machine.execTimCapFifoPop who off len s
  | .rcCounterRead who off len evs => Sys2Proof.Machine.execRcCounterRead who off len evs s
  | .registerWrite who off len v evs => Sys2Proof.Machine.execRegisterWrite who off len v evs s
  | .bar0BadAccess write off len => Sys2Proof.Machine.execBar0BadAccess write off len s
  | .paceTargetWrite who d v => Sys2Proof.Machine.execPaceTargetWrite who d v s
  | .stepWindowStart p => Sys2Proof.Machine.execStepWindowStart p s
  | .stepDeadline p => Sys2Proof.Machine.execStepDeadline p s
  | .issueRecord p rec => Sys2Proof.Machine.execIssueRecord p rec s
  | .tile p f => Sys2Proof.Machine.execTile p f s
  | .lload p f => Sys2Proof.Machine.execLload p f s
  | .lstore p f => Sys2Proof.Machine.execLstore p f s
  | .pcheck p f => Sys2Proof.Machine.execPcheck p f s
  | .vec p f => Sys2Proof.Machine.execVec p f s
  | .move p f => Sys2Proof.Machine.execMove p f s
  | .send p f => Sys2Proof.Machine.execSend p f s
  | .recv p f => Sys2Proof.Machine.execRecv p f s
  | .foldTree p f => Sys2Proof.Machine.execFoldTree p f s
  | .foldLift p f => Sys2Proof.Machine.execFoldLift p f s
  | .foldExact p f => Sys2Proof.Machine.execFoldExact p f s
  | .foldRound p f => Sys2Proof.Machine.execFoldRound p f s
  | .rfill p f => Sys2Proof.Machine.execRfill p f s
  | .waitSlot p f => Sys2Proof.Machine.execWaitSlot p f s
  | .waitRecv p f => Sys2Proof.Machine.execWaitRecv p f s
  | .waitComplete p => Sys2Proof.Machine.execWaitComplete p s
  | .rest p f => Sys2Proof.Machine.execRest p f s
  | .restResume p => Sys2Proof.Machine.execRestResume p s
  | .pmark p f => Sys2Proof.Machine.execPmark p f s
  | .endList p f => Sys2Proof.Machine.execEndList p f s
  | .slotEntryFire node q k e => Sys2Proof.Machine.execSlotEntryFire node q k e s
  | .tuftArrive node inp t => Sys2Proof.Machine.execTuftArrive node inp t s
  | .memoryNodeEntry d q k e => Sys2Proof.Machine.execMemoryNodeEntry d q k e s
  | .memReadIssue d q k => Sys2Proof.Machine.execMemReadIssue d q k s
  | .banksw stop q b bank => Sys2Proof.Machine.execBanksw stop q b bank s
  | .bankSwitch q => Sys2Proof.Machine.execBankSwitch q s
  | .cellSlot port => Sys2Proof.Machine.execCellSlot port s
  | .replaySlot port => Sys2Proof.Machine.execReplaySlot port s
  | .maintenanceSlot port => Sys2Proof.Machine.execMaintenanceSlot port s
  | .cellReceive port c => Sys2Proof.Machine.execCellReceive port c s
  | .maintenanceBlockReceive port b => Sys2Proof.Machine.execMaintenanceBlockReceive port b s
  | .replayAbandon port lsn => Sys2Proof.Machine.execReplayAbandon port lsn s
  | .portDown port => Sys2Proof.Machine.execPortDown port s
  | .portRetrain port => Sys2Proof.Machine.execPortRetrain port s
  | .stitchFrame t group east fr => Sys2Proof.Machine.execStitchFrame t group east fr s
  | .stitchControlRetransmit t => Sys2Proof.Machine.execStitchControlRetransmit t s
  | .stitchClockLoss t group => Sys2Proof.Machine.execStitchClockLoss t group s
  | .scrubRead stack e => Sys2Proof.Machine.execScrubRead stack e s
  | .hbmRefresh stack => Sys2Proof.Machine.execHbmRefresh stack s
  | .selfRefreshRequest who v => Sys2Proof.Machine.execSelfRefreshRequest who v s
  | .quotaWrite who q v => Sys2Proof.Machine.execQuotaWrite who q v s
  | .bar2Read off len e => Sys2Proof.Machine.execBar2Read off len e s
  | .bar2Write off data => Sys2Proof.Machine.execBar2Write off data s
  | .opticalWrite who port v => Sys2Proof.Machine.execOpticalWrite who port v s
  | .rackWrite who v => Sys2Proof.Machine.execRackWrite who v s
  | .conformateurRun who v => Sys2Proof.Machine.execConformateurRun who v s
  | .probe port m t2 => Sys2Proof.Machine.execProbe port m t2 s
  | .probeReplySend port => Sys2Proof.Machine.execProbeReplySend port s
  | .probeReply port m t4 => Sys2Proof.Machine.execProbeReply port m t4 s
  | .probeTimeout port => Sys2Proof.Machine.execProbeTimeout port s
  | .conformateurDone => Sys2Proof.Machine.execConformateurDone s
  | .hopAdvertSend => Sys2Proof.Machine.execHopAdvertSend s
  | .hopAdvertReceive port m => Sys2Proof.Machine.execHopAdvertReceive port m s
  | .conflictClear => Sys2Proof.Machine.execConflictClear s
  | .tset who v => Sys2Proof.Machine.execTset who v s
  | .ringEnable who r v => Sys2Proof.Machine.execRingEnable who r v s
  | .ringKick who r v => Sys2Proof.Machine.execRingKick who r v s
  | .backgroundPoll => Sys2Proof.Machine.execBackgroundPoll s
  | .doorbellRead tag data => Sys2Proof.Machine.execDoorbellRead tag data s
  | .submissionMalformed fn => Sys2Proof.Machine.execSubmissionMalformed fn s
  | .nop fn => Sys2Proof.Machine.execNop fn s
  | .load fn img => Sys2Proof.Machine.execLoad fn img s
  | .loadApply q => Sys2Proof.Machine.execLoadApply q s
  | .unload fn => Sys2Proof.Machine.execUnload fn s
  | .stop fn => Sys2Proof.Machine.execStop fn s
  | .watch fn => Sys2Proof.Machine.execWatch fn s
  | .haltCommand fn => Sys2Proof.Machine.execHaltCommand fn s
  | .resume fn => Sys2Proof.Machine.execResume fn s
  | .intakePoint q k => Sys2Proof.Machine.execIntakePoint q k s
  | .intakeConsume q k => Sys2Proof.Machine.execIntakeConsume q k s
  | .intakeDeadline q k => Sys2Proof.Machine.execIntakeDeadline q k s
  | .egressFrameWrite fn r => Sys2Proof.Machine.execEgressFrameWrite fn r s
  | .egressWaitExpire fn r => Sys2Proof.Machine.execEgressWaitExpire fn r s
  | .gapDescriptor fn r => Sys2Proof.Machine.execGapDescriptor fn r s
  | .completionWrite fn => Sys2Proof.Machine.execCompletionWrite fn s
  | .backlogDrain fn => Sys2Proof.Machine.execBacklogDrain fn s
  | .msixUnmask fn => Sys2Proof.Machine.execMsixUnmask fn s
  | .dmaTimeout tag => Sys2Proof.Machine.execDmaTimeout tag s
  | .dmaCompletion tag c data => Sys2Proof.Machine.execDmaCompletion tag c data s
  | .tagQuarantineEnd tag => Sys2Proof.Machine.execTagQuarantineEnd tag s
  | .flrVf f => Sys2Proof.Machine.execFlrVf f s
  | .flrPf => Sys2Proof.Machine.execFlrPf s
  | .ringEntry reply stop => Sys2Proof.Machine.execRingEntry reply stop s
  | .ringHop reply stop urgent => Sys2Proof.Machine.execRingHop reply stop urgent s
  | .packetEject reply stop urgent => Sys2Proof.Machine.execPacketEject reply stop urgent s
  | .recirculationLimit stop => Sys2Proof.Machine.execRecirculationLimit stop s
  | .gatewayIngress stop crossed data => Sys2Proof.Machine.execGatewayIngress stop crossed data s
  | .requestTimeout stop rtag => Sys2Proof.Machine.execRequestTimeout stop rtag s
  | .rtagRelease stop rtag => Sys2Proof.Machine.execRtagRelease stop rtag s
  | .portControlFrame port frs => Sys2Proof.Machine.execPortControlFrame port frs s
  | .portControlResend port => Sys2Proof.Machine.execPortControlResend port s
  | .issuePacket die pk => Sys2Proof.Machine.execIssuePacket die pk s
  | .read stop pk e => Sys2Proof.Machine.execRead stop pk e s
  | .write stop pk => Sys2Proof.Machine.execWrite stop pk s
  | .data stop pk => Sys2Proof.Machine.execData stop pk s
  | .ack stop pk => Sys2Proof.Machine.execAck stop pk s
  | .error stop pk => Sys2Proof.Machine.execError stop pk s
  | .faultPacket m => Sys2Proof.Machine.execFaultPacket m s
  | .stopnote m => Sys2Proof.Machine.execStopnote m s
  | .memberHalt q => Sys2Proof.Machine.execMemberHalt q s
  | .faultCompletion q => Sys2Proof.Machine.execFaultCompletion q s
  | .event e => Sys2Proof.Machine.execEvent e s
  | .add x e => Sys2Proof.Machine.execAdd x e s
  | .sub x e => Sys2Proof.Machine.execSub x e s
  | .and x e => Sys2Proof.Machine.execAnd x e s
  | .or x e => Sys2Proof.Machine.execOr x e s
  | .xor x e => Sys2Proof.Machine.execXor x e s
  | .sll x e => Sys2Proof.Machine.execSll x e s
  | .srl x e => Sys2Proof.Machine.execSrl x e s
  | .sra x e => Sys2Proof.Machine.execSra x e s
  | .slt x e => Sys2Proof.Machine.execSlt x e s
  | .sltu x e => Sys2Proof.Machine.execSltu x e s
  | .mul x e => Sys2Proof.Machine.execMul x e s
  | .addi x e => Sys2Proof.Machine.execAddi x e s
  | .andi x e => Sys2Proof.Machine.execAndi x e s
  | .ori x e => Sys2Proof.Machine.execOri x e s
  | .slli x e => Sys2Proof.Machine.execSlli x e s
  | .srli x e => Sys2Proof.Machine.execSrli x e s
  | .srai x e => Sys2Proof.Machine.execSrai x e s
  | .lih x e => Sys2Proof.Machine.execLih x e s
  | .beq x e => Sys2Proof.Machine.execBeq x e s
  | .bne x e => Sys2Proof.Machine.execBne x e s
  | .blt x e => Sys2Proof.Machine.execBlt x e s
  | .bge x e => Sys2Proof.Machine.execBge x e s
  | .bltu x e => Sys2Proof.Machine.execBltu x e s
  | .bgeu x e => Sys2Proof.Machine.execBgeu x e s
  | .jal x e => Sys2Proof.Machine.execJal x e s
  | .jalr x e => Sys2Proof.Machine.execJalr x e s
  | .ld x e => Sys2Proof.Machine.execLd x e s
  | .st x e => Sys2Proof.Machine.execSt x e s
  | .lds x e => Sys2Proof.Machine.execLds x e s
  | .sts x e => Sys2Proof.Machine.execSts x e s
  | .lkl x e => Sys2Proof.Machine.execLkl x e s
  | .lks x e => Sys2Proof.Machine.execLks x e s
  | .ldr x e => Sys2Proof.Machine.execLdr x e s
  | .str x e => Sys2Proof.Machine.execStr x e s
  | .waitt x e => Sys2Proof.Machine.execWaitt x e s
  | .waittComplete x => Sys2Proof.Machine.execWaittComplete x s
  | .rdt x e => Sys2Proof.Machine.execRdt x e s
  | .issue x e => Sys2Proof.Machine.execIssue x e s
  | .switch x e => Sys2Proof.Machine.execSwitch x e s
  | .sema x e => Sys2Proof.Machine.execSema x e s
  | .semr x e => Sys2Proof.Machine.execSemr x e s
  | .intake x e => Sys2Proof.Machine.execIntake x e s
  | .egress x e => Sys2Proof.Machine.execEgress x e s
  | .egressStaged x => Sys2Proof.Machine.execEgressStaged x s
  | .cmark x e => Sys2Proof.Machine.execCmark x e s
  | .halt x e => Sys2Proof.Machine.execHalt x e s
  | .illegalInstruction x e => Sys2Proof.Machine.execIllegalInstruction x e s
  | .seqMemDataWrite who v => Sys2Proof.Machine.execSeqMemDataWrite who v s
  | .checkpointWrite q => Sys2Proof.Machine.execCheckpointWrite q s
  | .checkpointCommit q => Sys2Proof.Machine.execCheckpointCommit q s
  | .finishBoundary q => Sys2Proof.Machine.execFinishBoundary q s
  | .finishReport m => Sys2Proof.Machine.execFinishReport m s
  | .stampForm q => Sys2Proof.Machine.execStampForm q s
  | .stamp q bytes => Sys2Proof.Machine.execStamp q bytes s
  | .finishReportMissing q => Sys2Proof.Machine.execFinishReportMissing q s
  | .allotmentWrite who off v => Sys2Proof.Machine.execAllotmentWrite who off v s
  | .shrWrite who q v => Sys2Proof.Machine.execShrWrite who q v s
  | .domainModeWrite who w v => Sys2Proof.Machine.execDomainModeWrite who w v s
  | .domainOn dom => Sys2Proof.Machine.execDomainOn dom s
  | .shelfEnter who v => Sys2Proof.Machine.execShelfEnter who v s
  | .shelfEntryDone => Sys2Proof.Machine.execShelfEntryDone s
  | .shelfWake src => Sys2Proof.Machine.execShelfWake src s
  | .shelfWakeDone => Sys2Proof.Machine.execShelfWakeDone s
  | .monitorRefresh r => Sys2Proof.Machine.execMonitorRefresh r s
  | .captureDrain n => Sys2Proof.Machine.execCaptureDrain n s
  | .cuEnable who n v => Sys2Proof.Machine.execCuEnable who n v s
  | .cuSnap who n v => Sys2Proof.Machine.execCuSnap who n v s
  | .evrFreeze who v => Sys2Proof.Machine.execEvrFreeze who v s
  | .evrUnfreeze who v => Sys2Proof.Machine.execEvrUnfreeze who v s
  | .freezeLimit => Sys2Proof.Machine.execFreezeLimit s
  | .clearArm who quote => Sys2Proof.Machine.execClearArm who quote s
  | .clearCommit who quote => Sys2Proof.Machine.execClearCommit who quote s
  | .clearArmLapse => Sys2Proof.Machine.execClearArmLapse s
  | .haltNotice m => Sys2Proof.Machine.execHaltNotice m s
  | .debugHaltReached q => Sys2Proof.Machine.execDebugHaltReached q s
  | .resumeArm m => Sys2Proof.Machine.execResumeArm m s
  | .resumeArmed m => Sys2Proof.Machine.execResumeArmed m s
  | .resumeRefuse m => Sys2Proof.Machine.execResumeRefuse m s
  | .resumeCommit m => Sys2Proof.Machine.execResumeCommit m s
  | .resumeAbort m => Sys2Proof.Machine.execResumeAbort m s
  | .resumeNotCommitted q => Sys2Proof.Machine.execResumeNotCommitted q s
  | .resumeSlot q => Sys2Proof.Machine.execResumeSlot q s
  | .watchDrain q p w => Sys2Proof.Machine.execWatchDrain q p w s
  | .obsBucketRefill q => Sys2Proof.Machine.execObsBucketRefill q s
  | .debugRead who v => Sys2Proof.Machine.execDebugRead who v s
  | .counterSnapshot who v => Sys2Proof.Machine.execCounterSnapshot who v s
  | .coldReset => Sys2Proof.Machine.execColdReset s
  | .systemReset pwrOk => Sys2Proof.Machine.execSystemReset pwrOk s
  | .pcieReset => Sys2Proof.Machine.execPcieReset s
  | .bootRom => Sys2Proof.Machine.execBootRom s
  | .firmware copyA copyB => Sys2Proof.Machine.execFirmware copyA copyB s
  | .fuseAndStrapChecks fuseOk => Sys2Proof.Machine.execFuseAndStrapChecks fuseOk s
  | .hbmTraining trained => Sys2Proof.Machine.execHbmTraining trained s
  | .stitchTraining failed => Sys2Proof.Machine.execStitchTraining failed s
  | .portTraining trained => Sys2Proof.Machine.execPortTraining trained s
  | .setupCommit who v => Sys2Proof.Machine.execSetupCommit who v s
  | .pushGo who v => Sys2Proof.Machine.execPushGo who v s
  | .pushVerifyDone ok => Sys2Proof.Machine.execPushVerifyDone ok s
  | .bootStatus => Sys2Proof.Machine.execBootStatus s
  | .fwBlock data => Sys2Proof.Machine.execFwBlock data s
  | .fwDone units => Sys2Proof.Machine.execFwDone units s
  | .shelf code => Sys2Proof.Machine.execShelf code s
  | .coord => Sys2Proof.Machine.execCoord s
  | .fault => Sys2Proof.Machine.execFault s
  | .smbusPecReject code => Sys2Proof.Machine.execSmbusPecReject code s
  | .avsWrite rail mv tries => Sys2Proof.Machine.execAvsWrite rail mv tries s
  | .thermalTrip die => Sys2Proof.Machine.execThermalTrip die s
  | .extest => Sys2Proof.Machine.execExtest s
  | .samplePreload v => Sys2Proof.Machine.execSamplePreload v s
  | .idcode => Sys2Proof.Machine.execIdcode s
  | .highz => Sys2Proof.Machine.execHighz s
  | .clamp => Sys2Proof.Machine.execClamp s
  | .extestPulse => Sys2Proof.Machine.execExtestPulse s
  | .extestTrain => Sys2Proof.Machine.execExtestTrain s
  | .diesel v => Sys2Proof.Machine.execDiesel v s
  | .stitchtest v errs => Sys2Proof.Machine.execStitchtest v errs s
  | .porttest v errs => Sys2Proof.Machine.execPorttest v errs s
  | .dbgacc v => Sys2Proof.Machine.execDbgacc v s
  | .bypass code => Sys2Proof.Machine.execBypass code s
  | .resetRelease st => Sys2Proof.Machine.execResetRelease st s
  | .perstRelease => Sys2Proof.Machine.execPerstRelease s
  | .powerDown => Sys2Proof.Machine.execPowerDown s
  | .pcieLinkDown => Sys2Proof.Machine.execPcieLinkDown s
  | .pcieLinkUp rate width flit => Sys2Proof.Machine.execPcieLinkUp rate width flit s
  | .alignmentSlot port => Sys2Proof.Machine.execAlignmentSlot port s
  | .functionLevelResetDone f => Sys2Proof.Machine.execFunctionLevelResetDone f s
  | .vfEnable f on => Sys2Proof.Machine.execVfEnable f on s

end Sys2Proof.Machine
end

