-- ==== Sys2Proof/Machine/Step.lean ====
section
/-! DEFINITION. One step: the command at the front of the queue, or one slot of time. -/
namespace Sys2Proof.Machine

/-- The queue without its front. -/
def State.withPending (s : State) (l : List Instr) : State := { s with pending := l }

/-- The command at the front is executed with the queue's rest; on an empty queue one slot passes (log entry 2). -/
def step (s : State) : Host.Outcome State Fault Refusal :=
  match s.pending with
  | c :: rest => exec c (s.withPending rest)
  | [] => .next s.passSlot

/-- `s` with command `c` at the front of its queue. -/
def State.front (s : State) (c : Instr) : State := s.withPending (c :: s.pending)

/-- `s` with the command that the word spells at the front of its queue; unchanged where it spells none. -/
def State.withFetchWord (s : State) (nbits w : Nat) : State :=
  match decodeTableWord nbits w with
  | some c => s.front c
  | none => s

end Sys2Proof.Machine
end

