-- ==== Sys2Proof/Safety.lean ====
section
/-! DEFINITION. The terms that statements use: what an update leaves unchanged, and the invariant that every step keeps. -/
namespace Sys2Proof.Machine

/-- The parts of the state beside the registers: whole parts, and one partition, panel, node, port, context, stitch or capture
unit of them. `mem` is HBM and the shared store. -/
inductive Comp where
  | tb | evr | ctl | hre | parts | panels | nodes | ports | ctxs | mem | stitch | caps | boot | out | free
  | part (q : Nat) | panel (w : Nat) | node (n : Nat) | port (p : Nat) | ctx (x : Nat) | stitchOf (t : Nat) | cap (n : Nat)
  deriving DecidableEq, Repr

/-- The whole part that a part belongs to. -/
def Comp.group (c : Comp) : Comp :=
  match c with
  | .part _ => .parts
  | .panel _ => .panels
  | .node _ => .nodes
  | .port _ => .ports
  | .ctx _ => .ctxs
  | .stitchOf _ => .stitch
  | .cap _ => .caps
  | c => c

/-- A part of the state is the same; memory is the same at every address, byte by byte and poison bit by poison bit. An indexed
part is the same when each of its elements is. -/
def Comp.same (c : Comp) (s t : State) : Prop :=
  match c with
  | .tb => t.tb = s.tb
  | .evr => t.evr = s.evr
  | .ctl => t.ctl = s.ctl
  | .hre => t.hre = s.hre
  | .part q => look? t.parts q = look? s.parts q
  | .panel w => look? t.panels w = look? s.panels w
  | .node n => look? t.nodes n = look? s.nodes n
  | .port p => look? t.ports p = look? s.ports p
  | .ctx x => look? t.ctxs x = look? s.ctxs x
  | .stitchOf n => look? t.stitch n = look? s.stitch n
  | .cap n => look? t.caps n = look? s.caps n
  | .mem => (∀ a, look 0 t.hbm.bytes a = look 0 s.hbm.bytes a) ∧ (∀ w, look false t.hbm.poison w = look false s.hbm.poison w)
      ∧ (∀ a, look 0 t.shr a = look 0 s.shr a) ∧ t.hbm.scrub = s.hbm.scrub ∧ t.hbm.refr = s.hbm.refr
      ∧ t.hbm.recent = s.hbm.recent
  | .boot => t.boot = s.boot
  | .out => t.out = s.out
  | .free => t.free = s.free
  | _ => True

/-- The frame of a command: every register outside the fields `l` and the elements `m`, every part outside `k` and the queue are
unchanged. -/
def OnlyAt (l : List Fld) (m : List (Fld × Nat)) (k : List Comp) (s t : State) : Prop :=
  (∀ f i, f ∉ l → (f, i) ∉ m → t.get f i = s.get f i) ∧ (∀ c, c ∉ k → c.group ∉ k → c.same s t) ∧ t.pending = s.pending

/-- The frame where whole fields change. -/
def OnlyChanges (l : List Fld) (k : List Comp) (s t : State) : Prop := OnlyAt l [] k s t

/-- The registers and parts in which events and the records of event rings leave their mark (R652-R661). -/
def evFlds : List Fld :=
  [.EVR_NEXT_SLOT, .EVR_WRITTEN_COUNT, .EVR_OVF_COUNT, .EVR_DROP_COUNT, .EVR_FRZ_CNT_COUNT, .RING_STAT_DIDX]
def evComps : List Comp := [.evr, .hre, .out]

/-- The registers and parts that a trace record, with the events of lost ones, changes. -/
def traceFlds : List Fld :=
  [.DBG_TRC_PROD_INDEX, .DBG_TRC_DROP_COUNT, .DBG_C_OBS_BYTES, .EVR_NEXT_SLOT, .EVR_WRITTEN_COUNT, .EVR_OVF_COUNT,
    .EVR_DROP_COUNT, .EVR_FRZ_CNT_COUNT, .RING_STAT_DIDX]

/-- The trace record `bs` of partition `q`: written at the producer index while the area has room and the bucket bytes, else counted as lost
(R692, R693). Records lost before it are another case. -/
def Traced (s t : State) (q : Nat) (bs : List Byte) : Prop :=
  let n := s.get .DBG_TRC_SIZE_TSIZE q
  let i := s.get .DBG_TRC_PROD_INDEX q
  let room := n - 1 - (i + 2 ^ 32 - s.get .DBG_TRC_CONS_INDEX q) % 2 ^ 32
  n ≠ 0 → (s.part q).traceLost = 0 →
  (0 < room → 32 ≤ (s.part q).obwTok → s.boot.tripped = false →
      (∀ a, look 0 t.hbm.bytes a = look 0 (writeBytes s.hbm.bytes ((s.image q).img.traceBase + 32 * (i % n)) bs) a)
        ∧ t.get .DBG_TRC_PROD_INDEX q = (i + 1) % 2 ^ 32 ∧ (t.part q).obwTok = (s.part q).obwTok - 32)
    ∧ ((room = 0 ∨ (s.part q).obwTok < 32) → t.get .DBG_TRC_DROP_COUNT q = satAdd 32 (s.get .DBG_TRC_DROP_COUNT q) 1
        ∧ (t.part q).traceLost = 1 ∧ (∀ a, look 0 t.hbm.bytes a = look 0 s.hbm.bytes a))

/-- The registers and parts that domains turning off change: their ports go down. -/
def powerFlds : List Fld :=
  [.PWR_DOM_STAT_ON, .PWR_DOM_NEED_NEED, .LNK_P_STAT_UP, .LNK_P_CONF_STATE, .EVR_NEXT_SLOT, .EVR_WRITTEN_COUNT, .EVR_OVF_COUNT,
    .EVR_DROP_COUNT, .EVR_FRZ_CNT_COUNT, .RING_STAT_DIDX]
def powerComps : List Comp := [.ports, .ctl, .evr, .hre, .out]

/-- The event `e` has reached stop 17: it stands in the log, counts in a record it folded into, or is held, kept out or counted as
discarded while the log is frozen or full. -/
def Raised (e : Ev) (s t : State) : Prop :=
  s.is .EVR_FREEZE_FREEZE = false → s.evr.log.length < 16384 → s.getBit .EVR_MODE_FOLD (e.code / 4096) = false → evFolds e.code = false →
  ∃ x ∈ t.evr.log, x.2.code = e.code ∧ x.2.part = e.part ∧ x.2.skind = e.skind ∧ x.2.sindex = e.sindex ∧ x.2.detail = e.detail
    ∧ x.2.tally = s.tally ∧ x.2.sev = evSev e.code

/-- The events `l` of one command have all reached stop 17, as `Raised` says of one. -/
def RaisedAll (l : List Ev) (s t : State) : Prop :=
  ∀ e ∈ l, s.is .EVR_FREEZE_FREEZE = false → s.evr.log.length + l.length < 16384 → s.getBit .EVR_MODE_FOLD (e.code / 4096) = false →
  evFolds e.code = false →
  ∃ x ∈ t.evr.log, x.2.code = e.code ∧ x.2.part = e.part ∧ x.2.skind = e.skind ∧ x.2.sindex = e.sindex ∧ x.2.detail = e.detail
    ∧ x.2.tally = s.tally ∧ x.2.sev = evSev e.code

/-- The event `e`, of a code that may fold, has reached stop 17: the log holds a record of its code and source, its own or one that it
folded into. -/
def Noted (e : Ev) (s t : State) : Prop :=
  s.is .EVR_FREEZE_FREEZE = false → s.evr.log.length < 16384 →
  ∃ x ∈ t.evr.log, x.2.code = e.code ∧ x.2.part = e.part ∧ x.2.skind = e.skind ∧ x.2.sindex = e.sindex

/-! What commands send and report. -/

/-- The packets `l` join those waiting to enter the request or reply ring at `stop`; no other waiting packet, buffer, request or
tag of the control rings changes. -/
def Sent (stop : Nat) (reply : Bool) (l : List Packet) (s t : State) : Prop :=
  (∀ k, look [] t.ctl.wait k = if k = 2 * stop + b2n reply then look [] s.ctl.wait k ++ l else look [] s.ctl.wait k)
    ∧ t.ctl.bufs = s.ctl.bufs ∧ t.ctl.reqs = s.ctl.reqs ∧ t.ctl.retired = s.ctl.retired

/-- The faults `l` go to stop 18, each from its source's stop and in order; nothing else of the rings' waiting packets, buffers and
requests changes. -/
def SentFaults (l : List FaultMsg) (s t : State) : Prop :=
  (∀ k, look [] t.ctl.wait k = look [] s.ctl.wait k
      ++ (l.filter (fun f => 2 * faultStopOf f == k)).map (fun f => localPk (faultStopOf f) 18 f.part (.fault f)))
    ∧ t.ctl.bufs = s.ctl.bufs ∧ t.ctl.reqs = s.ctl.reqs ∧ t.ctl.retired = s.ctl.retired

/-- The first packet that `f` picks leaves the ejection queue of `stop`; the other ejection queues are unchanged. -/
def Took (stop : Nat) (reply : Bool) (f : Packet → Bool) (s t : State) : Prop :=
  ∀ k, look [] t.ctl.ejq k = if k = 2 * stop + b2n reply then (look [] s.ctl.ejq k).eraseP f else look [] s.ctl.ejq k

/-- A completion record formed now is among those function `fn` has to write. -/
def Formed (fn : Nat) (c : Cplr) (s t : State) : Prop := { c with formed := s.tally } ∈ (t.func fn).cq

/-- A submission command of function `fn` is done: the descriptors `r` stay in the fetched queue and its record with `status` is
formed, unless PERST_N is low. -/
def DoneWith (fn : Nat) (d : Sub) (r : List (List Byte)) (status : Nat) (s t : State) : Prop :=
  (t.ring fn 0).fetched = r
    ∧ (s.boot.perst = false → Formed fn { kind := 1, irq := d.irq, status := status, tag := d.tag,
                                          detail := toLE 1 d.q ++ toLE 1 d.op } s t)

/-- Of the ring engine only the fetched queue of ring 0 of function `fn` and that function's records change. -/
def SubFrame (fn : Nat) (s t : State) : Prop :=
  (∀ k, k ≠ 16 * fn → look? t.hre.rings k = look? s.hre.rings k) ∧ (∀ k, k ≠ fn → look? t.hre.funcs k = look? s.hre.funcs k)
    ∧ t.ring fn 0 = { s.ring fn 0 with fetched := (t.ring fn 0).fetched } ∧ t.func fn = { s.func fn with cq := (t.func fn).cq }
    ∧ { t.hre with rings := s.hre.rings, funcs := s.hre.funcs } = s.hre

/-- Every domain shows whether it is needed, and one that is on and no longer wanted has turned off. -/
def DomainsFollow (s t : State) : Prop :=
  ∀ d < domains, t.getBit .PWR_DOM_NEED_NEED (d % 32) (d / 32) = t.needs d ∧ t.domOn d = (s.domOn d && t.wantOn d)

/-- What the checks of a LOAD leave: with a refusal the partition as it was and a load refused record, which names the check that failed;
else the image that waits for its domains, with the LOAD that brought it. `s1` is the state in which they run, `p1` and `p2` the two
readings of the image's bytes. -/
def Judged (s1 t : State) (fn : Nat) (d : Sub) (p1 p2 : List Byte) (img : BlockImage) : Prop :=
  match s1.loadCheck d.q (d.argN 21 1) (d.argN 22 1) (d.argN 16 4) p1 p2 img with
  | .inl e => t.part d.q = s1.part d.q
      ∧ (s1.boot.perst = false → Formed fn
          { kind := 2, irq := d.irq, status := 5, tag := d.tag,
            detail := toLE 1 d.q ++ toLE 1 0 ++ toLE 2 e.panel ++ toLE 2 e.dir ++ toLE 2 e.word ++ toLE 1 e.code ++ toLE 1 e.reason
              ++ toLE 1 e.port } s1 t)
      ∧ (∀ x, e.reason = 13 → s1.runSt d.q = 3 → (s1.image d.q).img.slices.head? = some x →
          Raised { code := 0x3004, part := some d.q, skind := nodeKind x.node, sindex := nodeIndex (s1.nodeKey x.node) } s1 t)
      ∧ (¬ (e.reason = 13 ∧ s1.runSt d.q = 3) → SubFrame fn s1 t ∧ OnlyChanges [] [.hre] s1 t) ∧ OnlyChanges evFlds evComps s1 t
  | .inr m => t.part d.q =
        { s1.part d.q with
          loading := some m, loadBy := fn, loadTag := d.tag, loadIrq := d.irq, plan := (s1.ctxPlan m.img).getD [] }
      ∧ t.get .PWR_DOM_ERR_OVERRIDDEN = (if s1.overrides d.q m then 1 else s1.get .PWR_DOM_ERR_OVERRIDDEN) ∧ DomainsFollow s1 t
      ∧ OnlyChanges (powerFlds ++ ([.PWR_DOM_ERR_OVERRIDDEN] : List Fld)) (powerComps ++ ([.part d.q] : List Comp)) s1 t

/-- A host read of `len` bytes at `a` for purpose `p` is outstanding under a tag of its own, its request put out, or waits for a tag. -/
def Reading (p : DmaPurp) (a len : Nat) (s t : State) : Prop :=
  (∃ g, look? s.hre.dma g = none ∧ look? s.hre.quar g = none
      ∧ look? t.hre.dma g = some { purp := p, addr := a, len := len, due := s.tick + s.dmaTo, limit := s.dmaTo } ∧ .hostRead g a len ∈ t.out)
    ∨ (p, a, len) ∈ t.hre.dmaWait

/-- Bytes `bs` stand at address `a`, every other byte as before. -/
def Stored (m m' : SMap Byte) (a : Nat) (bs : List Byte) : Prop :=
  ∀ b, look 0 m' b = if a ≤ b ∧ b < a + bs.length then bs.getD (b - a) 0 else look 0 m b

/-- The reply to `pk` from `stop`: to its sender, over the port it crossed if it did, with its tag and debug header (R459). -/
def ReplyOf (s : State) (stop : Nat) (pk : Packet) (pl : Payload) : Packet :=
  { s.pkTo stop pk.src pk.part (match pk.tunnel with
      | some (c, _) => c
      | none => s.coord) pl with rtag := pk.rtag, dbg := pk.dbg }

/-- The replies to `pk`: none to a request that expects none or whose sender is no stop. -/
def Replies (s : State) (stop : Nat) (pk : Packet) (pl : Payload) : List Packet :=
  if pk.rxp = true ∧ pk.src < 24 then [ReplyOf s stop pk pl] else []

/-- The counters and the register of the last drop. -/
def dropFlds : List Fld := [.CTN_OVERDEPTH_COUNT, .CTN_BADLEN_COUNT, .CTN_BADCHAIN_COUNT, .CTN_UNREACH_COUNT, .CTN_DENIED_COUNT,
  .CTN_BUSYDROP_COUNT, .CTN_LAST_DROP_REASON, .CTN_LAST_DROP_STOP, .CTN_LAST_DROP_KIND, .CTN_LAST_DROP_SRC]

/-- A packet of kind `kind` from `src` is dropped at `stop` with a status: counted, and named in CTN_LAST_DROP (R459). -/
def Dropped (s t : State) (stop status kind src : Nat) : Prop :=
  t.get (dropFld status) = satAdd 32 (s.get (dropFld status)) 1 ∧ t.get .CTN_LAST_DROP_REASON = status % 256
    ∧ t.get .CTN_LAST_DROP_STOP = stop % 256 ∧ t.get .CTN_LAST_DROP_KIND = kind % 256 ∧ t.get .CTN_LAST_DROP_SRC = src % 256

/-- A control packet in range: what the headers (R453) and the payload of its kind can carry. -/
def plOk (own : Nat) (p : Packet) : Prop :=
  let sc := match p.tunnel with
    | some (c, _) => c
    | none => own
  match p.payload with
  | .issue r d rw c => r < 2 ^ 128 ∧ d < 256 ∧ rw < 256 ∧ c < 2 ^ 16
  | .banksw b k => b < 2 ^ 32 ∧ k < 2
  | .read a n => a < 2 ^ 48 ∧ 1 ≤ n ∧ n ≤ 1024
  | .write a d => a < 2 ^ 48 ∧ 1 ≤ d.length ∧ d.length ≤ 1024
  | .fault m => m.part = p.part ∧ m.code < 2 ^ 16 ∧ m.panel < 2048 ∧ (∃ n, m.step = some n ∧ n < 2 ^ 32) ∧ m.layer < 2 ^ 16
      ∧ m.oper < 2 ^ 16 ∧ m.srck < 16 ∧ m.node < 256
  | .stopnote m => m.part = p.part ∧ m.stopStep < 2 ^ 32 ∧ m.boundary < 2 ^ 56 ∧ m.srck < 256 ∧ m.fcoord < 4096 ∧ m.panel < 2 ^ 16
      ∧ m.code < 2 ^ 16 ∧ m.layer < 2 ^ 16 ∧ m.oper < 2 ^ 16 ∧ m.launch < 2 ^ 56
  | .launch k m => k < 6 ∧ m.part = p.part ∧ m.src = sc ∧ m.dil < 8 ∧ m.refuse < 256 ∧ m.dclass < 256 ∧ m.l < 2 ^ 56 ∧ m.seed < 2 ^ 64
      ∧ m.ckpt < 2 ^ 64 ∧ m.image < 2 ^ 256 ∧ m.ref < 2 ^ 64
  | .halt k m => k < 256 ∧ m.part = p.part ∧ m.src = sc ∧ m.cause < 8 ∧ m.refuse < 256 ∧ m.hstep < 2 ^ 32 ∧ m.r < 2 ^ 56
      ∧ m.launch < 2 ^ 56 ∧ m.tcoord < 4096
  | .event e => e.code < 2 ^ 16 ∧ e.skind < 16 ∧ e.sindex < 4096 ∧ (∀ q, e.part = some q → q < 128) ∧ e.detail < 2 ^ 64
  | .data b => 8 * pkHeaders p + b.length = pkLen p ∧ pkLen p ≤ 2048
  | .ack => True
  | .error st => st < 256
  | _ => False

/-- A packet whose every field is in range, so that its bytes carry it whole. -/
def pkOk (own : Nat) (p : Packet) : Prop :=
  p.dst < 24 ∧ p.src < 256 ∧ p.rtag < 256 ∧ p.part < 128 ∧ p.circuits = 0 ∧ (p.remote = false → p.dcoord = 0 ∧ p.tunnel = none)
    ∧ (p.remote = true → p.dcoord < 4096 ∧ ∃ c n, p.tunnel = some (c, n) ∧ c < 4096 ∧ n < 16)
    ∧ (∀ x, p.ctx = some x → x < 128) ∧ (∀ b x, p.dbg = some (b, x) → x < 2 ^ 16) ∧ plOk own p

/-- A packet whose bytes `bs` fail a check at `stop` with status `st` is dropped whole: counted and named, as KIND 0 of source 0xFF where the
first header is no route header; answered where that header asks for it and the return path is known (R459, R472). -/
def DropsBytes (s t : State) (stop st : Nat) (crossed : Bool) (bs : List Byte) : Prop :=
  let hs := (walk bs 0 4).filterMap id
  let r := hs.getD 0 0
  let tun := hs.find? (fun h => h % 16 == 4)
  let q := if hs.getD 1 0 % 16 = 2 then bits (hs.getD 1 0) 5 7 else 0
  Dropped s t stop st (if r % 16 = 1 then bits r 8 8 else 0) (if r % 16 = 1 then bits r 24 8 else 0xFF) ∧ t.ctl.ejq = s.ctl.ejq
    ∧ Sent stop true (if r % 16 = 1 ∧ bit r 5 = true ∧ (crossed = false ∨ tun.isSome) ∧ bits r 24 8 < 24 then
        [ReplyOf s stop { src := bits r 24 8, rtag := bits r 56 8, part := q,
                          tunnel := if crossed then tun.map (fun h => (bits h 16 12, 0)) else none } (.error st)] else []) s t

/-- No packet for another device stands in the ejection queues of the port gateways. -/
def NoneLeaves (s : State) : Prop := ∀ stop, stop = 20 ∨ stop = 21 → ∀ reply, ∀ p ∈ s.ejected stop reply, s.leaves p = false

/-- Of the packets that wait to enter the rings and stand in their buffers only those of `ws` and `bs` change (their keys); ejection queues,
requests and tags are as before. -/
def RingsElse (s t : State) (ws bs : List Nat) : Prop :=
  (∀ k, k ∉ ws → look [] t.ctl.wait k = look [] s.ctl.wait k) ∧ (∀ k, k ∉ bs → look [] t.ctl.bufs k = look [] s.ctl.bufs k)
    ∧ t.ctl.reqs = s.ctl.reqs ∧ t.ctl.retired = s.ctl.retired

/-- Every context of the quad at `stop` whose issue queue holds entries has packets to send for the first. -/
def QuadHeads (s : State) (stop : Nat) : Prop :=
  ∀ i < 16, ∀ b, (s.ctx (16 * (stop - 8) + i)).queue.head? = some b → s.issuePackets (16 * (stop - 8) + i) b ≠ []

/-- When of the packets at `stop` only `rest` wait to enter, the quad there, if there is one, sends none of what its contexts have queued. -/
def QuadStill (s : State) (stop : Nat) (rest : List Packet) : Prop :=
  stop < 8 ∨ 16 ≤ stop ∨ (QuadHeads s stop ∧ (rest ≠ [] ∨ ∀ i < 16, (s.ctx (16 * (stop - 8) + i)).queue = []))

/-! Functions. -/

/-- The ring sets of function `fn` are reset and disabled; frames that wait keep their place. Its records and its backlog are gone, its LOAD
and its reads at an end; nothing of another function changes (R416, R439, R444). -/
def FuncReset (s t : State) (fn : Nat) : Prop :=
  (∀ g ∈ ringSet, ∀ r < 16, t.get g (16 * fn + r) = g.info.reset)
    ∧ (∀ r < 16, t.ring fn r = { fseq := (s.ring fn r).fseq, frames := (s.ring fn r).frames, gap := (s.ring fn r).gap,
                                 part := (s.ring fn r).part })
    ∧ (∀ k, k / 16 ≠ fn → look? t.hre.rings k = look? s.hre.rings k)
    ∧ t.func fn = { s.func fn with cq := [], backlog := [], lost := 0, flr := false }
    ∧ (∀ k, k ≠ fn → look? t.hre.funcs k = look? s.hre.funcs k)
    ∧ (∀ k, look? t.hre.loads k = if k = fn then none else look? s.hre.loads k)
    ∧ (∀ g, look? t.hre.dma g = (look? s.hre.dma g).map (fun d => if s.readFor fn d.purp then { d with purp := .void } else d))
    ∧ t.hre.dmaWait = s.hre.dmaWait.filter (fun e => !s.readFor fn e.1)
    ∧ { t.hre with rings := s.hre.rings, funcs := s.hre.funcs, loads := s.hre.loads, dma := s.hre.dma, dmaWait := s.hre.dmaWait } = s.hre

/-- The partitions of `qs` in run state 3 stop with the cause "function reset": event 0x9003 and a FAULT packet for each (R439, R725). -/
def ResetStops (s t : State) (qs : List Nat) : Prop :=
  let l := qs.filter (fun q => s.runSt q == 3)
  RaisedAll (l.map (fun q => { code := 0x9003, part := some q, skind := 6, detail := s.curStep q })) s t
    ∧ SentFaults (l.map (fun q => { part := q, code := 0x9003, step := some (s.curStep q), srck := 6 })) s t ∧ t.ctl.ejq = s.ctl.ejq

/-- What a reset of its function marks in partition `q`: armed, committed or running it will stop; armed, a PCIe reset makes it miss its
commit (R757). -/
def resetMarks (s : State) (q : Nat) (pcie : Bool) : Part :=
  { s.part q with
    flrStop := (s.part q).flrStop || s.busy q, missCommit := (s.part q).missCommit || (pcie && decide (s.runSt q = 1)) }

/-! The end of a run. -/

/-- The fault of the ring engine on partition `q`: its event with `detail` and its packet to stop 18. -/
def EngineFault (s t : State) (q fn code step detail : Nat) : Prop :=
  Raised { code := code, part := some q, skind := 6, sindex := fn, detail := detail } s t
    ∧ Sent 16 false [localPk 16 18 q (.fault { part := q, code := code, step := some step, srck := 6, node := fn })] s t

/-- Member `q` takes part in stopping its run: it runs, or it has halted at a fault stop and no stamp was written. -/
def Stops (s : State) (q : Nat) : Prop := (s.runSt q = 3 ∨ (s.runSt q = 4 ∧ (s.part q).haltedAt ≠ none)) ∧ (s.part q).stamped = false

/-- The debug HALT commands that wait in partition `q`. -/
def haltCmds (s : State) (q : Nat) : List (Nat × Nat × Bool) := ((s.part q).halt.map (·.cmds)).getD []

/-- The waiting commands complete with status 5, lapsed: `op` is 7 for a HALT, 8 for a RESUME. -/
def CmdsLapse (s t : State) (q op : Nat) : Prop :=
  s.boot.perst = false → ∀ c ∈ haltCmds s q,
    Formed c.1 { kind := 1, irq := c.2.2, status := 5, tag := c.2.1, detail := toLE 1 q ++ toLE 1 op } s t

/-- A member keeps the stop note `n` and forwards it on every port its image uses; a debug halt not yet reached is discarded. -/
def StopLearned (s t : State) (q : Nat) (n : StopNote) : Prop :=
  Sent 18 false ((s.image q).img.ports.map (fun p => s.pkTo 18 18 q ((s.image q).coordOf p.far) (.stopnote n))) s t
    ∧ (s.get .DBG_HALT_STATE q ≠ 1 →
        t.part q = { s.part q with stop := some n, faulted := false } ∧ OnlyChanges [] [.part q, .ctl] s t)
    ∧ (s.get .DBG_HALT_STATE q = 1 →
        t.part q = { s.part q with stop := some n, faulted := false, halt := none } ∧ t.get .DBG_HALT_STATE q = 0 ∧ CmdsLapse s t q 7
          ∧ OnlyAt [] [(.DBG_HALT_STATE, q)] [.part q, .ctl, .hre] s t)

/-- Every context bound to partition `q` stops where it is: waits, replies, queued packets and reservations are gone, and so are the
partition's semaphores; the other contexts go on. -/
def CtxsStopped (s t : State) (q : Nat) : Prop :=
  (∀ x ∈ s.ctxsOf q, t.ctx x = { s.ctx x with queue := [], reply := none, haltPend := false, egr := none, resv := none })
    ∧ (∀ x, x ∉ s.ctxsOf q → t.ctx x = s.ctx x) ∧ t.get .SEQ_SEM_HELD q = 0

/-- The panels of partition `q` hold no binding; the others are as before. -/
def BindingsGone (s t : State) (q : Nat) : Prop :=
  (∀ w, (s.panel w).part = some q → t.panel w = { s.panel w with sbind := [], rbind := [] } ∧ t.get .PNL_SL_SBIND_SEND w = 0
      ∧ t.get .PNL_SL_RBIND_RECV w = 0)
    ∧ ∀ w, (∀ x, (w, x) ∈ s.panels → x.part ≠ some q) → look? t.panels w = look? s.panels w
        ∧ t.get .PNL_SL_SBIND_SEND w = s.get .PNL_SL_SBIND_SEND w ∧ t.get .PNL_SL_RBIND_RECV w = s.get .PNL_SL_RBIND_RECV w

/-- A die on which nothing runs any more takes its TARGET. -/
def Repaced (s t : State) : Prop :=
  ∀ d < 8, t.get .PWR_PACE_CTRL_APPLIED d =
    if t.dieRuns d then s.get .PWR_PACE_CTRL_APPLIED d else min 288 (max 64 (s.get .PWR_PACE_CTRL_TARGET d))

/-- The registers that a member leaves changed when it stops, beside those of its partition. -/
def stopFlds : List Fld := [.PNL_SL_SBIND_SEND, .PNL_SL_RBIND_RECV, .PWR_PACE_CTRL_APPLIED]

/-- Member `q` halts at its current slot. -/
def MemberHalted (s t : State) (q : Nat) : Prop :=
  let k : List (Fld × Nat) := [(.TIM_LAUNCH_STATE_STATE, q), (.DBG_HALT_STATE, q), (.SEQ_SEM_HELD, q)]
  t.runSt q = 4 ∧ t.get .DBG_HALT_STATE q = 0
    ∧ t.part q = { s.part q with haltedAt := some (s.curSlot q), halt := none, semWait := [], semOwner := [] }
    ∧ CtxsStopped s t q ∧ BindingsGone s t q ∧ Repaced s t ∧ (s.get .DBG_HALT_STATE q = 1 → CmdsLapse s t q 7)
    ∧ (2 ≤ s.get .DBG_HALT_STATE q → CmdsLapse s t q 8)
    ∧ (s.get .DBG_HALT_STATE q = 0 → OnlyAt stopFlds k [.part q, .ctxs, .panels] s t)
    ∧ OnlyAt stopFlds k [.part q, .ctxs, .panels, .hre] s t

/-- The WRITE packets that carry `bs` to address `a` of the device at `coord`, one for each 256-byte unit (R304, R541). -/
def mirrorPks (s : State) (q coord a : Nat) : Nat → List Byte → List Packet
  | 0, _ => []
  | n + 1, bs => if bs.isEmpty then []
      else s.pkTo 22 (ownerStop a) q coord (.write a (bs.take (256 - a % 256)))
        :: mirrorPks s q coord (a + (256 - a % 256)) n (bs.drop (256 - a % 256))

/-- What the device sends to the mirror that the image of `q` declares, for `bs` at offset `off` of the record. -/
def mirrored (s : State) (q off : Nat) (bs : List Byte) : List Packet :=
  match (s.image q).img.mirror with
  | some m => mirrorPks s q ((s.image q).coordOf m.1) (m.2 + off) (bs.length + 1) bs
  | none => []

/-- No stop step of `k` or lower is held. -/
def Lower (s : State) (q k : Nat) : Prop := ∀ h, (s.part q).stop = some h → k < h.stopStep

/-- The stamp `bytes` stands in the stamp index, its event is recorded, its completion record formed, and the partition is stopped
with no binding left. -/
def StampStands (s t : State) (q : Nat) (bytes : List Byte) : Prop :=
  let slot := s.get .EVR_STAMP_NEXT_SLOT
  t.runSt q = 4 ∧ t.part q = { s.part q with stamped := true, reports := [] } ∧ look? t.evr.stamps slot = some bytes
    ∧ (∀ k, k ≠ slot → look? t.evr.stamps k = look? s.evr.stamps k) ∧ t.get .EVR_STAMP_NEXT_SLOT = (slot + 1) % 2 ^ 6
    ∧ Raised { code := 0x9004, part := some q, detail := slot + s.slotTally q (s.boundary q (s.image q).steps) % 2 ^ 56 * 256 } s t
    ∧ (s.boot.perst = false → Formed (s.home q) { kind := 6, irq := true, detail := toLE 1 q, cont := bytes } s t)
    ∧ BindingsGone s t q ∧ Repaced s t
    ∧ OnlyAt (evFlds ++ (.EVR_STAMP_NEXT_SLOT :: stopFlds)) [(.TIM_LAUNCH_STATE_STATE, q)] ([.part q, .ctl, .panels] ++ evComps) s t

/-! DMA reads. -/

/-- Command `i` ends the outstanding read `d` of `tag` without data: a completion with an error or poison, or the timeout. -/
def ReadFails (i : Instr) (s : State) (tag : Nat) (d : Dma) : Prop :=
  look? s.hre.dma tag = some d ∧ ((∃ c data, c ≠ .ok ∧ i = .dmaCompletion tag c data) ∨ (i = .dmaTimeout tag ∧ d.due ≤ s.tick))

/-- The registers and parts that the end of a read without data leaves its mark in, whatever it was for. -/
def failFlds : List Fld := evFlds ++ [.PCX_EP_RX_COUNT, .HRE_TO_CNT_COUNT]

/-- The state without the read of `tag`. -/
def untagged (s : State) (tag : Nat) : State := { s with hre := { s.hre with dma := del s.hre.dma tag } }

/-- Descriptors that ring `x` of function `fn` fetches next, of `n` in the ring: those posted, up to the room `room`, the end of the ring and
the largest read. -/
def fetchCount (s : State) (x : Ring) (n room : Nat) : Nat :=
  min (min ((x.hidx + 2 ^ 32 - x.fidx) % 2 ^ 32) (room - x.fetched.length))
    (min (n - x.fidx % n) ((s.readMax - 64 * (x.fidx % n) % s.readMax) / 64))

/-- Ring `r` of function `fn`, which holds `x`, fetches what its host has posted and it has room for, unless PAUSE is 1 or a fetch is on the
way. -/
def Fetches (s t : State) (fn r : Nat) (x : Ring) : Prop :=
  let c := fetchCount s x (s.ringN fn r) (if r = 0 then (if s.cmdBusy fn then 16 else 17) else 256)
  (x.pause = false → x.infl = 0 → 0 < c →
      t.ring fn r = { x with fidx := (x.fidx + c) % 2 ^ 32, infl := c }
        ∧ Reading (if r = 0 then .sub fn x.fidx c else .bufs fn r x.fidx c) (s.descAddr fn r x.fidx) (64 * c) s t)
    ∧ ((x.pause = true ∨ x.infl ≠ 0 ∨ c = 0) → t.ring fn r = x ∧ t.hre.dma = s.hre.dma)

/-- Record `c` is written to the completion ring of `fn`: its continuation descriptors first, then the record itself with the phase of its
lap and the held-interrupt bit, the interrupt unless it is masked, and the shadow; its latency is a sample of source 6 (R411, R417-R419, R631). -/
def RecordOut (s t : State) (fn : Nat) (c : Cplr) : Prop :=
  let i := s.get .RING_STAT_DIDX (16 * fn + 1)
  let f := s.func fn
  t.out = s.out
      ++ (List.range (c.size - 1)).map (fun j => .hostWrite fn (s.descAddr fn 1 (i + 1 + j)) ((c.cont.drop (64 * j)).take 64))
      ++ [.hostWrite fn (s.descAddr fn 1 i) (c.bytes (1 - i / s.ringN fn 1 % 2) (c.irq && f.msix.masked) s.tally)]
      ++ (if c.irq && !f.msix.masked then [.msix fn f.msix.addr f.msix.data] else [])
      ++ [.hostWrite fn (s.dbAddr fn 1 + 8) (t.shadowBytes fn 1)]
    ∧ t.get .RING_STAT_DIDX (16 * fn + 1) = (i + c.size) % 2 ^ 32 ∧ t.ring fn 1 = s.ring fn 1
    ∧ ∀ m x, m < 16 → s.takes m 6 (fun _ => true) (some ((c.detail.headD 0).toNat % 128)) = true → s.cap m = x → x.queue.length < 2048 →
        (t.cap m).queue = x.queue ++ [min (cmp32 s.tally c.formed).toNat (2 ^ 32 - 1)]

/-! Intake points. -/

/-- Intake point `k` of partition `q` is faulted with `code`: its event and its packet to stop 18 name the point, its ring and the step whose
window holds its slot. -/
def IntakeFaulted (s t : State) (q k code : Nat) (p : ImgIntake) : Prop :=
  t.part q = { s.part q with intakes := ins (s.part q).intakes k .faulted }
    ∧ SentFaults [{ part := q, code := code, step := some (s.stepOf q p.slot), srck := 6, node := s.home q }] s t
    ∧ Raised { code := code, part := some q, skind := 6, sindex := s.home q, detail := k % 256 + p.ring % 256 * 256 } s t

/-- A mismatch with the reference: counted, and when it is the run's first it is kept, recorded and reported, and stops the run where the
device is set to (R573, R574). -/
def Diverged (s t : State) (q k j dseq ref cause cstep entry : Nat) (p : ImgIntake) : Prop :=
  t.get .CHK_DIVCNT_COUNT q = satAdd 32 (s.get .CHK_DIVCNT_COUNT q) 1
    ∧ (bit (s.get .CHK_RUN_FLAGS q) 3 = false →
        bit (t.get .CHK_RUN_FLAGS q) 3 = true ∧ (t.part q).firstDiv = cstep ∧ t.get .CHK_DIV_ENTRY q = entry % 2 ^ 32
          ∧ t.get .CHK_DIV_CAUSE q = cause
          ∧ Raised { code := 0xA001, part := some q, skind := 6, sindex := s.home q, detail := entry + cause * 2 ^ 32 } s t
          ∧ (s.boot.perst = false → Formed (s.home q)
              { kind := 8, irq := true,
                detail := toLE 1 q ++ toLE 1 k ++ toLE 1 p.ring ++ toLE 1 j ++ toLE 4 dseq ++ toLE 4 ref ++ toLE 1 cause ++ toLE 3 0
                  ++ toLE 7 cstep ++ toLE 1 0 ++ toLE 4 entry ++ toLE 4 (s.stepOf q p.slot) } s t)
          ∧ SentFaults (if s.is .CHK_CTRL_DIV_STOP then
              [{ part := q, code := 0xA001, step := some (s.stepOf q p.slot), srck := 6, node := s.home q }] else []) s t)
    ∧ (bit (s.get .CHK_RUN_FLAGS q) 3 = true →
        t.get .CHK_RUN_FLAGS q = s.get .CHK_RUN_FLAGS q ∧ (t.part q).firstDiv = (s.part q).firstDiv
          ∧ t.get .CHK_DIV_ENTRY q = s.get .CHK_DIV_ENTRY q ∧ t.get .CHK_DIV_CAUSE q = s.get .CHK_DIV_CAUSE q)

/-- The reads of point `k` are all in, in time and in a run that goes on, and the points that took descriptors before it have consumed
them: its work can be decided. -/
def IntakeReady (s : State) (q k : Nat) (p : ImgIntake) : Prop :=
  s.point q k = some p ∧ s.intakeSt q k = .reading ∧ (s.inRead q k).left = 0 ∧ s.runSt q = 3 ∧ (s.part q).haltedAt = none
    ∧ ((s.inRead q k).takes = 0 ∨ s.get .RING_STAT_DIDX (16 * (s.part q).ringFn + ringOf p) = (s.inRead q k).base)
    ∧ cmp32 s.tally (s.slotTally q (p.slot + p.w)) ≤ 0

/-- A context that waits for intake point `k` goes on with `n` in its register. -/
def Woken (s t : State) (q k n : Nat) : Prop :=
  ∀ x ∈ s.ctxsOf q, s.ctxRuns x = true → s.get .SEQ_CTX_STATE_STATE x = 5 → (s.ctx x).waitArg = k →
    t.get .SEQ_CTX_STATE_STATE x = 2 ∧ t.pcOf x = (s.pcOf x + 4) % 2 ^ 64
      ∧ ∀ j, t.g x j = if j = (s.ctx x).waitReg ∧ j ≠ 0 then BitVec.ofNat 64 n else s.g x j

/-! Boot and observation. -/

/-- FAULT_N is low while the device is out of reset and one of its conditions holds (R737). -/
def FaultShown (t : State) : Prop :=
  t.boot.faultLow = (t.boot.released && (t.get .MBX_BOOT_ERR != 0 || t.is .MBX_FAULT_TRIP || t.is .MBX_FAULT_OVERTEMP
    || t.is .MBX_FAULT_AVS || t.is .MBX_FAULT_FORCE))

/-- A change of FAULT_N is put out, and FAULT_IN shows the level; without one both stay. -/
def FaultPut (s t : State) : Prop :=
  (t.boot.faultLow ≠ s.boot.faultLow → .pin "FAULT_N" (!t.boot.faultLow) ∈ t.out ∧ t.get .MBX_BOOT_FAULT_IN = b2n t.boot.faultLow)
    ∧ (t.boot.faultLow = s.boot.faultLow → t.get .MBX_BOOT_FAULT_IN = s.get .MBX_BOOT_FAULT_IN)

/-- The set points of a rail on the way from `cur` to `mv`, each at most 50 mV from the one before (R716). -/
def RailSteps (mv cur : Nat) : List Nat → Prop
  | [] => cur = mv
  | x :: l => cur ≠ mv ∧ x = (if cur < mv then min mv (cur + 50) else max mv (cur - 50)) ∧ RailSteps mv x l

/-- The bin of a sample `v` of capture unit `n` (R632): powers of two above the base, or bins of the width. -/
def binAt (s : State) (n v : Nat) : Nat :=
  let b := max 1 (s.get .CU_BASE_BASE n)
  if v < b then 0
  else if s.is .CU_CTRL_MODE n then min 15 (Nat.log2 (v / b) + 1) else min 15 ((v - b) / max 1 (s.get .CU_WIDTH_WIDTH n))

/-- The samples `l` have entered the live values `c` of unit `n`, which are `d` then (R632). -/
def Entered (s : State) (n : Nat) (c : Cap) (l : List Nat) (d : Cap) : Prop :=
  d.min_ = l.foldl min c.min_ ∧ d.max_ = l.foldl max c.max_ ∧ d.lost = c.lost ∧ (l ≠ [] → d.count = satAdd 64 c.count l.length)
    ∧ (l = [] → d.count = c.count)
    ∧ ∀ k, look 0 d.bins k = (let m := (l.filter (fun v => binAt s n v == k)).length
        if m = 0 then look 0 c.bins k else satAdd 32 (look 0 c.bins k) m)

/-- The live values `c` stand in the snapshot registers of unit `n`, with the tally (R636). -/
def Snapped (s t : State) (n : Nat) (c : Cap) : Prop :=
  t.get .CU_COUNT_COUNT n = c.count % 2 ^ 64 ∧ t.get .CU_MIN_MIN n = c.min_ % 2 ^ 32 ∧ t.get .CU_MAX_MAX n = c.max_ % 2 ^ 32
    ∧ t.get .CU_LOST_LOST n = c.lost % 2 ^ 32 ∧ t.get .CU_STAMP_TALLY n = s.tally % 2 ^ 56
    ∧ ∀ j < 16, t.get .CU_BIN_BIN (16 * n + j) = look 0 c.bins j % 2 ^ 32

/-- The snapshot registers of unit `n`. -/
def snapFlds (n : Nat) : List (Fld × Nat) :=
  [(.CU_COUNT_COUNT, n), (.CU_MIN_MIN, n), (.CU_MAX_MAX, n), (.CU_LOST_LOST, n), (.CU_STAMP_TALLY, n)]
    ++ (List.range 16).map (fun j => (.CU_BIN_BIN, 16 * n + j))

/-- Boot goes on to stage `n`. -/
def StageDone (s t : State) (n : Nat) (l : List Fld) (m : List (Fld × Nat)) (k : List Comp) : Prop :=
  t.get .MBX_BOOT_STAGE = n ∧ OnlyAt (.MBX_BOOT_STAGE :: l) m k s t

/-- Boot stops in stage 15 with error `e`, and FAULT_N falls. -/
def BootStopped (s t : State) (e : Nat) (l : List Fld) (k : List Comp) : Prop :=
  t.get .MBX_BOOT_STAGE = 15 ∧ t.get .MBX_BOOT_ERR = e ∧ FaultShown t ∧ FaultPut s t
    ∧ t.boot = { s.boot with faultLow := t.boot.faultLow }
    ∧ OnlyChanges ([.MBX_BOOT_STAGE, .MBX_BOOT_ERR, .MBX_BOOT_FAULT_IN] ++ l) ([.boot, .out] ++ k) s t

/-- The firmware image of source `src` is accepted (R729, R751). -/
def FirmwareIn (s t : State) (src : Nat) (l : List Fld) : Prop :=
  t.get .MBX_BOOT_SRC = src % 4 ∧ t.get .MBX_BOOT_ERR = 0 ∧ FaultShown t ∧ FaultPut s t
    ∧ t.boot = { s.boot with wait := false, faultLow := t.boot.faultLow }
    ∧ StageDone s t 3 ([.MBX_BOOT_SRC, .MBX_BOOT_ERR, .MBX_BOOT_FAULT_IN] ++ l) [] [.boot, .out]

/-- Die `k` fails the identity check: its POS is unwritten, reserved, or that of another die (R287). -/
def DieBad (s : State) (k : Nat) : Prop := k < 9 ∧ (8 < s.fusePos k ∨ ∃ j, j < 9 ∧ j ≠ k ∧ s.fusePos j = s.fusePos k)

/-- The two ends of each stitch with the POS that their die should have: of a batt-to-batt stitch they differ by 1 (R284, R288). -/
def StitchPosBad (s : State) (x : Nat) : Prop :=
  if x < 6 then s.fusePos (stitchDie x 0) + 1 ≠ s.fusePos (stitchDie x 1) else s.fusePos ((x - 6) / 2) ≠ (x - 6) / 2

/-- The group that the training of stitch `x` maps onto group 15 in a direction, of those that failed; 15 when none or more than one did
(R294). -/
def SpareIs (l : List (Nat × Bool × Nat)) (x : Nat) (east : Bool) (v : Nat) : Prop :=
  (∀ g < 16, (x, east, g) ∈ l → (∀ h < 16, (x, east, h) ∈ l → h = g) → v = g)
    ∧ ((∀ g < 16, (x, east, g) ∉ l) → v = 15) ∧ ((∃ g < 16, ∃ h < 16, g ≠ h ∧ (x, east, g) ∈ l ∧ (x, east, h) ∈ l) → v = 15)

/-- Two groups of stitch `x` failed in one direction: it stays down (R294). -/
def TwoFailed (l : List (Nat × Bool × Nat)) (x : Nat) : Prop :=
  ∃ east, ∃ g < 16, ∃ h < 16, g ≠ h ∧ (x, east, g) ∈ l ∧ (x, east, h) ∈ l

/-- The registers in which training leaves the stitches' spares and state. -/
def trainFlds : List Fld := [.MEM_T_STAT_UP, .MEM_T_STAT_SPARE_E, .MEM_T_STAT_SPARE_W]

/-- A conformateur run starts on the ports of the mask (R352, R354, R780): their results are reset, and each that is up and not spare has its
first probe to send. -/
def ConfStarted (s t : State) : Prop :=
  let ps := (List.range 32).filter (fun p => s.getBit .LNK_CONF_MASK_PORTS p)
  t.get .LNK_CONF_STAT_BUSY = 1 ∧ t.get .LNK_CONF_STAT_DONE = 0
    ∧ t.boot = { s.boot with confMask := ps, confUp := ps.filter s.probed }
    ∧ (∀ p ∈ ps, t.get .LNK_P_CONF_STATE p = 0 ∧ t.get .LNK_P_CONF_FAR p = 0 ∧ t.get .LNK_P_CONF_FARPORT p = 0x3F
        ∧ t.get .LNK_P_LAT_LAT p = 0 ∧ t.get .LNK_P_SPR_SPREAD p = 0 ∧ t.get .LNK_P_PATH_FLIGHT p = 0 ∧ t.get .LNK_P_PATH_ALLOW p = 0
        ∧ t.get .LNK_P_STAT_REACH p = 0)
    ∧ (∀ p ∈ ps, ∃ l, t.port p = { s.port p with
          probes := 0, results := [], unanswered := false, probeT1 := none, answer := {}, missed := [], msgs := (s.port p).msgs ++ l }
        ∧ (s.probed p = false → l = [])
        ∧ (s.probed p = true → ∃ m : ConfMsg, l = [.probe m] ∧ m.coord = s.coord ∧ m.port = p ∧ m.bsize = s.is .LNK_COORD_BSIZE
            ∧ m.rackset = true ∧ m.seq = 0))
    ∧ ∀ p, s.getBit .LNK_CONF_MASK_PORTS p = false → look? t.ports p = look? s.ports p
        ∧ ∀ f ∈ ([.LNK_P_CONF_STATE, .LNK_P_CONF_FAR, .LNK_P_CONF_FARPORT, .LNK_P_LAT_LAT, .LNK_P_SPR_SPREAD, .LNK_P_PATH_FLIGHT,
            .LNK_P_PATH_ALLOW, .LNK_P_STAT_REACH] : List Fld), t.get f p = s.get f p

/-- The registers that the start of a conformateur run changes. -/
def confFlds : List Fld := [.LNK_CONF_STAT_BUSY, .LNK_CONF_STAT_DONE, .LNK_P_CONF_STATE, .LNK_P_CONF_FAR, .LNK_P_CONF_FARPORT, .LNK_P_LAT_LAT,
  .LNK_P_SPR_SPREAD, .LNK_P_PATH_FLIGHT, .LNK_P_PATH_ALLOW, .LNK_P_STAT_REACH]

/-- What outlasts a loss of power: the fuses, and the level of PERST_N, which is outside. -/
def bareBoot (b : Boot) : Boot :=
  { fuseStep := b.fuseStep, fuseGrade := b.fuseGrade, fuseClass := b.fuseClass, fuseSvn := b.fuseSvn, fuseKey := b.fuseKey,
    fusePos := b.fusePos, fuseSer := b.fuseSer, fuseFail := b.fuseFail, fuseBad := b.fuseBad, perst := b.perst }

/-- Nothing of a run, a ring, a port or a memory is left. -/
def Emptied (t : State) : Prop :=
  t.ctl = {} ∧ t.hre = {} ∧ t.parts = [] ∧ t.nodes = [] ∧ t.ports = [] ∧ t.ctxs = [] ∧ t.shr = [] ∧ t.hbm = {} ∧ t.stitch = []
    ∧ t.caps = []

/-- What a system reset leaves (R722-R724, R739, R745, R750): the event recorder, the tally, the local tick, fences and, while PWR_OK stays
high, the trip. The straps as sampled, the rails' set points and the TAP are outside it. FAULT_N and TALLY_EVT take their idle levels,
THERMTRIP_N when its latch is cleared. The panels of the retention regions keep their memories in shelf state; else these are undefined, a
free value. -/
def SystemReset (s t : State) (pwrOk : Bool) : Prop :=
  Emptied t ∧ t.tb = { holdover := s.tb.holdover } ∧ t.evr = s.evr ∧ t.pending = s.pending
    ∧ t.boot = { bareBoot s.boot with
        straps := s.boot.straps, powered := s.boot.powered, tripped := s.boot.tripped && pwrOk, rails := s.boot.rails,
        tapInstr := t.boot.tapInstr, tapData := s.boot.tapData, tapDie := s.boot.tapDie, boundary := s.boot.boundary }
    ∧ (∀ f i, f.info.blk = .EVR ∨ f = .TIM_TALLY_TALLY ∨ f = .TIM_TICK_TICK ∨ f = .PNL_HOOD_FENCED → t.get f i = s.get f i)
    ∧ t.get .MBX_FAULT_TRIP = (if pwrOk then s.get .MBX_FAULT_TRIP else 0)
    ∧ (∀ f i, f.info.blk ≠ .EVR → f ≠ .TIM_TALLY_TALLY → f ≠ .TIM_TICK_TICK → f ≠ .PNL_HOOD_FENCED → f ≠ .MBX_FAULT_TRIP →
        t.get f i = f.info.reset)
    ∧ (∀ w, w ∉ retention → t.panel w = {})
    ∧ (∀ w ∈ retention, t.panel w = if s.get .PWR_SHELF_STATE = 2 then
          { mem := (s.panel w).mem, lost := (s.panel w).lost, undef := (s.panel w).undef, known := (s.panel w).known }
        else { undef := some s.free })
    ∧ t.free = s.free + 1
    ∧ t.out = s.out ++ (if s.boot.faultLow then [.pin "FAULT_N" true] else []) ++ (if s.tb.evtLevel then [.pin "TALLY_EVT" false] else [])
        ++ (if s.boot.tripped && !pwrOk then [.pin "THERMTRIP_N" true] else [])

/-! The event log. -/

/-- Record `r` repeats the newest record of its class, which stands in `slot` and can count it (R654). -/
def FoldsInto (s : State) (r : Rec) (slot : Nat) : Prop :=
  look? s.evr.last (r.code / 4096) = some slot ∧ (s.getBit .EVR_MODE_FOLD (r.code / 4096) = true ∨ evFolds r.code = true)
    ∧ ∃ x, (slot, x) ∈ s.evr.log ∧ x.code = r.code ∧ x.part = r.part ∧ x.skind = r.skind ∧ x.sindex = r.sindex ∧ x.rept < 65535

/-- Record `r` stands in `slot` as the newest of the log and of its class, in place of what stood there; it is counted (R655, R656). -/
def Placed (s t : State) (r : Rec) (slot : Nat) : Prop :=
  t.evr.log = s.evr.log.filter (fun x => x.1 ≠ slot) ++ [(slot, { r with order := s.get .EVR_WRITTEN_COUNT % 2 ^ 16 })]
    ∧ look? t.evr.last (r.code / 4096) = some slot
    ∧ (∀ c, c ≠ r.code / 4096 → look? t.evr.last c ≠ some slot
        ∧ ∀ v, v ≠ slot → look? s.evr.last c = some v → look? t.evr.last c = some v)
    ∧ { t.evr with log := s.evr.log, last := s.evr.last } = s.evr ∧ t.get .EVR_WRITTEN_COUNT = (s.get .EVR_WRITTEN_COUNT + 1) % 2 ^ 32
    ∧ t.get .EVR_OVF_COUNT = s.get .EVR_OVF_COUNT ∧ t.get .EVR_DROP_COUNT = s.get .EVR_DROP_COUNT

/-- Record `r` enters the log (R654-R657): it folds, takes the next slot, replaces the oldest record of the lowest severity when the log is
full, or is discarded and counted. -/
def LogTakes (s t : State) (r : Rec) : Prop :=
  let full := 16384 ≤ s.evr.log.length
  (∀ slot, FoldsInto s r slot →
      t.evr = { s.evr with
        log := s.evr.log.map (fun x => if x.1 = slot then (x.1, { x.2 with rept := x.2.rept + 1, folded := true }) else x) }
        ∧ OnlyChanges [] [.evr] s t)
    ∧ ((∀ slot, ¬ FoldsInto s r slot) →
        (¬ full → Placed s t r (s.get .EVR_NEXT_SLOT) ∧ t.get .EVR_NEXT_SLOT = (s.get .EVR_NEXT_SLOT + 1) % 2 ^ 14)
        ∧ (full → ∀ a b slot r0, s.evr.log = a ++ (slot, r0) :: b → (∀ x ∈ a ++ b, x.1 ≠ slot) → r0.sev ≤ r.sev → r0.sev < 3 →
            (∀ x ∈ a, r0.sev < x.2.sev) → (∀ x ∈ b, r0.sev ≤ x.2.sev) →
            Placed s t r slot ∧ t.get .EVR_NEXT_SLOT = s.get .EVR_NEXT_SLOT)
        ∧ (full → (∀ x ∈ s.evr.log, r.sev < x.2.sev ∨ 3 ≤ x.2.sev) →
            t.evr = s.evr ∧ t.get .EVR_NEXT_SLOT = s.get .EVR_NEXT_SLOT ∧ t.get .EVR_WRITTEN_COUNT = s.get .EVR_WRITTEN_COUNT
              ∧ t.get .EVR_OVF_COUNT = (if r.sev = 3 then satAdd 32 (s.get .EVR_OVF_COUNT) 1 else s.get .EVR_OVF_COUNT)
              ∧ t.get .EVR_DROP_COUNT = (if r.sev = 3 then s.get .EVR_DROP_COUNT else satAdd 32 (s.get .EVR_DROP_COUNT) 1)))
    ∧ OnlyChanges [.EVR_NEXT_SLOT, .EVR_WRITTEN_COUNT, .EVR_OVF_COUNT, .EVR_DROP_COUNT] [.evr] s t

/-- The records `l` enter the log one after another. -/
def LogTakesAll (s t : State) : List Rec → Prop
  | [] => t = s
  | r :: l => ∃ u, LogTakes s u r ∧ LogTakesAll u t l

/-- The event ring of function `fn`, which serves partition `q`, is offered record `r` (R413, R414): in use and not full it takes the copy, its
shadow and its notify follow; full, or with the link down, it counts the record as lost. -/
def Offered (s t : State) (fn : Nat) (q : Option Nat) (r : Rec) : Prop :=
  let x := s.ring fn 2
  let i := s.get .RING_STAT_DIDX (16 * fn + 2)
  let n := s.ringN fn 2
  let room := (i + 2 ^ 32 - x.hidx) % 2 ^ 32 < n
  (s.ringUse fn 2 = true → room → s.linkUp = true →
      .hostWrite fn (s.descAddr fn 2 i)
          (toLE 4 (1 - i / n % 2) ++ toLE 4 x.eseq ++ toLE 2 x.lost ++ List.replicate 22 0 ++ recBytes r) ∈ t.out
        ∧ .hostWrite fn (s.dbAddr fn 2 + 8) (t.shadowBytes fn 2) ∈ t.out ∧ t.get .RING_STAT_DIDX (16 * fn + 2) = (i + 1) % 2 ^ 32
        ∧ t.ring fn 2 = { x with eseq := (x.eseq + 1) % 2 ^ 32, lost := 0 }
        ∧ ∀ p, q = some p → x.notify = true → s.boot.perst = false →
            Formed (s.home p) { kind := 7, irq := true, detail := toLE 1 p ++ toLE 1 2 ++ toLE 2 0 ++ toLE 4 ((i + 1) % 2 ^ 32) } s t)
    ∧ (s.ringUse fn 2 = true → ¬ room ∨ s.linkUp = false → t.get .RING_STAT_DIDX (16 * fn + 2) = i
        ∧ t.ring fn 2 = { x with
            eseq := (x.eseq + 1) % 2 ^ 32, lost := satAdd 16 x.lost 1, ovf := true, owed := x.owed || (!x.ovf && !s.linkUp) }
        ∧ (x.ovf = false → s.linkUp = true → .hostWrite fn (s.dbAddr fn 2 + 8) (t.shadowBytes fn 2) ∈ t.out))
    ∧ (s.ringUse fn 2 = false → t.ring fn 2 = x ∧ t.get .RING_STAT_DIDX (16 * fn + 2) = i)

/-- The physical function's event ring is offered record `r`, and so is that of its partition where the class is visible; no other ring
changes (R661). -/
def Copies (s t : State) (r : Rec) : Prop :=
  Offered s t 0 none r ∧ (∀ q, r.part = some q → s.getBit .EVR_VIS_VIS (r.code / 4096) = true → Offered s t (1 + q) (some q) r)
    ∧ ∀ k, k ≠ 2 → (∀ q, r.part = some q → s.getBit .EVR_VIS_VIS (r.code / 4096) = true → k ≠ 16 * (1 + q) + 2) →
        look? t.hre.rings k = look? s.hre.rings k ∧ t.get .RING_STAT_DIDX k = s.get .RING_STAT_DIDX k

/-- The event `e` is recorded in a log that is not frozen: a folding event is not offered to the event rings, another is. -/
def EventTakes (s t : State) (e : Ev) : Prop :=
  (∃ u, LogTakes s u (s.mkRec e) ∧ t.evr = u.evr ∧ ∀ f, f ≠ .RING_STAT_DIDX → ∀ i, t.get f i = u.get f i)
    ∧ (∀ slot, FoldsInto s (s.mkRec e) slot → OnlyChanges [] [.evr] s t)
    ∧ ((∀ slot, ¬ FoldsInto s (s.mkRec e) slot) → Copies s t (s.mkRec e)) ∧ OnlyChanges evFlds evComps s t

/-- The events `l` are recorded one after another. -/
def EventsTake (s t : State) : List Ev → Prop
  | [] => t = s
  | e :: l => ∃ u, EventTakes s u e ∧ EventsTake u t l

/-- The log is no longer frozen and takes what was held: the critical records in the order of their arrival, then the refused clears
(R659). -/
def LogReleased (s t : State) (limit : Nat) : Prop :=
  ∃ u v, u.is .EVR_FREEZE_FREEZE = false ∧ u.is .EVR_STAT_FROZEN = false ∧ u.get .EVR_FREEZE_LIMIT = limit
    ∧ u.evr = { s.evr with hold := [], kept := [] } ∧ OnlyAt [] [(.EVR_FREEZE_FREEZE, 0), (.EVR_STAT_FROZEN, 0), (.EVR_FREEZE_LIMIT, 0)] [.evr] s u
    ∧ LogTakesAll u v (s.evr.hold.map (fun r => { r with held := true })) ∧ EventsTake v t s.evr.kept

/-- The event of a clear refused for `reason`: 1 not privileged, 2 not armed with the quote, 3 stale, 4 frozen. -/
def refusedClear (quote reason : Nat) : Ev := { code := 0xC002, skind := 12, detail := quote % 2 ^ 32 + reason * 2 ^ 32 }

/-! Sequencer contexts. -/

/-- Context `x` of a partition whose run goes on stands at the word `w`, which names operation `k`. -/
def SeqAt (s : State) (x k w : Nat) : Prop :=
  s.ctxRuns x = true ∧ s.get .SEQ_CTX_STATE_STATE x = 2 ∧ s.pcOf x % 4 = 0 ∧ s.pcOf x < s.winSize x
    ∧ ofLE (readBytes (s.ctx x).imem (s.pcOf x) 4) = w ∧ seqKind w = some k

/-- Breakpoint `j` of the partition of context `x` names the context and the PC it stands at. -/
def AtBreak (s : State) (x j : Nat) : Prop :=
  let i := 8 * s.get .SEQ_CTX_BIND_PART x + j
  s.is .DBG_BP_EN i = true ∧ s.get .DBG_BP_CTX i = x ∧ s.get .DBG_BP_PC i = s.get .SEQ_CTX_STATE_PC x

/-- As `SeqAt`, with no lock rule that forbids the instruction and no breakpoint at its PC. -/
def SeqReady (s : State) (x k w : Nat) : Prop :=
  SeqAt s x k w ∧ (∀ a n, (s.ctx x).lock = some (a, n) → n < 32 ∧ lockOkKind k = true) ∧ ∀ j < 8, ¬ AtBreak s x j

/-- The registers of context `x` after register `r` is written with `v`: a write to g0 is discarded. -/
def WroteG (s t : State) (x r : Nat) (v : BitVec 64) : Prop := ∀ j, t.g x j = if j = r ∧ j ≠ 0 then v else s.g x j

/-- Context `x` goes on at `pc`: it counts the instruction and one more inside a locked sequence. -/
def Retired (s t : State) (x pc : Nat) : Prop :=
  t.pcOf x = pc % 2 ^ 64 ∧ t.get .SEQ_CTX_RETIRED_COUNT x = satAdd 32 (s.get .SEQ_CTX_RETIRED_COUNT x) 1
    ∧ (t.ctx x).lock = (s.ctx x).lock.map (fun e => (e.1, e.2 + 1))

/-- What a context holds beside its registers, PC and lock is unchanged. -/
def CtxKeeps (s t : State) (x : Nat) : Prop :=
  ({ t.ctx x with g := [], pcHi := 0, lock := none } : Ctx) = { s.ctx x with g := [], pcHi := 0, lock := none }

/-- The address of the next instruction. -/
def nextPc (s : State) (x : Nat) : Nat := s.pcOf x + 4

/-- A register instruction: RD takes `v`, the context goes on at the next instruction, nothing else changes. -/
def AluRuns (s t : State) (x rd : Nat) (v : BitVec 64) : Prop :=
  WroteG s t x rd v ∧ Retired s t x (nextPc s x) ∧ CtxKeeps s t x
    ∧ OnlyAt [] [(.SEQ_CTX_STATE_PC, x), (.SEQ_CTX_RETIRED_COUNT, x)] [.ctx x] s t

/-- The statement of a register instruction `c` with operation `k`: RD takes `v` of the state and the word. -/
def AluSpec (k : Nat) (c : Nat → Ecc → Instr) (v : State → Nat → Nat → BitVec 64) : Prop :=
  ∀ (s : State) (x w : Nat), SeqReady s x k w → ∃ t, exec (c x .clean) s = .next t ∧ AluRuns s t x (bits w 21 5) (v s x w)

/-- A transfer of control of context `x` to `pc`, of kind `kind`. With branch trace off nothing else changes; with it on the count of
branches not taken starts again and a BRANCH record is written or counted as lost (R694). -/
def JumpRuns (s t : State) (x pc kind : Nat) : Prop :=
  let q := s.get .SEQ_CTX_BIND_PART x
  let c := s.ctx x
  Retired s t x pc
    ∧ OnlyAt traceFlds [(.SEQ_CTX_STATE_PC, x), (.SEQ_CTX_RETIRED_COUNT, x)] ([.ctx x, .part q, .mem] ++ evComps) s t
    ∧ (s.getBit .DBG_TRC_CTRL_EN 0 q = false →
        CtxKeeps s t x ∧ OnlyAt [] [(.SEQ_CTX_STATE_PC, x), (.SEQ_CTX_RETIRED_COUNT, x)] [.ctx x] s t)
    ∧ (s.getBit .DBG_TRC_CTRL_EN 0 q = true → (t.ctx x).notTaken = 0
        ∧ Traced s t q (traceBytes 1 q (5 * 4096 + x) s.tally c.lastIss (s.get .SEQ_CTX_ID_LAYER x) (s.get .SEQ_CTX_ID_OPER x)
            (s.pcOf x + pc % 2 ^ 16 * 2 ^ 16 + min 65535 c.notTaken * 2 ^ 32 + kind * 2 ^ 48)))

/-- With wait trace on, the WAIT record of context `x` with `body` is written or counted as lost (R695). -/
def WaitTraced (s t : State) (x body : Nat) : Prop :=
  let q := s.get .SEQ_CTX_BIND_PART x
  s.getBit .DBG_TRC_CTRL_EN 1 q = true →
    Traced s t q (traceBytes 4 q (5 * 4096 + x) s.tally (s.ctx x).lastIss (s.get .SEQ_CTX_ID_LAYER x) (s.get .SEQ_CTX_ID_OPER x) body)

/-- The effective address RA + IMM of the word `w`. -/
def seqEa (s : State) (x w : Nat) : Nat := (s.g x (bits w 16 5) + BitVec.ofInt 64 (sint 16 (bits w 0 16))).toNat

/-- Context `x` holds no semaphore of its partition. -/
def NoSem (s : State) (x : Nat) : Prop := ∀ n, look? (s.part (s.get .SEQ_CTX_BIND_PART x)).semOwner n ≠ some x

/-- Context `x` takes exception `cause` at word `w` (R507): before the instruction, with its registers and memories kept, its
reservation cancelled, the fault packet sent to stop 18 and the event recorded. -/
def Excepts (s t : State) (x cause status w : Nat) : Prop :=
  let q := s.get .SEQ_CTX_BIND_PART x
  let pc := s.get .SEQ_CTX_STATE_PC x
  t.get .SEQ_CTX_EXC_CAUSE x = cause ∧ t.get .SEQ_CTX_EXC_STATUS x = status % 256 ∧ t.get .SEQ_CTX_EXC_PC x = pc % 2 ^ 16
    ∧ t.get .SEQ_CTX_EXCW_WORD x = w % 2 ^ 32 ∧ t.get .SEQ_CTX_STATE_STATE x = 10 ∧ t.ctx x = { s.ctx x with resv := none }
    ∧ Sent (8 + x / 16 % 8) false [localPk (8 + x / 16 % 8) 18 q (.fault
        { part := q, code := 0x8001, step := some (s.ctx x).lastIss, layer := s.get .SEQ_CTX_ID_LAYER x,
          oper := s.get .SEQ_CTX_ID_OPER x, srck := 5, node := x })] s t
    ∧ t.ctl.ejq = s.ctl.ejq
    ∧ Raised
        { code := 0x8001, part := some q, skind := 5, sindex := x,
          detail := cause + status % 256 * 256 + pc * 2 ^ 16 + w * 2 ^ 32 } s t
    ∧ OnlyAt evFlds [(.SEQ_CTX_EXC_CAUSE, x), (.SEQ_CTX_EXC_STATUS, x), (.SEQ_CTX_EXC_PC, x), (.SEQ_CTX_EXCW_WORD, x),
        (.SEQ_CTX_STATE_STATE, x)] ([.ctx x, .ctl] ++ evComps) s t

/-- The sequencer instructions with the operation each names: FN for OP 0x00, else 64 times OP (R484, R486). -/
def seqOps : List ((Nat → Ecc → Instr) × Nat) :=
  [(.add, 0), (.sub, 1), (.and, 2), (.or, 3), (.xor, 4), (.sll, 5), (.srl, 6), (.sra, 7), (.slt, 8), (.sltu, 9), (.mul, 10),
   (.addi, 0x40), (.andi, 0x80), (.ori, 0xC0), (.slli, 0x100), (.srli, 0x140), (.srai, 0x180), (.lih, 0x1C0), (.beq, 0x200),
   (.bne, 0x240), (.blt, 0x280), (.bge, 0x2C0), (.bltu, 0x300), (.bgeu, 0x340), (.jal, 0x380), (.jalr, 0x3C0), (.ld, 0x400),
   (.st, 0x440), (.lds, 0x480), (.sts, 0x4C0), (.lkl, 0x500), (.lks, 0x540), (.ldr, 0x580), (.str, 0x5C0), (.waitt, 0x600),
   (.rdt, 0x640), (.issue, 0x800), (.switch, 0x840), (.sema, 0x900), (.semr, 0x940), (.intake, 0xA00), (.egress, 0xA40),
   (.cmark, 0xA80), (.halt, 0xFC0)]

/-- The instruction `i` of context `x`, ISSUE or SWITCH, is about to queue the entry `b`: the 20 bytes of its block, or the boundary and the
bank (R493, R494). -/
def SeqQueues (s : State) (x w : Nat) (i : Instr) (b : List Byte) : Prop :=
  (i = .issue x .clean ∧ SeqReady s x 0x800 w ∧ seqEa s x w % 4 = 0 ∧ seqEa s x w + 20 ≤ s.winSize x
      ∧ b = readBytes (s.ctx x).dmem (seqEa s x w) 20)
    ∨ (i = .switch x .clean ∧ SeqReady s x 0x840 w ∧ b = toLE 4 ((s.g x (bits w 16 5)).toNat % 2 ^ 32) ++ toLE 1 (bits w 0 16))

/-! Ports that go down. -/

/-- The ports `ps` go down, each with its event; the others stay as they are. With no frames held for them and no run that owns them nothing goes
out on the control rings. -/
def PortsFell (s t : State) (ps : List Nat) : Prop :=
  (∀ p ∈ ps, t.get .LNK_P_STAT_UP p = 0 ∧ t.get .LNK_P_CONF_STATE p = 8
      ∧ t.port p = { crown := (s.port p).crown, unanswered := true, probes := (s.port p).probes })
    ∧ (∀ p, p ∉ ps → t.get .LNK_P_STAT_UP p = s.get .LNK_P_STAT_UP p ∧ t.get .LNK_P_CONF_STATE p = s.get .LNK_P_CONF_STATE p
        ∧ look? t.ports p = look? s.ports p)
    ∧ RaisedAll (ps.map (fun p => { code := 0x4001, part := s.portOwner p, skind := 7, sindex := p })) s t
    ∧ ((∀ p ∈ ps, (s.port p).txFrames = [] ∧ ∀ q, s.portOwner p = some q → s.runSt q ≠ 3) → t.ctl = s.ctl)

/-- The ports that are up. -/
def portsUp (s : State) : List Nat := (List.range 32).filter (fun p => s.is .LNK_P_STAT_UP p)

/-- The ports that were up and whose domain has turned off. -/
def portsOff (s t : State) : List Nat := (portsUp s).filter (fun p => s.domOn (73 + p / 16) && !t.domOn (73 + p / 16))

/-! Requests and replies. -/

/-- Only that the first packet that `f` picks has left the ejection queue of `stop`. -/
def OnlyTook (stop : Nat) (reply : Bool) (f : Packet → Bool) (s u : State) : Prop :=
  Took stop reply f s u ∧ u = { s with ctl := { s.ctl with ejq := u.ctl.ejq } }

/-- The register writes, as offset, width and value, that `bs` at offset `o` of the register image make: pairs of words on 8-byte places are
one write. -/
def imageParts (o : Nat) (bs : List Byte) : Nat → List (Nat × Nat × Nat)
  | 0 => []
  | k + 1 => if bs.length < 4 then []
      else if o % 8 = 0 ∧ 8 ≤ bs.length then (o, 8, ofLE (bs.take 8)) :: imageParts (o + 8) (bs.drop 8) k
      else (o, 4, ofLE (bs.take 4)) :: imageParts (o + 4) (bs.drop 4) k

/-- The partition whose HBM range meets the access counts its bytes; the access has changed nothing else but what is listed. -/
def CountsOther (s t : State) (a n : Nat) (l : List Fld) (k : List Comp) : Prop :=
  (∀ q, s.hbmOwner a n = some q → t.get .DBG_C_HBM_OTHER_BYTES q = (s.get .DBG_C_HBM_OTHER_BYTES q + n) % 2 ^ 64
      ∧ OnlyAt l [(.DBG_C_HBM_OTHER_BYTES, q)] k s t)
    ∧ (s.hbmOwner a n = none → OnlyChanges l k s t)

/-- The LDR or STR of context `x` is answered with `status` and data `v`: status 0 completes it, another is an exception before it; a context that a
debug halt has stopped keeps the answer, one that waits no longer discards it (R489, R508, R681). -/
def CtxAnswered (s t : State) (x status v : Nat) : Prop :=
  let st := s.get .SEQ_CTX_STATE_STATE x
  (s.ctxRuns x = true → st = 6 → status = 0 →
      t.get .SEQ_CTX_STATE_STATE x = 2 ∧ WroteG s t x (s.ctx x).waitReg (BitVec.ofNat 64 v) ∧ Retired s t x (nextPc s x) ∧ CtxKeeps s t x
        ∧ OnlyAt [] [(.SEQ_CTX_STATE_STATE, x), (.SEQ_CTX_STATE_PC, x), (.SEQ_CTX_RETIRED_COUNT, x)] [.ctx x] s t)
    ∧ (s.ctxRuns x = true → st = 6 → status ≠ 0 → NoSem s x →
        Excepts s t x (if status = 8 then 7 else 6) (if status = 8 then 0 else status)
          (ofLE (readBytes (s.ctx x).imem (s.get .SEQ_CTX_STATE_PC x) 4)))
    ∧ (s.ctxRuns x = true → st = 11 → (s.ctx x).haltSt = 6 →
        t.ctx x = { s.ctx x with reply := some (status, v) } ∧ OnlyChanges [] [.ctx x] s t)
    ∧ ((s.ctxRuns x = false ∨ (st ≠ 6 ∧ ¬ (st = 11 ∧ (s.ctx x).haltSt = 6))) → t = s)

/-- A request for purpose `p` ends with `status` and `data`. -/
def ReqEnds (s t : State) (p : Purp) (status : Nat) (data : List Byte) : Prop :=
  match p with
  | .ldr x _ => CtxAnswered s t x status (fieldLE data 0 8)
  | .str x => CtxAnswered s t x status 0
  | .dacc _ => t.get .DBG_DACC_CTRL_BUSY = 0 ∧ t.get .DBG_DACC_CTRL_STATUS = status % 256
      ∧ t.get .DBG_DACC_DATA_DATA = (if status = 0 then fieldLE data 0 8 else 2 ^ 64 - 1)
      ∧ (status ≠ 0 → t.get .DBG_DACC_CTRL_ERR = 1) ∧ (status = 0 → t.get .DBG_DACC_CTRL_ERR = s.get .DBG_DACC_CTRL_ERR)
      ∧ OnlyChanges [.DBG_DACC_DATA_DATA, .DBG_DACC_CTRL_BUSY, .DBG_DACC_CTRL_STATUS, .DBG_DACC_CTRL_ERR] [] s t
  | .tap _ => t = { s with boot := { s.boot with tapData := (if status = 0 then fieldLE data 0 8 else 2 ^ 64 - 1) + status % 256 * 2 ^ 64 } }

/-- A reply command `i`, which brings `pk` to `stop`, with the status and the data it carries. -/
def Brings (i : Instr) (stop : Nat) (pk : Packet) (status : Nat) (data : List Byte) : Prop :=
  (i = .data stop pk ∧ pk.payload = .data data ∧ status = 0) ∨ (i = .ack stop pk ∧ pk.payload = .ack ∧ status = 0 ∧ data = [])
    ∨ (i = .error stop pk ∧ pk.payload = .error status ∧ data = [])

/-! Panels. -/

/-- Counters of a panel that its operations advance. -/
def pnlCounters : List Fld := [.PNL_C_BUSY_COUNT, .PNL_C_MAC_COUNT, .PNL_C_OSB_COUNT, .PNL_C_PMB_COUNT, .PNL_C_INV_COUNT,
  .PNL_C_OVF_COUNT, .PNL_C_UNF_COUNT, .PNL_C_SAT_COUNT, .PNL_STRETCH_COUNT, .PNL_SEAM_HOLD_COUNT, .PNL_SEAM_WAIT_COUNT]

/-- Panel `p` of partition `q` runs the window of record `r`, whose deadline has not come, and stands at operation `o`, which passes
its decode checks. -/
def PnlAt (s : State) (p q : Nat) (r : IssueRec) (o : POp) : Prop :=
  (s.panel p).part = some q ∧ (s.panel p).win = some r ∧ (s.panel p).st = .running ∧ s.reached q (dueSlot r) = false
    ∧ s.boot.tripped = false ∧ (s.opAtPos p q r (s.panel p) []).bad = none ∧ (s.opAtPos p q r (s.panel p) []).o = o

/-- The surroundings only stretch cycles or make the shadow lanes disagree: no droop sample, lane upset or ECC error. -/
def Quiet (f : OpFacts) : Prop := f.droops = [] ∧ f.upset = [] ∧ f.ecc = [] ∧ f.pair = none

/-- Cycles stretched that an operation counts: those of a WAIT are not stretched, and a REST runs none (R142). -/
def stretchOf (o : POp) (f : OpFacts) : Nat := if o.op = 0x30 ∨ o.op = 0x31 then 0 else f.stretched

/-- The panel that a complete operation leaves, with what the window counts of it. -/
def countedOp (o : POp) (f : OpFacts) (x : Panel) : Panel :=
  { x with lastOp := (o.layer, o.oper), vcyc := x.vcyc + o.vcycles, stretch := x.stretch + stretchOf o f, seamPos := 0, seamGot := [] }

/-- The panel's counters move by the cycles, multiply-accumulates, bytes and arithmetic events of the operation, and the vector cycles
are compared. -/
def Counted (s t : State) (p q : Nat) (o : POp) (f : OpFacts) (mac : Nat) (c : Cnt) : Prop :=
  t.get .PNL_C_BUSY_COUNT p = (s.get .PNL_C_BUSY_COUNT p + o.cycles) % 2 ^ 64
    ∧ t.get .PNL_C_MAC_COUNT p = (s.get .PNL_C_MAC_COUNT p + mac) % 2 ^ 64
    ∧ t.get .PNL_C_OSB_COUNT p = (s.get .PNL_C_OSB_COUNT p + o.bytesIn 1) % 2 ^ 64
    ∧ t.get .PNL_C_PMB_COUNT p = (s.get .PNL_C_PMB_COUNT p + o.bytesIn 0) % 2 ^ 64
    ∧ t.get .PNL_C_INV_COUNT p = satAdd 32 (s.get .PNL_C_INV_COUNT p) c.inv
    ∧ t.get .PNL_C_OVF_COUNT p = satAdd 32 (s.get .PNL_C_OVF_COUNT p) c.ovf
    ∧ t.get .PNL_C_UNF_COUNT p = satAdd 32 (s.get .PNL_C_UNF_COUNT p) c.unf
    ∧ t.get .PNL_C_SAT_COUNT p = satAdd 32 (s.get .PNL_C_SAT_COUNT p) c.sat
    ∧ t.get .PNL_STRETCH_COUNT p = satAdd 32 (s.get .PNL_STRETCH_COUNT p) (stretchOf o f)
    ∧ t.get .CHK_SH_CNT_COUNT q = satAdd 64 (s.get .CHK_SH_CNT_COUNT q) o.vcycles

/-- The fault and DETAIL that panel `p` keeps for its settle slots. -/
def pnlNote (p q code step layer oper : Nat) : FaultMsg × Nat × Bool :=
  (pnlMsg p q code step layer oper, FaultMsg.detail (pnlMsg p q code step layer oper), true)

/-- The faults that an operation leaves for the settle slots: poison met, a fuller with OVF met, shadow lanes that disagree, a pounce
check that fails. -/
def opNotes (p q : Nat) (r : IssueRec) (o : POp) (used ovf bad fail : Bool) : List (FaultMsg × Nat × Bool) :=
  (if used then [pnlNote p q 0x2008 r.step o.layer o.oper] else []) ++ (if ovf then [pnlNote p q 0x2003 r.step o.layer o.oper] else [])
    ++ (if bad then [pnlNote p q 0x2002 r.step o.layer o.oper] else []) ++ (if fail then [pnlNote p q 0x2001 r.step o.layer o.oper] else [])

/-- The panel's fields that an operation may change. -/
def opFlds (p q : Nat) : List (Fld × Nat) :=
  pnlCounters.map (fun f => (f, p)) ++ [(.PNL_SL_POS_WORD, p), (.CHK_SH_CNT_COUNT, q), (.CHK_PC_CNT_COUNT, q), (.CHK_PC_SKIP_COUNT, q),
    (.PNL_HOOD_FENCED, p)]

/-- An operation of panel `p` completed: it left panel `x`, which keeps the faults it met, the panel goes on at the next operation,
a disagreement or a failed check fences it, and nothing beside the panel and its counters changed. -/
def PnlRuns (s t : State) (p q : Nat) (r : IssueRec) (o : POp) (f : OpFacts) (x : Panel) (mac : Nat) (c : Cnt) (ovf fail : Bool) : Prop :=
  let bad := f.shadowBad && decide (0 < o.vcycles)
  t.panel p = { countedOp o f x with faults := x.faults ++ opNotes p q r o ((s.panel p).consumes o) ovf bad fail }
    ∧ t.get .PNL_SL_POS_WORD p = (s.get .PNL_SL_POS_WORD p + 1 + o.nw) % 2 ^ 16 ∧ Counted s t p q o f mac c
    ∧ t.get .PNL_HOOD_FENCED p = (if bad || fail then 1 else s.get .PNL_HOOD_FENCED p)
    ∧ (o.op ≠ 0x04 → t.get .CHK_PC_CNT_COUNT q = s.get .CHK_PC_CNT_COUNT q ∧ t.get .CHK_PC_SKIP_COUNT q = s.get .CHK_PC_SKIP_COUNT q)
    ∧ OnlyAt [] (opFlds p q) [.panel p] s t

/-- Rows of elements hold `g r c`, value and poison, at each place of region `d`. -/
def RowsAre (d : Region) (rows : List (List (Nat × Bool))) (g : Nat → Nat → Nat × Bool) : Prop :=
  rows.length = d.rows ∧ ∀ r c, r < d.rows → c < d.cols → (rows.getD r []).length = d.cols ∧ at2 rows r c = g r c

/-- A BAR0 offset whose register word has no effect of its own: no MSI-X entry, allotment, TIM_EVT_AT, SEQ_MEM_DATA, and none
of the registers that `writeOps` lists. -/
def plainOff (off : Nat) : Bool :=
  !(decide (0x38000 ≤ off) && decide (off < 0x38010))
    && !(decide (addrOf .PRT_GRAN_GRAN ≤ off) && decide (off < addrOf .PRT_GRAN_GRAN + 128 * 64)
        && decide ((off - addrOf .PRT_GRAN_GRAN) % 64 < 0x30))
    && off / 8 * 8 != addrOf .TIM_EVT_AT_AT && off / 8 * 8 != addrOf .SEQ_MEM_DATA_DATA
    && (writeOps 0 off 0).all (fun h => (idxAt h.1 off).isNone)

/-- The field of a key of the register file is at a value its width holds, other than its reset value. -/
def regOk (e : Nat × Nat) : Bool :=
  let f := Fld.ofNat (e.1 % 512)
  decide (f.ctorIdx = e.1 % 512) && decide (e.2 < 2 ^ f.info.width) && decide (e.2 ≠ f.info.reset)

/-- The register file in its canonical form: keys strictly rising, and every entry as `regOk` says. -/
def regsOk (m : SMap Nat) : Bool := decide (m.Pairwise (fun a b => a.1 < b.1)) && m.all regOk

/-- The invariant: registers and memories are in their canonical form, so that a register never holds a value wider than its
field, and equal contents are equal data. -/
def Inv (s : State) : Prop :=
  regsOk s.regs = true ∧ Memory.wf s.hbm.bytes = true ∧ canon false s.hbm.poison = true ∧ Memory.wf s.shr = true

end Sys2Proof.Machine
end

