-- ==== Sys2Proof/Certificates/Slice0/Obligations.lean ====
section
/-! DEFINITION. The statements about the model. Each names the rules of spec/ it formalises; `OnlyChanges` says its frame. -/

open Sys2Proof Sys2Proof.Machine

/-- Loss and return of TREF (02_tally.md). -/
def Obligations.TimeSource : Prop :=
  (∀ s : State, ∃ t, exec .trefLost s = .next t ∧ t.get .TIM_STATUS_LOCK = 0 ∧ t.get .TIM_STATUS_TREF_LOST = 1
    ∧ t.get .TIM_STATUS_TREF_PRESENT = 0 ∧ t.tb = { s.tb with holdover := true, lockOk := false, goodExch := 0 } ∧ t.tally = s.tally
    ∧ t.get .TIM_STATUS_SLIP = (if (List.range 128).any (fun q => s.runSt q == 3) then 1 else s.get .TIM_STATUS_SLIP)
    ∧ Raised { code := 0x1001 } s t
    ∧ Sent 22 false (((List.range 128).filter (fun q => s.runSt q == 3)).map (fun q => localPk 22 18 q
        (.fault { part := q, code := 0x1001, srck := s.freeV % 7, step := some (s.curStep q) }))) s t ∧ t.ctl.ejq = s.ctl.ejq
    ∧ t.free = s.free + (if (List.range 128).any (fun q => s.runSt q == 3) then 1 else 0)
    ∧ OnlyChanges (evFlds ++ ([.TIM_STATUS_LOCK, .TIM_STATUS_TREF_LOST, .TIM_STATUS_TREF_PRESENT, .TIM_STATUS_SLIP] : List Fld))
        (evComps ++ ([.tb, .ctl, .free] : List Comp)) s t)
  ∧ (∀ s : State, ∃ t, exec .trefReturn s = .next t ∧ t.get .TIM_STATUS_TREF_PRESENT = 1
    ∧ t.tb = { s.tb with holdover := false } ∧ t.tally = s.tally ∧ OnlyChanges [.TIM_STATUS_TREF_PRESENT] [.tb] s t)

/-- The system tally-set and its passing on (02_tally.md). CROWN is the one that stands after the write: locked by set-up commit. -/
def Obligations.TallySets : Prop :=
  (∀ (s : State) (who v : Nat), privileged who = true → bit v 3 = true → v < 2 ^ 32 → s.anyBusy = false →
    (if s.is .MBX_SETUP_COMMITTED then s.is .TIM_CTRL_CROWN else bit v 0) = true →
    ∃ t, exec (.setAll who v) s = .next t
      ∧ t.out = s.out ++ s.conformed.map (fun p =>
          .tallySet p ((s.tally * 64 + s.linkLat p) / 64 % 2 ^ 56) ((s.tally * 64 + s.linkLat p) % 64))
      ∧ t.tally = s.tally ∧ t.get .TIM_STATUS_LOCK = (if s.is .TIM_STATUS_CONFLICT then s.get .TIM_STATUS_LOCK else 1)
      ∧ t.get .TIM_CTRL_SERVO_EN = b2n (bit v 1) ∧ t.get .TIM_CTRL_SET_ACCEPT = b2n (bit v 2)
      ∧ t.tb = { s.tb with lockOk := true, goodExch := 0 }
      ∧ OnlyChanges [.TIM_CTRL_CROWN, .TIM_CTRL_SERVO_EN, .TIM_CTRL_SET_ACCEPT, .TIM_STATUS_LOCK] [.tb, .out] s t)
  ∧ (∀ (s : State) (who v : Nat), privileged who = true → bit v 3 = true → v < 2 ^ 32 →
    (s.anyBusy = true ∨ (if s.is .MBX_SETUP_COMMITTED then s.is .TIM_CTRL_CROWN else bit v 0) = false) →
    ∃ t, exec (.setAll who v) s = .next t ∧ t.get .TIM_STATUS_SET_REFUSED = 1
      ∧ (s.get .TIM_SYNC_PARENT_PORT ≠ 0x3F → t.get .TIM_STATUS_LOCK = s.get .TIM_STATUS_LOCK)
      ∧ t.get .TIM_CTRL_SERVO_EN = b2n (bit v 1) ∧ t.get .TIM_CTRL_SET_ACCEPT = b2n (bit v 2)
      ∧ OnlyChanges [.TIM_CTRL_CROWN, .TIM_CTRL_SERVO_EN, .TIM_CTRL_SET_ACCEPT, .TIM_STATUS_SET_REFUSED, .TIM_STATUS_LOCK] [.tb] s t)
  ∧ (∀ (s : State) (port value frac : Nat), port < 32 → port = s.get .TIM_SYNC_PARENT_PORT → s.is .TIM_CTRL_SET_ACCEPT = true →
    s.anyBusy = false → s.is .TIM_CTRL_CROWN = false → value < 2 ^ 56 → frac < 64 →
    ∃ t, exec (.tallySet port value frac) s = .next t ∧ t.tally = value ∧ t.get .TIM_PHASE_BASE_BASE = frac
      ∧ t.get .TIM_PHASE_TRIM = 0 ∧ t.tb = { s.tb with lockOk := true, goodExch := 0, exch := [] }
      ∧ t.out = s.out ++ (s.conformed.filter (· ≠ port)).map (fun p =>
          .tallySet p ((value * 64 + s.linkLat p) / 64 % 2 ^ 56) ((value * 64 + s.linkLat p) % 64))
      ∧ OnlyChanges [.TIM_TALLY_TALLY, .TIM_PHASE_BASE_BASE, .TIM_PHASE_TRIM] [.tb, .out] s t)
  ∧ (∀ (s : State) (port value frac : Nat), port < 32 → port = s.get .TIM_SYNC_PARENT_PORT →
    (s.is .TIM_CTRL_SET_ACCEPT = false ∨ s.anyBusy = true ∨ s.is .TIM_CTRL_CROWN = true) →
    ∃ t, exec (.tallySet port value frac) s = .next t ∧ Raised { code := 0x1004, detail := value % 2 ^ 56 } s t
      ∧ OnlyChanges evFlds evComps s t)
  ∧ (∀ (s : State) (port value frac : Nat), ¬ (port < 32 ∧ port = s.get .TIM_SYNC_PARENT_PORT) →
      exec (.tallySet port value frac) s = .next s)

/-- The sync exchange and the servo (02_tally.md). `n2` is twice the offset of R52 in 1/64 slot; the rounding of an odd sum is the
model's free choice (log entry 13). -/
def Obligations.SyncExchanges : Prop :=
  (∀ s : State, s.tally % 4096 = 0 → s.get .TIM_SYNC_PARENT_PORT < 32 → s.is .LNK_P_STAT_UP (s.get .TIM_SYNC_PARENT_PORT) = true →
    ∃ t, exec .syncExchange s = .next t
      ∧ t.tb = { s.tb with exch := s.tb.exch ++ [(s.tally * 64, none)], marks := s.tb.marks ++ [s.get .TIM_SYNC_PARENT_PORT],
                           syncMsgs := s.tb.syncMsgs ++ [(s.get .TIM_SYNC_PARENT_PORT, s.tally * 64, 0, 0)] }
      ∧ OnlyChanges [] [.tb] s t)
  ∧ (∀ s : State, (s.tally % 4096 ≠ 0 ∨ 32 ≤ s.get .TIM_SYNC_PARENT_PORT) → exec .syncExchange s = .next s)
  ∧ (∀ (s : State) (port t2 : Nat), ∃ t, exec (.syncMarkArrive port t2) s = .next t
      ∧ (∃ y, look? t.tb.parent port = some y ∧ y.t2 = t2 ∧ y.x = (t2 / 64 + 128) % 2 ^ 56 ∧ y.t3 = none)
      ∧ (∀ p, p ≠ port → look? t.tb.parent p = look? s.tb.parent p) ∧ OnlyChanges [] [.tb] s t)
  ∧ (∀ (s : State) (port : Nat) (y : SyncSide), look? s.tb.parent port = some y → y.t3 = none → y.x < 2 ^ 56 →
    (s.tally = y.x ∧ y.x % 32 ≠ 29 ∧ y.x % 32 ≠ 31
      ∨ (y.x % 32 = 29 ∨ y.x % 32 = 31) ∧ s.tally = (y.x + 1) % 2 ^ 56) →
    ∃ t, exec (.syncReply port) s = .next t ∧ t.tb.marks = s.tb.marks ++ [port]
      ∧ t.tb.syncMsgs = s.tb.syncMsgs ++ [(port, y.t1, y.t2, s.tally * 64)]
      ∧ look? t.tb.parent port = some { y with t3 := some (s.tally * 64) }
      ∧ (∀ p, p ≠ port → look? t.tb.parent p = look? s.tb.parent p) ∧ OnlyChanges [] [.tb] s t)
  ∧ (∀ (s : State) (t4 : Nat) (l r : List (Nat × Option Nat)) (t1 : Nat), s.tb.exch = l ++ (t1, none) :: r →
    (∀ e ∈ l, e.2 ≠ none) → ∃ t, exec (.syncReplyArrive t4) s = .next t
      ∧ t.tb = { s.tb with exch := l ++ (t1, some t4) :: r } ∧ OnlyChanges [] [.tb] s t)
  ∧ (∀ (s : State) (t1 t2 t3 t4 : Nat) (n2 : Int), (t1, some t4) ∈ s.tb.exch → (∀ d, (t1, some d) ∈ s.tb.exch → d = t4) →
    ((t2 : Int) - t1).natAbs < 2 ^ 61 → ((t4 : Int) - t3).natAbs < 2 ^ 61 → n2 = ((t2 : Int) - t1) - ((t4 : Int) - t3) →
    ∃ t off, exec (.syncValues t1 t2 t3) s = .next t ∧ (n2 = 2 * off ∨ n2 = 2 * off + 1 ∨ n2 = 2 * off - 1)
      ∧ t.get .TIM_PHASE_OFFSET = ofSint 8 (max (-127) (min 127 off))
      ∧ t.get .TIM_PHASE_EXCH = (s.get .TIM_PHASE_EXCH + 1) % 2 ^ 16
      ∧ t.get .TIM_PHASE_TRIM = (if s.is .TIM_CTRL_SERVO_EN && !s.is .TIM_CTRL_CROWN then
          ofSint 7 (if 0 < n2 then min 16 (s.trim + 1) else if n2 < 0 then max (-16) (s.trim - 1) else s.trim)
          else s.get .TIM_PHASE_TRIM)
      ∧ (let p := ((t2 : Int) - t1) + ((t4 : Int) - t3)
         p = 2 * t.tb.pathLat ∨ p = 2 * t.tb.pathLat + 1 ∨ p = 2 * t.tb.pathLat - 1)
      ∧ t.tb.exch = s.tb.exch.erase (t1, some t4)
      ∧ (let lim := 32 < n2.natAbs ∧ (0 < n2 ∧ s.trim = 16 ∨ n2 < 0 ∧ s.trim = -16)
         let slip := 64 < n2.natAbs
         (lim → t.get .TIM_STATUS_SERVO_LIMIT = 1) ∧ (¬ lim → t.get .TIM_STATUS_SERVO_LIMIT = s.get .TIM_STATUS_SERVO_LIMIT)
          ∧ (lim → ¬ slip → Raised { code := 0x1003, detail := offsetDetail off } s t)
          ∧ (slip → ¬ lim → Raised { code := 0x1002, detail := offsetDetail off } s t)
          ∧ (slip → t.get .TIM_STATUS_LOCK = 0 ∧ t.get .TIM_STATUS_SLIP = 1 ∧ t.tb.lockOk = false
              ∧ Sent 22 false (((List.range 128).filter (fun q => s.runSt q == 3)).map (fun q => localPk 22 18 q
                  (.fault { part := q, code := 0x1002, srck := Config.freeValue (s.free + 1) % 7, step := some (s.curStep q) }))) s t)
          ∧ (¬ slip → t.get .TIM_STATUS_SLIP = s.get .TIM_STATUS_SLIP ∧ t.tb.lockOk = s.tb.lockOk ∧ t.ctl = s.ctl
              ∧ t.tb.goodExch = (if n2.natAbs ≤ 16 then min 16 (s.tb.goodExch + 1) else 0)
              ∧ t.get .TIM_STATUS_LOCK = (if n2.natAbs ≤ 16 ∧ 15 ≤ s.tb.goodExch ∧ s.tb.lockOk = true
                  ∧ s.is .TIM_STATUS_CONFLICT = false ∧ ¬ (s.is .TIM_CTRL_CROWN = false ∧ s.get .TIM_SYNC_PARENT_PORT = 0x3F)
                  then 1 else s.get .TIM_STATUS_LOCK))
          ∧ (¬ lim → ¬ slip → OnlyChanges [.TIM_PHASE_OFFSET, .TIM_PHASE_EXCH, .TIM_PHASE_TRIM, .TIM_STATUS_LOCK] [.tb, .free] s t))
      ∧ OnlyChanges (evFlds ++ ([.TIM_PHASE_OFFSET, .TIM_PHASE_EXCH, .TIM_PHASE_TRIM, .TIM_STATUS_LOCK, .TIM_STATUS_SLIP,
          .TIM_STATUS_SERVO_LIMIT] : List Fld)) (evComps ++ ([.tb, .ctl, .free] : List Comp)) s t)
  ∧ (∀ (s : State) (t1 t2 t3 : Nat), (∀ d, (t1, some d) ∉ s.tb.exch) → exec (.syncValues t1 t2 t3) s = .next s)

/-- TALLY_EVT, TALLY_CAP and the capture FIFO (02_tally.md, 18_register_index.md). Widths and intervals are counted on the slot clock,
whose edges `tb.slots` counts. -/
def Obligations.TallyPins : Prop :=
  (∀ (s : State) (who v : Nat), privileged who = true → v < 2 ^ 32 →
    ∃ t, exec (.timEvtArm who v) s = .next t ∧ t.get .TIM_EVT_CTRL_POLARITY = b2n (bit v 1)
      ∧ t.get .TIM_EVT_CTRL_WIDTH = bits v 8 8 ∧ t.get .TIM_EVT_CTRL_PERIOD = bits v 16 6
      ∧ (bit v 0 = true → s.is .TIM_EVT_CTRL_ARM = false → s.tally < s.get .TIM_EVT_AT_AT →
          t.get .TIM_EVT_CTRL_ARM = 1 ∧ t.tb.evtSched = some (s.get .TIM_EVT_AT_AT, evtPeriod (bits v 16 6)) ∧ t.tb.evtWas = none)
      ∧ (bit v 0 = true → s.is .TIM_EVT_CTRL_ARM = false → s.get .TIM_EVT_AT_AT ≤ s.tally →
          t.get .TIM_EVT_CTRL_ARM = s.get .TIM_EVT_CTRL_ARM ∧ t.get .TIM_EVT_CTRL_MISSED = 1 ∧ t.tb.evtSched = s.tb.evtSched)
      ∧ (bit v 0 = true → s.is .TIM_EVT_CTRL_ARM = true → t.get .TIM_EVT_CTRL_ARM = 1 ∧ t.tb.evtSched = s.tb.evtSched)
      ∧ (bit v 0 = false → t.get .TIM_EVT_CTRL_ARM = 0 ∧ t.tb.evtSched = none)
      ∧ t.tb.evtLevel = (if s.tb.evtEnd.isSome then !bit v 1 else bit v 1)
      ∧ t.out = s.out ++ (if t.tb.evtLevel = s.tb.evtLevel then [] else [.pin "TALLY_EVT" t.tb.evtLevel])
      ∧ OnlyChanges [.TIM_EVT_CTRL_ARM, .TIM_EVT_CTRL_POLARITY, .TIM_EVT_CTRL_MISSED, .TIM_EVT_CTRL_WIDTH, .TIM_EVT_CTRL_PERIOD]
          [.tb, .out] s t)
  ∧ (∀ (s : State) (who v : Nat), privileged who = true → v < 2 ^ 56 → s.is .TIM_EVT_CTRL_ARM = false →
    ∃ t, exec (.timEvtAtWrite who v) s = .next t ∧ t.get .TIM_EVT_AT_AT = v ∧ OnlyChanges [.TIM_EVT_AT_AT] [] s t)
  ∧ (∀ (s : State) (who v : Nat), privileged who = true → v < 2 ^ 56 → s.is .TIM_EVT_CTRL_ARM = true →
    (s.tally < v ∨ s.get .TIM_EVT_CTRL_PERIOD ≠ 0) →
    ∃ t, exec (.timEvtAtWrite who v) s = .next t ∧ t.get .TIM_EVT_AT_AT = v
      ∧ t.tb = { s.tb with evtWas := some (s.tb.slots, s.evtNow), evtSched := some (v, evtPeriod (s.get .TIM_EVT_CTRL_PERIOD)) }
      ∧ OnlyChanges [.TIM_EVT_AT_AT] [.tb] s t)
  ∧ (∀ (s : State) (who v : Nat), privileged who = true → v ≤ s.tally → v < 2 ^ 56 → s.is .TIM_EVT_CTRL_ARM = true →
    s.get .TIM_EVT_CTRL_PERIOD = 0 →
    ∃ t, exec (.timEvtAtWrite who v) s = .next t ∧ t.get .TIM_EVT_AT_AT = v ∧ t.get .TIM_EVT_CTRL_MISSED = 1
      ∧ t.get .TIM_EVT_CTRL_ARM = 0 ∧ t.tb = { s.tb with evtWas := some (s.tb.slots, s.evtNow), evtSched := none }
      ∧ OnlyChanges [.TIM_EVT_AT_AT, .TIM_EVT_CTRL_MISSED, .TIM_EVT_CTRL_ARM] [.tb] s t)
  ∧ (∀ (s : State) (who v : Nat), privileged who = false → exec (.timEvtAtWrite who v) s = .next s)
  ∧ (∀ (s : State) (a n : Nat), s.evtNow = some (a, n) →
    (s.tally = a ∨ (0 < n ∧ a ≤ s.tally ∧ (s.tally - a) % n = 0)) →
    ∃ t, exec .tallyEvtPulse s = .next t ∧ t.tb.evtLevel = (!s.is .TIM_EVT_CTRL_POLARITY)
      ∧ t.out = s.out ++ (if s.tb.evtLevel = (!s.is .TIM_EVT_CTRL_POLARITY) then []
          else [.pin "TALLY_EVT" (!s.is .TIM_EVT_CTRL_POLARITY)])
      ∧ t.tb.evtEnd = some (s.tb.slots + max 1 (s.get .TIM_EVT_CTRL_WIDTH))
      ∧ t.tb.evtSched = (if n = 0 ∧ s.tb.evtSched = some (a, n) then none else s.tb.evtSched)
      ∧ OnlyChanges [] [.tb, .out] s t)
  ∧ (∀ s : State, s.tb.evtEnd = some s.tb.slots →
    ∃ t, exec .tallyEvtEnd s = .next t ∧ t.tb = { s.tb with evtEnd := none, evtLevel := s.is .TIM_EVT_CTRL_POLARITY }
      ∧ t.out = s.out ++ (if s.tb.evtLevel = s.is .TIM_EVT_CTRL_POLARITY then []
          else [.pin "TALLY_EVT" (s.is .TIM_EVT_CTRL_POLARITY)])
      ∧ t.get .TIM_EVT_CTRL_ARM = (if s.tb.evtSched.isNone then 0 else s.get .TIM_EVT_CTRL_ARM)
      ∧ OnlyChanges [.TIM_EVT_CTRL_ARM] [.tb, .out] s t)
  ∧ (∀ (s : State) (rising : Bool) (frac : Nat), s.is .TIM_CAP_CTRL_ENABLE = true → rising = !s.is .TIM_CAP_CTRL_EDGE → frac < 64 →
    s.tb.cap.length < 8 → (∀ n, s.tb.capLast = some n → n + 8 ≤ s.tb.slots) →
    ∃ t, exec (.tallyCapEdge rising frac) s = .next t
      ∧ t.tb = { s.tb with cap := s.tb.cap ++ [{ tally := s.tally, frac := frac }], capLast := some s.tb.slots }
      ∧ OnlyChanges [] [.tb] s t)
  ∧ (∀ (s : State) (rising : Bool) (frac : Nat), s.is .TIM_CAP_CTRL_ENABLE = true → rising = !s.is .TIM_CAP_CTRL_EDGE →
    (8 ≤ s.tb.cap.length ∨ ∃ n, s.tb.capLast = some n ∧ s.tb.slots < n + 8) →
    ∃ t, exec (.tallyCapEdge rising frac) s = .next t ∧ t.tb = { s.tb with capLast := some s.tb.slots }
      ∧ t.get .TIM_CAP_OVF_LOST = satAdd 32 (s.get .TIM_CAP_OVF_LOST) 1 ∧ OnlyChanges [.TIM_CAP_OVF_LOST] [.tb] s t)
  ∧ (∀ (s : State) (rising : Bool) (frac : Nat), (s.is .TIM_CAP_CTRL_ENABLE = false ∨ rising = s.is .TIM_CAP_CTRL_EDGE) →
    exec (.tallyCapEdge rising frac) s = .next s)
  ∧ (∀ (s : State) (who : Nat) (e : CapEntry) (r : List CapEntry), privileged who = true → s.tb.cap = e :: r →
    e.tally < 2 ^ 56 → e.frac < 64 →
    ∃ t, exec (.timCapFifoPop who 0x10040 8) s = .next t
      ∧ t.out = s.out ++ ([.readData who 0x10040 8 (e.tally + e.frac * 2 ^ 56 + 2 ^ 63)] : List Out)
      ∧ t.tb = { s.tb with cap := r } ∧ OnlyChanges [] [.tb, .out] s t)
  ∧ (∀ (s : State) (who : Nat) (e : CapEntry) (r : List CapEntry), privileged who = true → s.tb.cap = e :: r →
    ∃ t, exec (.timCapFifoPop who 0x10040 4) s = .next t
      ∧ t.out = s.out ++ ([.readData who 0x10040 4 (e.tally % 2 ^ 32)] : List Out)
      ∧ t.tb = { s.tb with cap := r } ∧ OnlyChanges [] [.tb, .out] s t)
  ∧ (∀ (s : State) (who : Nat), privileged who = true → s.tb.cap = [] →
    ∃ t, exec (.timCapFifoPop who 0x10040 8) s = .next t ∧ t.out = s.out ++ ([.readData who 0x10040 8 0] : List Out) ∧ OnlyChanges [] [.out] s t)
  ∧ (∀ (s : State) (who : Nat), privileged who = true →
    ∃ t, exec (.timCapFifoPop who 0x10044 4) s = .next t ∧ t.tb = s.tb ∧ OnlyChanges [] [.out] s t)
  ∧ (∀ (s : State) (who : Nat), privileged who = false →
    ∃ t, exec (.timCapFifoPop who 0x10040 8) s = .next t ∧ t.out = s.out ++ ([.readData who 0x10040 8 0] : List Out) ∧ OnlyChanges [] [.out] s t)

/-- Reads of registers and accesses of a bad size (R760). -/
def Obligations.RegisterReads : Prop :=
  (∀ (s : State) (who off evs : Nat), off % 4 = 0 → evs < 2 ^ 32 →
    ∃ t, exec (.rcCounterRead who off 4 evs) s = .next t ∧ t.out = s.out ++ ([.readData who off 4 (s.word who off)] : List Out)
      ∧ (∀ f i h, blkBase f.info.blk ≤ off → (i, h) ∈ elems f (off - blkBase f.info.blk) (fnOf who) → f.info.acc = .RC →
          h = loOf f i / 32 → s.sees who f i = true → s.live f i = true → t.get f i = min evs (2 ^ f.info.width - 1))
      ∧ OnlyChanges (Fld.all.filter (fun f => f.info.acc == .RC)) [.tb, .out] s t)
  ∧ (∀ (s : State) (who off evs : Nat), off % 8 = 0 →
    ∃ t, exec (.rcCounterRead who off 8 evs) s = .next t
      ∧ t.out = s.out ++ ([.readData who off 8 (s.word who off + s.word who (off + 4) * 2 ^ 32)] : List Out)
      ∧ (∀ f i h k, k < 2 → blkBase f.info.blk ≤ off + 4 * k → (i, h) ∈ elems f (off + 4 * k - blkBase f.info.blk) (fnOf who) →
          f.info.acc = .RC → h = loOf f i / 32 → s.sees who f i = true → s.live f i = true →
          t.get f i = min (if k = 0 then evs % 2 ^ 32 else evs / 2 ^ 32) (2 ^ f.info.width - 1))
      ∧ OnlyChanges (Fld.all.filter (fun f => f.info.acc == .RC)) [.tb, .out] s t)
  ∧ (∀ (s : State) (write : Bool) (off len : Nat), ¬ ((len = 4 ∨ len = 8) ∧ off % len = 0) →
    ∃ t, exec (.bar0BadAccess write off len) s = .next t ∧ t.get .PCX_UR_COUNT = satAdd 32 (s.get .PCX_UR_COUNT) 1
      ∧ t.out = s.out ++ (if write then [] else [.unsupported off len]) ∧ OnlyChanges [.PCX_UR_COUNT] [.out] s t)
  ∧ (∀ (s : State) (who off len v evs : Nat), ¬ ((len = 4 ∨ len = 8) ∧ off % len = 0) →
    exec (.registerWrite who off len v evs) s = exec (.bar0BadAccess true off len) s
      ∧ exec (.rcCounterRead who off len evs) s = exec (.bar0BadAccess false off len) s)

/-- Access codes of plain fields (R20). `evs` are the W1C bits that hardware sets in the cycle of the write: they stand at 1. -/
def Obligations.RegisterWrites : Prop :=
  (∀ (s : State) (who off v evs : Nat), off % 4 = 0 → v < 2 ^ 32 → evs < 2 ^ 32 → plainOff off = true →
    ∃ t, exec (.registerWrite who off 4 v evs) s = .next t
      ∧ (∀ f i h, blkBase f.info.blk ≤ off → (i, h) ∈ elems f (off - blkBase f.info.blk) (fnOf who) → ownEffect f = false →
          s.mayWrite who f i = true → s.live f i = true → s.locked f i = false →
          32 * h ≤ loOf f i → loOf f i + f.info.width ≤ 32 * h + 32 →
          (f.info.acc = .RW → t.get f i = bits v (loOf f i - 32 * h) f.info.width)
          ∧ (f.info.acc = .W1C → ∀ b, b < f.info.width →
              bit (t.get f i) b = ((bit (s.get f i) b && !bit v (loOf f i - 32 * h + b)) || bit evs (loOf f i - 32 * h + b)))
          ∧ (f.info.acc = .RO ∨ f.info.acc = .RC → t.get f i = s.get f i)
          ∧ (f.info.acc = .RL → s.is .MBX_SETUP_COMMITTED = true → t.get f i = s.get f i))
      ∧ (evs = 0 → ∀ f i, t.get f i ≠ s.get f i → s.mayWrite who f i = true ∧ s.live f i = true ∧ blkBase f.info.blk ≤ off
          ∧ ∃ h, (i, h) ∈ elems f (off - blkBase f.info.blk) (fnOf who))
      ∧ OnlyChanges Fld.all [] s t)
  ∧ (∀ (s : State) (who len v i : Nat) (f : Fld), f.info.acc = .RL → s.is .MBX_SETUP_COMMITTED = true → len = 4 ∨ len = 8 →
    ∃ t, exec (.registerWrite who (addrOf f / len * len) len v 0) s = .next t ∧ t.get f i = s.get f i
      ∧ t.readField f i = s.get f i)

/-- LAUNCH on the crown and elsewhere (02_tally.md, 09_host_rings.md). -/
def Obligations.LaunchRequests : Prop :=
  (∀ (s : State) (fn : Nat) (d : Sub) (r : List (List Byte)), s.subFor fn 4 = some (d, r) →
    (bit (d.argN 17 1) 0 && bit (d.argN 17 1) 1) = false →
    ((bit (d.argN 17 1) 0 || bit (d.argN 17 1) 1) && d.argN 32 8 == 0) = false →
    s.is .TIM_CTRL_CROWN = true → (s.part d.q).coording = false →
    ∃ t k m, exec (.launch fn) s = .next t ∧ max 0x4000 (s.get .TIM_LAUNCH_LEAD_LEAD) ≤ k ∧ k < 2 ^ 33
      ∧ m = { part := d.q, src := s.coord, dil := bits (d.argN 16 1) 0 3, record := bit (d.argN 17 1) 0,
              replay := bit (d.argN 17 1) 1, allowMix := bit (d.argN 17 1) 2, dclass := s.get .CHK_CLASS_DCLASS,
              l := (s.tally + k) % 2 ^ 56, seed := d.argN 8 8, ckpt := d.argN 24 8, image := ofLE (s.image d.q).digest,
              ref := d.argN 32 8 }
      ∧ t.part d.q = { s.part d.q with coording := true, crowned := true, armedBy := [], refusedBy := none, launchFn := fn,
                                       launchTag := d.tag, launchIrq := d.irq, cmsg := m }
      ∧ Sent 22 false ((s.memberCoords d.q).map (fun c => s.pkTo 22 22 d.q c (.launch 1 m))) s t
      ∧ t.ctl.ejq = s.ctl.ejq ∧ t.hre = (s.setFetched fn r).hre ∧ t.free = s.free + 1
      ∧ OnlyChanges [] [.part d.q, .hre, .ctl, .free] s t)
  ∧ (∀ (s : State) (fn : Nat) (d : Sub) (r : List (List Byte)) (st : Nat), s.subFor fn 4 = some (d, r) →
    (let bad := (bit (d.argN 17 1) 0 && bit (d.argN 17 1) 1) || ((bit (d.argN 17 1) 0 || bit (d.argN 17 1) 1) && d.argN 32 8 == 0)
     (bad = true ∧ st = 1) ∨ (bad = false ∧ s.is .TIM_CTRL_CROWN = false ∧ st = 6)
      ∨ (bad = false ∧ s.is .TIM_CTRL_CROWN = true ∧ (s.part d.q).coording = true ∧ st = 3)) →
    ∃ t, exec (.launch fn) s = .next t ∧ DoneWith fn d r st s t ∧ SubFrame fn s t ∧ OnlyChanges [] [.hre] s t)
  ∧ (∀ (s : State) (fn : Nat), s.subFor fn 4 = none → exec (.launch fn) s = .next s)

/-- ARM: armed or refused (02_tally.md, 12_block_image_to_stamp.md). `c` is the code of the first condition that fails. -/
def Obligations.LaunchArm : Prop :=
  (∀ (s : State) (m : LaunchMsg) (im : Image), 0 ≤ cmp32 m.l s.tally → m.dil ≤ 4 → s.runSt m.part = 0 → (s.part m.part).image = some im →
    im.digest = toLE 32 m.image →
    (∀ p ∈ im.img.ports, s.portOk im p = true ∧ s.get .LNK_P_PATH_ALLOW p.port ≤ p.allow) →
    (m.ckpt = 0 ∨ s.ckptValid im m.ckpt = true) → s.is .TIM_STATUS_LOCK = true →
    (m.dclass = s.get .CHK_CLASS_DCLASS ∨ m.allowMix = true) →
    im.pace * (dilation m.dil).2 ≤ s.get .PWR_PACE_FLOOR_FLOOR * (dilation m.dil).1 →
    ∃ t, exec (.arm m) s = .next t ∧ t.runSt m.part = 1
      ∧ t.part m.part = { s.part m.part with msg := m, commit := false, flrStop := false, missCommit := false }
      ∧ t.get .MEM_STAT_IN_SR = 0 ∧ (s.get .MEM_STAT_IN_SR ≠ 0 → t.get .MEM_CTRL_SR_REQ = 0)
      ∧ Sent 22 false [s.pkTo 22 22 m.part m.src (.launch 2 { m with src := s.coord, refuse := 0, dclass := s.get .CHK_CLASS_DCLASS })] s t
      ∧ Took 22 false (fun p => p.payload == .launch 1 m) s t
      ∧ OnlyAt [.MEM_STAT_IN_SR, .MEM_CTRL_SR_REQ] [(.TIM_LAUNCH_STATE_STATE, m.part)] [.part m.part, .ctl] s t)
  ∧ (∀ (s : State) (m : LaunchMsg) (im : Image) (c : Nat),
    (let fits := im.digest = toLE 32 m.image ∧ (∀ p ∈ im.img.ports, s.portOk im p = true ∧ s.get .LNK_P_PATH_ALLOW p.port ≤ p.allow)
       ∧ (m.ckpt = 0 ∨ s.ckptValid im m.ckpt = true)
     let idle := 0 ≤ cmp32 m.l s.tally ∧ m.dil ≤ 4 ∧ s.runSt m.part = 0
     let held := (s.part m.part).image = some im
     let mixed := m.dclass ≠ s.get .CHK_CLASS_DCLASS ∧ m.allowMix = false
     (cmp32 m.l s.tally < 0 ∧ c = 1) ∨ (0 ≤ cmp32 m.l s.tally ∧ 4 < m.dil ∧ c = 6)
      ∨ (0 ≤ cmp32 m.l s.tally ∧ m.dil ≤ 4 ∧ s.runSt m.part ≠ 0 ∧ c = 7)
      ∨ (idle ∧ (s.part m.part).image = none ∧ c = 4) ∨ (idle ∧ held ∧ ¬ fits ∧ c = 4)
      ∨ (idle ∧ held ∧ fits ∧ s.is .TIM_STATUS_LOCK = false ∧ c = 5)
      ∨ (idle ∧ held ∧ fits ∧ s.is .TIM_STATUS_LOCK = true ∧ mixed ∧ c = 3)
      ∨ (idle ∧ held ∧ fits ∧ s.is .TIM_STATUS_LOCK = true ∧ ¬ mixed
          ∧ s.get .PWR_PACE_FLOOR_FLOOR * (dilation m.dil).1 < im.pace * (dilation m.dil).2 ∧ c = 2)) →
    ∃ t, exec (.arm m) s = .next t ∧ t.get .TIM_LAUNCH_STATE_REFUSE m.part = c ∧ t.runSt m.part = s.runSt m.part
      ∧ t.get .MEM_STAT_IN_SR = 0
      ∧ Sent 22 false [s.pkTo 22 22 m.part m.src (.launch 3 { m with src := s.coord, refuse := c, dclass := s.get .CHK_CLASS_DCLASS })] s t
      ∧ Took 22 false (fun p => p.payload == .launch 1 m) s t
      ∧ Raised { code := 0x1005, part := some m.part, detail := c + m.l % 2 ^ 48 * 256 } s t
      ∧ (s.boot.perst = false → Formed (if (s.part m.part).crowned then (s.part m.part).launchFn else (s.part m.part).loadFn)
          { kind := 3, irq := true, status := 5, tag := if (s.part m.part).crowned then (s.part m.part).launchTag else 0,
            detail := toLE 1 m.part ++ toLE 1 c ++ toLE 2 s.coord } s t)
      ∧ OnlyAt (evFlds ++ ([.MEM_STAT_IN_SR, .MEM_CTRL_SR_REQ] : List Fld)) [(.TIM_LAUNCH_STATE_REFUSE, m.part)] (evComps ++ ([.ctl] : List Comp)) s t)

/-- ARMED, REFUSE, COMMIT, ABORT and a launch not committed (02_tally.md, 09_host_rings.md). An armed partition that a function level
reset met is stopped, not idle, when its launch comes to nothing. -/
def Obligations.LaunchHandshake : Prop :=
  (∀ (s : State) (m : LaunchMsg), (s.part m.part).coording = true → m.l = (s.part m.part).cmsg.l → m.src ∉ (s.part m.part).armedBy →
    (s.memberCoords m.part).all (fun c => c ∈ (s.part m.part).armedBy ++ [m.src]) = false →
    ∃ t, exec (.armed m) s = .next t ∧ t.part m.part = { s.part m.part with armedBy := (s.part m.part).armedBy ++ [m.src] }
      ∧ Sent 22 false [] s t ∧ Took 22 false (fun p => p.payload == .launch 2 m) s t ∧ OnlyChanges [] [.part m.part, .ctl] s t)
  ∧ (∀ (s : State) (m : LaunchMsg), (s.part m.part).coording = true → m.l = (s.part m.part).cmsg.l →
    (s.memberCoords m.part).all (fun c => c ∈ (s.part m.part).armedBy ++ [m.src]) = true →
    ∃ t, exec (.armed m) s = .next t ∧ (t.part m.part).coording = false
      ∧ Sent 22 false ((s.memberCoords m.part).map (fun c => s.pkTo 22 22 m.part c (.launch 4 (s.part m.part).cmsg))) s t
      ∧ Took 22 false (fun p => p.payload == .launch 2 m) s t
      ∧ (s.boot.perst = false → Formed (s.part m.part).launchFn
          { kind := 1, irq := (s.part m.part).launchIrq, tag := (s.part m.part).launchTag, detail := toLE 1 m.part ++ toLE 1 4 } s t)
      ∧ OnlyChanges [] [.part m.part, .ctl, .hre] s t)
  ∧ (∀ (s : State) (m : LaunchMsg), (s.part m.part).coording = true → m.l = (s.part m.part).cmsg.l →
    ∃ t, exec (.refuse m) s = .next t
      ∧ t.part m.part = { s.part m.part with coording := false, refusedBy := some (m.refuse, m.src) }
      ∧ Sent 22 false ((s.memberCoords m.part).map (fun c => s.pkTo 22 22 m.part c (.launch 5 (s.part m.part).cmsg))) s t
      ∧ Took 22 false (fun p => p.payload == .launch 3 m) s t ∧ OnlyChanges [] [.part m.part, .ctl] s t)
  ∧ (∀ (s : State) (m : LaunchMsg), ((s.part m.part).coording = false ∨ m.l ≠ (s.part m.part).cmsg.l) →
    (∃ t, exec (.armed m) s = .next t ∧ Sent 22 false [] s t ∧ OnlyChanges [] [.ctl] s t)
      ∧ ∃ t, exec (.refuse m) s = .next t ∧ Sent 22 false [] s t ∧ OnlyChanges [] [.ctl] s t)
  ∧ (∀ (s : State) (m : LaunchMsg), s.runSt m.part = 1 → (s.part m.part).missCommit = false → m.l = (s.part m.part).msg.l →
    ((max 0x400 (s.get .TIM_COMMIT_MARGIN_MARGIN) : Nat) : Int) ≤ cmp32 m.l s.tally →
    ∃ t, exec (.commit m) s = .next t ∧ t.runSt m.part = 2 ∧ t.part m.part = { s.part m.part with commit := true }
      ∧ Sent 22 false [] s t ∧ Took 22 false (fun p => p.payload == .launch 4 m) s t
      ∧ OnlyAt [] [(.TIM_LAUNCH_STATE_STATE, m.part)] [.part m.part, .ctl] s t)
  ∧ (∀ (s : State) (m : LaunchMsg), (cmp32 m.l s.tally < ((max 0x400 (s.get .TIM_COMMIT_MARGIN_MARGIN) : Nat) : Int)
      ∨ s.runSt m.part ≠ 1 ∨ (s.part m.part).missCommit = true ∨ m.l ≠ (s.part m.part).msg.l) →
    ∃ t, exec (.commit m) s = .next t ∧ OnlyChanges [] [.ctl] s t)
  ∧ (∀ (s : State) (m : LaunchMsg), (s.runSt m.part = 1 ∨ s.runSt m.part = 2) → m.l = (s.part m.part).msg.l →
    let flr := (s.part m.part).flrStop && !(s.part m.part).missCommit
    ∃ t, exec (.abort m) s = .next t ∧ t.runSt m.part = (if flr then 4 else 0)
      ∧ t.part m.part = { s.part m.part with commit := false, flrStop := false, missCommit := false }
      ∧ Sent 22 false [] s t ∧ Took 22 false (fun p => p.payload == .launch 5 m) s t
      ∧ (flr = true → Raised { code := 0x9003, part := some m.part, skind := 6 } s t)
      ∧ (s.boot.perst = false → ∃ c d, (∀ w, (s.part m.part).refusedBy = some w → (c, d) = w)
          ∧ Formed (if (s.part m.part).crowned then (s.part m.part).launchFn else (s.part m.part).loadFn)
          { kind := 4, irq := true, status := 5, tag := if (s.part m.part).crowned then (s.part m.part).launchTag else 0,
            detail := toLE 1 m.part ++ toLE 1 c ++ toLE 2 d } s t)
      ∧ t.free = s.free + 2
      ∧ OnlyAt (if flr then evFlds else []) [(.TIM_LAUNCH_STATE_STATE, m.part)]
          ((if flr then evComps else [.hre]) ++ ([.part m.part, .ctl, .free] : List Comp)) s t)
  ∧ (∀ (s : State) (m : LaunchMsg), ¬ ((s.runSt m.part = 1 ∨ s.runSt m.part = 2) ∧ m.l = (s.part m.part).msg.l) →
    ∃ t, exec (.abort m) s = .next t ∧ OnlyChanges [] [.ctl] s t)
  ∧ (∀ (s : State) (q : Nat), s.runSt q = 1 →
    cmp32 (s.part q).msg.l s.tally ≤ ((max 0x400 (s.get .TIM_COMMIT_MARGIN_MARGIN) : Nat) : Int) →
    let flr := (s.part q).flrStop && !(s.part q).missCommit
    ∃ t, exec (.launchNotCommitted q) s = .next t ∧ t.runSt q = (if flr then 4 else 0) ∧ t.get .TIM_LAUNCH_STATE_REFUSE q = 8
      ∧ t.part q = { s.part q with commit := false, flrStop := false, missCommit := false }
      ∧ Sent 22 false [s.pkTo 22 22 q (s.part q).msg.src (.launch 3 { (s.part q).msg with src := s.coord, refuse := 8 })] s t
      ∧ t.ctl.ejq = s.ctl.ejq
      ∧ (flr = false → Raised { code := 0x1005, part := some q, detail := 8 + (s.part q).msg.l % 2 ^ 48 * 256 } s t)
      ∧ (s.boot.perst = false → Formed (if (s.part q).crowned then (s.part q).launchFn else (s.part q).loadFn)
          { kind := 3, irq := true, status := 5, tag := if (s.part q).crowned then (s.part q).launchTag else 0,
            detail := toLE 1 q ++ toLE 1 8 ++ toLE 2 s.coord } s t)
      ∧ OnlyAt evFlds [(.TIM_LAUNCH_STATE_STATE, q), (.TIM_LAUNCH_STATE_REFUSE, q)] (evComps ++ ([.ctl, .part q] : List Comp)) s t)

/-- The launch takes effect (02_tally.md, 05_step_lists.md, 11_sequencer_cores.md, 13_same_bits_twice.md, 12_block_image_to_stamp.md).
`st` is the first step: 0, or the one after the step of the checkpoint record resumed from. -/
def Obligations.LaunchSlot : Prop :=
  (∀ (s : State) (q : Nat) (m : Image), q < 128 → (s.part q).image = some m → s.runSt q = 2 → (s.part q).commit = true →
    s.tally = (s.part q).msg.l → s.tally < 2 ^ 56 →
    let l := (s.part q).msg
    let h := s.hbmRead l.ckpt 256
    let st := if l.ckpt = 0 then 0 else fieldLE h 4 4 + 1
    let bad := (l.record || l.replay) && s.logBad q m l.ref
    ∃ t, exec (.launchSlot q) s = .next t ∧ t.runSt q = 3 ∧ t.get .TIM_LAUNCH_AT_AT q = l.l ∧ t.get .TIM_LAUNCH_STATE_DIL q = l.dil % 8
      ∧ (t.part q).base = m.img.grid.getD st 0 ∧ (t.part q).startStep = st ∧ (t.part q).stop = none ∧ (t.part q).finished = false
      ∧ t.get .CHK_NDC_COUNT q = (if l.ckpt = 0 then 0 else fieldLE h 136 4)
      ∧ t.get .CHK_PC_CNT_COUNT q = 0 ∧ t.get .SEQ_SEM_HELD q = 0 ∧ t.get .DBG_HALT_STATE q = 0
      ∧ t.get .CHK_RUN_FLAGS q = b2n l.record + 2 * b2n l.replay + 4 * b2n (l.dclass != s.get .CHK_CLASS_DCLASS) + 16 * b2n bad
          + 32 * b2n (l.ckpt != 0)
      ∧ (∀ x ∈ s.ctxsOf q, t.get .SEQ_CTX_STATE_STATE x = 2
          ∧ t.get .SEQ_CTX_STATE_PC x = (if l.ckpt = 0 then s.get .SEQ_CTX_ENTRY_ENTRY x
              else (s.ctx x).resume.getD (fieldLE h 0 4) (s.get .SEQ_CTX_ENTRY_ENTRY x)) % 2 ^ 16
          ∧ ∀ r, t.g x r = 0)
      ∧ (l.ckpt ≠ 0 → ∀ i x, (s.ctxsDeclared q)[i]? = some x → (t.ctx x).dmem = writeBytes [] 0
          (s.hbmRead (l.ckpt + 256 + (((s.ctxsDeclared q).take i).map s.winSize).sum) (s.winSize x)))
      ∧ (∀ w, (s.panel w).part = some q → (t.panel w).win = none ∧ (t.panel w).queue = []
          ∧ (t.panel w).st = .idle ∧ (t.panel w).sbind = [] ∧ (t.panel w).rbind = [] ∧ (t.panel w).mem = (s.panel w).mem
          ∧ (t.panel w).os = (s.panel w).os)
      ∧ (∀ k, look [] t.ctl.wait k = look [] s.ctl.wait k
          ++ (if k = 40 then (m.img.ports.filter (fun p => !s.is .LNK_P_STAT_UP p.port)).map (fun p => localPk 20 18 q
                (.fault { part := q, code := 0x4001, step := some st, srck := 3, node := 64 + p.port })) else [])
          ++ (if k = 32 ∧ (s.part q).flrStop = true then [localPk 16 18 q
                (.fault { part := q, code := 0x9003, step := some st, srck := 6, node := 0 })] else []))
      ∧ ((s.part q).flrStop = true → Raised { code := 0x9003, part := some q, skind := 6, detail := st } s t)
      ∧ OnlyAt ((if (s.part q).flrStop then evFlds else []) ++ ([.SEQ_CTX_STATE_STATE, .SEQ_CTX_STATE_PC, .SEQ_CTX_STATE_LOCKED,
            .SEQ_CTX_ID_LAYER, .SEQ_CTX_ID_OPER, .PNL_SL_SBIND_SEND, .PNL_SL_RBIND_RECV, .PNL_SL_STAT_ACTIVE, .PNL_SL_STAT_QUEUED,
            .PNL_SL_STAT_LASTSEEN] : List Fld))
          ((chkRegs ++ ([.SEQ_SEM_HELD, .DBG_HALT_STATE, .DBG_HALT_HARD, .DBG_HALT_CAUSE, .TIM_LAUNCH_STATE_STATE,
            .TIM_LAUNCH_STATE_DIL, .TIM_LAUNCH_AT_AT] : List Fld)).map (fun f => (f, q))
            ++ (if l.record || l.ckpt != 0 then [(.DBG_C_HBM_OTHER_BYTES, q)] else []))
          ((if (s.part q).flrStop then evComps else []) ++ (if l.record || l.ckpt != 0 then [.mem] else [])
            ++ ([.part q, .panels, .ctxs, .ports, .hre, .ctl] : List Comp)) s t)
  ∧ (∀ (s : State) (q : Nat), s.runSt q ≠ 2 → exec (.launchSlot q) s = .next s)

/-- Issue records, window start and pace (05_step_lists.md, 04_pace_and_seams.md). -/
def Obligations.PanelWindows : Prop :=
  (∀ (s : State) (p q w : Nat), (s.panel p).part = some q → (s.panel p).gated = false → s.runSt q = 3 → (s.part q).haltedAt = none →
    64 ≤ s.slotsAhead q (s.extend q (bits w 64 32)) → bits w 32 10 < s.get .PNL_SL_CFG_DIRN p → 8 ≤ bits w 48 8 →
    bits w 48 8 + (dirEntry (s.panel p).read (bits w 32 10)).2.2 ≤ bits w 96 24 →
    (∀ v, (s.panel p).prev = some v → ((v.start + v.len : Nat) : Int) ≤ s.extend q (bits w 64 32) ∧ v.step < bits w 0 32) →
    s.is .PNL_SL_STAT_LASTSEEN p = false → (s.panel p).queue.length < 4 →
    let r : IssueRec := { parseIssue w with start := (s.extend q (bits w 64 32)).toNat }
    ∃ t, exec (.issueRecord p w) s = .next t
      ∧ t.panel p = { s.panel p with queue := (s.panel p).queue ++ [r], prev := some r }
      ∧ t.get .PNL_SL_STAT_QUEUED p = (s.panel p).queue.length + 1 ∧ OnlyAt [] [(.PNL_SL_STAT_QUEUED, p)] [.panel p] s t)
  ∧ (∀ (s : State) (p q w c : Nat), (s.panel p).part = some q → (s.panel p).gated = false → s.runSt q = 3 → (s.part q).haltedAt = none →
    (let st := s.extend q (bits w 64 32)
     let a36 := 64 ≤ s.slotsAhead q st
     let a32 := bits w 32 10 < s.get .PNL_SL_CFG_DIRN p
     let a33 := 8 ≤ bits w 48 8
     let a34 := bits w 48 8 + (dirEntry (s.panel p).read (bits w 32 10)).2.2 ≤ bits w 96 24
     let a35 := ∀ v, (s.panel p).prev = some v → ((v.start + v.len : Nat) : Int) ≤ st ∧ v.step < bits w 0 32
     let a37 := s.is .PNL_SL_STAT_LASTSEEN p = false
     (¬ a36 ∧ c = 36) ∨ (a36 ∧ ¬ a32 ∧ c = 32) ∨ (a36 ∧ a32 ∧ ¬ a33 ∧ c = 33) ∨ (a36 ∧ a32 ∧ a33 ∧ ¬ a34 ∧ c = 34)
      ∨ (a36 ∧ a32 ∧ a33 ∧ a34 ∧ ¬ a35 ∧ c = 35) ∨ (a36 ∧ a32 ∧ a33 ∧ a34 ∧ a35 ∧ ¬ a37 ∧ c = 37)
      ∨ (a36 ∧ a32 ∧ a33 ∧ a34 ∧ a35 ∧ a37 ∧ 4 ≤ (s.panel p).queue.length ∧ c = 38)) →
    ∃ t b, exec (.issueRecord p w) s = .next t ∧ t.get .PNL_SL_STAT_ERR p = c
      ∧ t.panel p = { s.panel p with bads := (s.panel p).bads ++ [b] }
      ∧ (c ≠ 38 → b = ((s.extend q (bits w 64 32)).toNat + bits w 96 24 - bits w 48 8, bits w 0 32, c))
      ∧ (∀ v, c = 38 → (s.panel p).win = some v → s.reached q (v.start + v.len) = false → b = (dueSlot v, v.step, c))
      ∧ (∀ v l, c = 38 → (s.panel p).win = none → (s.panel p).queue = v :: l → b = (dueSlot v, v.step, c))
      ∧ OnlyAt [] [(.PNL_SL_STAT_ERR, p)] [.panel p] s t)
  ∧ (∀ (s : State) (p w : Nat), ((s.panel p).part = none ∨ (s.panel p).gated = true
      ∨ ∃ q, (s.panel p).part = some q ∧ (s.runSt q ≠ 3 ∨ (s.part q).haltedAt ≠ none)) → exec (.issueRecord p w) s = .next s)
  ∧ (∀ (s : State) (p q : Nat) (r : IssueRec) (rest : List IssueRec), (s.panel p).part = some q → (s.panel p).queue = r :: rest →
    (s.panel p).st = .idle → s.mayStart q r.step = true → s.reached q r.start = true → s.slotTally q r.start = s.tally →
    ∃ t, exec (.stepWindowStart p) s = .next t
      ∧ t.panel p = { s.panel p with lanes := [], rows := [], colsum := [], kind := .unset, written := false, win := some r, queue := rest,
                                     st := .running, vcyc := 0, stretch := 0, holds := 0, seamPos := 0, seamGot := [],
                                     lastOp := (0xFFFF, 0xFFFF) }
      ∧ t.get .PNL_SL_STEP_STEP p = r.step % 2 ^ 32 ∧ t.get .PNL_SL_POS_WORD p = 0 ∧ t.get .PNL_SL_POS_DIR p = r.dir % 2 ^ 16
      ∧ t.get .PNL_SL_STAT_ACTIVE p = 1 ∧ t.get .PNL_SL_STAT_QUEUED p = rest.length % 8
      ∧ t.get .PWR_PACE_CTRL_APPLIED (dieOf p)
          = max (min 288 (max 64 (s.get .PWR_PACE_CTRL_TARGET (dieOf p)))) (s.get .PWR_PACE_FLOOR_FLOOR) % 2 ^ 9
      ∧ (∀ v, (s.part q).wmaskNext = some v → v / 2 ^ 64 < s.curStep q →
          t.get .DBG_WMASK_MASK q = v % 2 ^ 64 ∧ t.part q = { s.part q with wmaskNext := none })
      ∧ ((s.part q).wmaskNext = none → t.get .DBG_WMASK_MASK q = s.get .DBG_WMASK_MASK q ∧ t.part q = s.part q)
      ∧ OnlyAt [] [(.PNL_SL_STEP_STEP, p), (.PNL_SL_POS_WORD, p), (.PNL_SL_POS_DIR, p), (.PNL_SL_STAT_ACTIVE, p),
          (.PNL_SL_STAT_QUEUED, p), (.PWR_PACE_CTRL_APPLIED, dieOf p), (.DBG_WMASK_MASK, q)] [.panel p, .part q] s t)
  ∧ (∀ (s : State) (p : Nat), ((s.panel p).queue = [] ∨ (s.panel p).st ≠ .idle) → exec (.stepWindowStart p) s = .next s)
  ∧ (∀ (s : State) (p q : Nat) (r : IssueRec) (rest : List IssueRec), (s.panel p).part = some q → (s.panel p).queue = r :: rest →
    (s.slotTally q r.start ≠ s.tally ∨ s.mayStart q r.step = false) → exec (.stepWindowStart p) s = .next s)
  ∧ (∀ (s : State) (who d v : Nat), privileged who = true → d < 8 → v < 2 ^ 9 →
    ∃ t, exec (.paceTargetWrite who d v) s = .next t ∧ t.get .PWR_PACE_CTRL_TARGET d = v
      ∧ t.get .PWR_PACE_CTRL_APPLIED d = (if s.dieRuns d then s.get .PWR_PACE_CTRL_APPLIED d else min 288 (max 64 v))
      ∧ OnlyAt [] [(.PWR_PACE_CTRL_TARGET, d), (.PWR_PACE_CTRL_APPLIED, d)] [] s t)
  ∧ (∀ (s : State) (who d v : Nat), privileged who = false → exec (.paceTargetWrite who d v) s = .next s)

/-- TILE (03_panels_and_arithmetic.md, 05_step_lists.md). -/
def Obligations.PanelTile : Prop :=
  ∀ (s : State) (p q : Nat) (r : IssueRec) (o : POp) (f : OpFacts) (kind : LaneKind), PnlAt s p q r o → Quiet f → o.op = 0x01 →
    pairKind o.fmta o.fmtb = some kind → (o.desc 1).cols = (o.desc 0).cols →
    let a (m k : Nat) : Nat := (at2 ((s.panel p).elems (o.desc 0) false (m / 2)) (m % 2) k).1
    let b (m n k : Nat) : Nat := (at2 ((s.panel p).elems (o.desc 1) false (m / 2)) n k).1
    let old (i : Nat) : Lane := if o.accf = 0 then {} else (s.panel p).lane i
    ∃ t x c, exec (.tile p f) s = .next t ∧ PnlRuns s t p q r o f x (1024 * (o.desc 0).cols) c false false
      ∧ x.kind = kind ∧ x.written = true ∧ x.mem = (s.panel p).mem ∧ x.os = (s.panel p).os ∧ x.st = .running
      ∧ x.sbind = (s.panel p).sbind ∧ x.rbind = (s.panel p).rbind ∧ x.faults = (s.panel p).faults
      ∧ (kind = .fuller → ∀ m n, m < 32 → n < 32 → (x.lane (32 * m + n)).v = (old (32 * m + n)).v
          + ((List.range (o.desc 0).cols).map (fun k =>
              (product (elemVal o.fmta (a m k)) (elemVal o.fmtb (b m n k)) 32).1.v)).sum)
      ∧ (kind = .fp → ∀ m n, m < 32 → n < 32 → (x.lane (32 * m + n)).f = (reduce121 (old (32 * m + n)).f
          ((List.range (o.desc 0).cols).map (fun k => (mulV 0 false (decodeF o.fmta (a m k)) (decodeF o.fmtb (b m n k)) 0).1))
          (ceilDiv (o.desc 0).cols 16)).1)
      ∧ (∀ m n, m < 32 → n < 32 → (x.lane (32 * m + n)).poison = ((old (32 * m + n)).poison
          || (List.range (o.desc 0).cols).any (fun k => (at2 ((s.panel p).elems (o.desc 0) false (m / 2)) (m % 2) k).2)
          || (List.range (o.desc 0).cols).any (fun k => (at2 ((s.panel p).elems (o.desc 1) false (m / 2)) n k).2)))

/-- Operations on the panel itself (03_panels_and_arithmetic.md, 05_step_lists.md, 13_same_bits_twice.md). -/
def Obligations.PanelCompute : Prop :=
  (∀ (s : State) (p q : Nat) (r : IssueRec) (o : POp) (f : OpFacts), PnlAt s p q r o → Quiet f → o.op = 0x02 →
    let e (i : Nat) : Nat × Bool := at2 ((s.panel p).source (o.desc 0) false) (i / 32) (i % 32)
    ∃ t x ovf, exec (.lload p f) s = .next t ∧ PnlRuns s t p q r o f x 0 {} ovf false
      ∧ (ovf = true ↔ ∃ i, i < 1024 ∧ ovfEl (o.desc 0).fmt (e i).1 = true)
      ∧ x.kind = (if o.kindf = 0 then .fuller else .fp) ∧ x.written = true ∧ x.mem = (s.panel p).mem ∧ x.os = (s.panel p).os
      ∧ x.sbind = (s.panel p).sbind ∧ x.rbind = (s.panel p).rbind ∧ x.faults = (s.panel p).faults
      ∧ (o.kindf = 0 → ∀ i, i < 1024 → (x.lane i).poison = ((e i).2 || ovfEl (o.desc 0).fmt (e i).1)
          ∧ (x.lane i).v = (if (o.desc 0).fmt = 8 then (ful80 (e i).1).v else (termOf (elemVal (o.desc 0).fmt (e i).1) 32).v)
          ∧ (x.lane i).flags = (if (o.desc 0).fmt = 8 then (ful80 (e i).1).flags else (termOf (elemVal (o.desc 0).fmt (e i).1) 32).flags))
      ∧ (o.kindf ≠ 0 → ∀ i, i < 1024 → x.lane i = { f := widen (o.desc 0).fmt (e i).1, poison := (e i).2 }))
  ∧ (∀ (s : State) (p q : Nat) (r : IssueRec) (o : POp) (f : OpFacts), PnlAt s p q r o → Quiet f → o.op = 0x03 →
    let out (m n : Nat) : Nat × Cnt × Bool := laneOut (s.panel p).kind ((s.panel p).lane (32 * m + n)) (o.desc 0).fmt o.rnd o.sat
      (wordFor (s.part q).msg.seed o m n)
    ∃ t rows ovf, exec (.lstore p f) s = .next t
      ∧ PnlRuns s t p q r o f { ((s.panel p).store (o.desc 0) (packRows (fmtBits (o.desc 0).fmt) rows)).clearLanes with
          written := false } 0 (lstoreOp (s.panel p) o (s.part q).msg.seed).cnt ovf false
      ∧ RowsAre { rows := 32, cols := 32 } rows
          (fun m n => ((out m n).1, ((s.panel p).lane (32 * m + n)).poison || (out m n).2.2))
      ∧ (ovf = true ↔ ∃ m n, m < 32 ∧ n < 32 ∧ (out m n).2.2 = true))
  ∧ (∀ (s : State) (p q : Nat) (r : IssueRec) (o : POp) (f : OpFacts), PnlAt s p q r o → Quiet f → o.op = 0x04 →
    let sums : List (Option Bool) := (List.range 32).map (fun m => chkSum (s.panel p).kind
          ((List.range 32).map (fun n => (s.panel p).lane (32 * m + n))) ((s.panel p).rows.getD m {}))
      ++ (List.range 32).map (fun n => chkSum (s.panel p).kind
          ((List.range 32).map (fun m => (s.panel p).lane (32 * m + n))) ((s.panel p).colsum.getD n {}))
    let fail := sums.any (fun c => c == some false)
    ∃ t x, exec (.pcheck p f) s = .next t ∧ PnlRuns s t p q r o f x 0 {} false fail
      ∧ t.get .CHK_PC_CNT_COUNT q = satAdd 64 (s.get .CHK_PC_CNT_COUNT q) 1
      ∧ t.get .CHK_PC_SKIP_COUNT q = satAdd 64 (s.get .CHK_PC_SKIP_COUNT q) (sums.filter (fun c => c.isNone)).length
      ∧ x = { s.panel p with lanes := x.lanes, written := false }
      ∧ ∀ i, i < 1024 → (x.lane i).v = ((s.panel p).lane i).v ∧ (x.lane i).f = ((s.panel p).lane i).f
          ∧ (x.lane i).poison = (((s.panel p).lane i).poison || fail))
  ∧ (∀ (s : State) (p q : Nat) (r : IssueRec) (o : POp) (f : OpFacts),
    let ab (e : List (Nat × Bool)) (k : Nat) : Nat := (e.getD k (0, false)).1
    ∀ c ∈ ([(.vec, fun o => o.op == 0x08 && !isReduce o.fn, vecEl (s.get .CHK_CLASS_DCLASS)),
      (.foldTree, fun o => o.op == 0x20 && o.mode == 0, fun _ _ e => ((addQuiet (ab e 0) (ab e 1)).1, (addQuiet (ab e 0) (ab e 1)).2, false)),
      (.foldLift, fun o => o.op == 0x20 && o.mode == 1, fun o _ e =>
        let u : Ful := if (o.desc 1).fmt = 8 then widenFul (ful80 (ab e 0)) else termOf (elemVal (o.desc 1).fmt (ab e 0)) 160
        (ful384Out u, {}, bit u.flags 3)),
      (.foldExact, fun o => o.op == 0x20 && o.mode == 2, fun _ _ e =>
        let u := fulAdd 376 (ful384 (ab e 0)) (ful384 (ab e 1))
        (ful384Out u, {}, bit u.flags 3)),
      (.foldRound, fun o => o.op == 0x20 && o.mode == 3, fun o w e =>
        let u := readOut (ful384 (ab e 0)) 160 (o.desc 0).fmt o.rnd o.sat w
        (u.1, u.2, bit (ful384 (ab e 0)).flags 3)),
      (.rfill, fun o => o.op == 0x28, fun o w _ => (rfillEl o w, {}, false))] :
        List ((Nat → OpFacts → Instr) × (POp → Bool) × (POp → Nat → List (Nat × Bool) → Nat × Cnt × Bool))),
    PnlAt s p q r o → Quiet f → c.2.1 o = true →
    let el (i j : Nat) : List (Nat × Bool) :=
      (List.range (o.nDesc - 1)).map (fun k => at2 ((s.panel p).source (o.desc (k + 1)) (o.isBitmap (k + 1))) i j)
    let v (i j : Nat) : Nat × Cnt × Bool := c.2.2 o (wordFor (s.part q).msg.seed o i j) (el i j)
    ∃ t rows ovf, exec (c.1 p f) s = .next t
      ∧ PnlRuns s t p q r o f ((s.panel p).store (o.desc 0) (packRows (elBits (o.desc 0) (o.isBitmap 0)) rows)) 0
          (elemOp (s.panel p) (s.panel p) o (s.get .CHK_CLASS_DCLASS) (s.part q).msg.seed f.shadowBad).cnt ovf false
      ∧ RowsAre (o.desc 0) rows (fun i j => ((v i j).1, f.shadowBad || (v i j).2.2 || depends o (el i j)))
      ∧ (ovf = true ↔ ∃ i j, i < (o.desc 0).rows ∧ j < (o.desc 0).cols ∧ (v i j).2.2 = true))
  ∧ (∀ (s : State) (p q : Nat) (r : IssueRec) (o : POp) (f : OpFacts), PnlAt s p q r o → Quiet f → o.op = 0x08 → isReduce o.fn = true →
    2 ≤ o.nDesc →
    let row (i : Nat) : List (Nat × Bool) := ((s.panel p).source (o.desc 1) (o.isBitmap 1)).getD i []
    let v (i j : Nat) : Nat × Cnt × Bool := reduceRow o (wordFor (s.part q).msg.seed o i j) (row i)
    ∃ t rows ovf, exec (.vec p f) s = .next t
      ∧ PnlRuns s t p q r o f ((s.panel p).store (o.desc 0) (packRows (elBits (o.desc 0) (o.isBitmap 0)) rows)) 0
          (elemOp (s.panel p) (s.panel p) o (s.get .CHK_CLASS_DCLASS) (s.part q).msg.seed f.shadowBad).cnt ovf false
      ∧ RowsAre (o.desc 0) rows (fun i j => ((v i j).1, f.shadowBad || (v i j).2.2 || (row i).any (·.2)))
      ∧ (ovf = true ↔ ∃ i j, i < (o.desc 0).rows ∧ j < (o.desc 0).cols ∧ (v i j).2.2 = true))

/-- MOVE, SEND and RECV (05_step_lists.md, 04_pace_and_seams.md). A MOVE at a seam passes one entry a pace edge, one command (log entry
141). -/
def Obligations.PanelMoves : Prop :=
  (∀ (s : State) (p q : Nat) (r : IssueRec) (o : POp) (f : OpFacts), PnlAt s p q r o → Quiet f → o.op = 0x10 →
    (o.desc 0).space < 2 → (o.desc 1).space < 2 →
    let src := (s.panel p).source (o.desc 1) false
    ∃ t, exec (.move p f) s = .next t ∧ PnlRuns s t p q r o f
      ((s.panel p).store (o.desc 0) (packRows (fmtBits (o.desc 1).fmt)
        (src.map (fun l => l.map (fun e => (e.1, e.2 || ovfEl (o.desc 1).fmt e.1)))))) 0 {}
      (src.any (fun l => l.any (fun e => ovfEl (o.desc 1).fmt e.1))) false)
  ∧ (∀ (s : State) (p q l w : Nat) (r : IssueRec) (o : POp) (f : OpFacts), PnlAt s p q r o → Quiet f → o.op = 0x10 → 2 ≤ (o.desc 0).space →
    neighbour (s.panel p).logical ((o.desc 0).space - 2) = some l → s.winOfLog l = w → w ≠ p →
    let k := opposite ((o.desc 0).space - 2)
    let n := (s.panel p).seamPos
    let out := seamOut (s.panel p) o
    ((s.panel w).seam k).length < 4 →
    ∃ t, exec (.move p f) s = .next t
      ∧ t.panel w = { s.panel w with seams := (ins (s.panel w).seams k ((s.panel w).seam k
          ++ [{ bytes := out.getD n [], step := r.step, due := dueSlot r }])) }
      ∧ (n + 1 < out.length → t.panel p = { s.panel p with seamPos := n + 1, stretch := (s.panel p).stretch + f.stretched }
          ∧ t.get .PNL_SL_POS_WORD p = s.get .PNL_SL_POS_WORD p)
      ∧ (out.length ≤ n + 1 → Counted s t p q o f 0 {} ∧ t.get .PNL_SL_POS_WORD p = (s.get .PNL_SL_POS_WORD p + 1 + o.nw) % 2 ^ 16
          ∧ t.panel p = { countedOp o f (s.panel p) with
            faults := (s.panel p).faults ++ opNotes p q r o ((s.panel p).consumes o)
              (((s.panel p).source (o.desc 1) false).any (fun l => l.any (fun e => ovfEl (o.desc 1).fmt e.1))) false false })
      ∧ OnlyAt [] (opFlds p q) [.panel p, .panel w] s t)
  ∧ (∀ (s : State) (p q l w : Nat) (r : IssueRec) (o : POp) (f : OpFacts), PnlAt s p q r o → Quiet f → o.op = 0x10 → 2 ≤ (o.desc 0).space →
    neighbour (s.panel p).logical ((o.desc 0).space - 2) = some l → s.winOfLog l = w →
    4 ≤ ((s.panel w).seam (opposite ((o.desc 0).space - 2))).length →
    ∃ t, exec (.move p f) s = .next t
      ∧ t.panel p = { s.panel p with holds := (s.panel p).holds + 1, stretch := (s.panel p).stretch + f.stretched }
      ∧ t.get .PNL_SEAM_HOLD_COUNT p = satAdd 32 (s.get .PNL_SEAM_HOLD_COUNT p) 1
      ∧ OnlyAt [] [(.PNL_SEAM_HOLD_COUNT, p), (.PNL_STRETCH_COUNT, p)] [.panel p] s t)
  ∧ (∀ (s : State) (p q : Nat) (r : IssueRec) (o : POp) (f : OpFacts), PnlAt s p q r o → Quiet f → o.op = 0x10 →
    (o.desc 0).space < 2 → 2 ≤ (o.desc 1).space →
    let k := (o.desc 1).space - 2
    ((s.panel p).seam k = [] → ∃ t, exec (.move p f) s = .next t
      ∧ t.panel p = { s.panel p with stretch := (s.panel p).stretch + f.stretched }
      ∧ t.get .PNL_SEAM_WAIT_COUNT p = satAdd 32 (s.get .PNL_SEAM_WAIT_COUNT p) 1
      ∧ OnlyAt [] [(.PNL_SEAM_WAIT_COUNT, p), (.PNL_STRETCH_COUNT, p)] [.panel p] s t)
    ∧ (∀ e es, (s.panel p).seam k = e :: es →
      let x : Panel := { s.panel p with seams := ins (s.panel p).seams k es, seamGot := (s.panel p).seamGot ++ [e.bytes] }
      ∃ t, exec (.move p f) s = .next t
        ∧ (x.seamGot.length < seamNeed (o.desc 1) → t.panel p = { x with stretch := x.stretch + f.stretched }
            ∧ OnlyAt [] [(.PNL_STRETCH_COUNT, p)] [.panel p] s t)
        ∧ (seamNeed (o.desc 1) ≤ x.seamGot.length → PnlRuns s t p q r o f (seamIn x o x.seamGot).x 0 {} (seamIn x o x.seamGot).ovf false)))
  ∧ (∀ (s : State) (p q l w : Nat) (r : IssueRec) (o : POp) (f : OpFacts) (e : SeamEntry) (es : List SeamEntry), PnlAt s p q r o →
    f = { pair := some {} } → o.op = 0x10 → 2 ≤ (o.desc 0).space →
    neighbour (s.panel p).logical ((o.desc 0).space - 2) = some l → s.winOfLog l = w → w ≠ p →
    s.readsSeam w (opposite ((o.desc 0).space - 2)) = true →
    (s.panel w).seam (opposite ((o.desc 0).space - 2))
      ++ [{ bytes := (seamOut (s.panel p) o).getD (s.panel p).seamPos [], step := r.step, due := dueSlot r }] = e :: es →
    ∃ t, exec (.move p f) s = .next t ∧ (t.panel w).seam (opposite ((o.desc 0).space - 2)) = es
      ∧ t.get .PNL_SEAM_HOLD_COUNT p = s.get .PNL_SEAM_HOLD_COUNT p ∧ t.get .PNL_SEAM_WAIT_COUNT w = s.get .PNL_SEAM_WAIT_COUNT w
      ∧ (t.panel p).holds = (s.panel p).holds)
  ∧ (∀ (s : State) (p q : Nat) (r : IssueRec) (o : POp) (f : OpFacts), PnlAt s p q r o → Quiet f → o.op = 0x18 →
    ∃ t, exec (.send p f) s = .next t
      ∧ t.panel p = countedOp o f { s.panel p with sbind := (ins (s.panel p).sbind o.bindI
          { stream := o.stream, reg := o.desc 0, step := r.step, layer := o.layer, oper := o.oper }) }
      ∧ bit (t.get .PNL_SL_SBIND_SEND p) o.bindI = true ∧ Counted s t p q o f 0 {}
      ∧ t.get .PNL_SL_POS_WORD p = (s.get .PNL_SL_POS_WORD p + 1 + o.nw) % 2 ^ 16
      ∧ OnlyAt [] (opFlds p q ++ [(.PNL_SL_SBIND_SEND, p)]) [.panel p] s t)
  ∧ (∀ (s : State) (p q : Nat) (r : IssueRec) (o : POp) (f : OpFacts), PnlAt s p q r o → Quiet f → o.op = 0x19 →
    ∃ t, exec (.recv p f) s = .next t
      ∧ t.panel p = countedOp o f { s.panel p with rbind := (ins (s.panel p).rbind o.bindI
          { stream := o.stream, reg := o.desc 0, step := r.step, layer := o.layer, oper := o.oper }) }
      ∧ bit (t.get .PNL_SL_RBIND_RECV p) o.bindI = true ∧ Counted s t p q o f 0 {}
      ∧ t.get .PNL_SL_POS_WORD p = (s.get .PNL_SL_POS_WORD p + 1 + o.nw) % 2 ^ 16
      ∧ OnlyAt [] (opFlds p q ++ [(.PNL_SL_RBIND_RECV, p)]) [.panel p] s t)

/-- WAIT, REST, MARK and END (05_step_lists.md, 16_watching_a_run.md). -/
def Obligations.PanelWaits : Prop :=
  (∀ (s : State) (p q : Nat) (r : IssueRec) (o : POp) (f : OpFacts), PnlAt s p q r o → Quiet f → o.op = 0x30 → o.mode = 0 →
    ∃ t, exec (.waitSlot p f) s = .next t
      ∧ (s.reached q (r.start + o.p32) = true → PnlRuns s t p q r o f (s.panel p) 0 {} false false)
      ∧ (s.reached q (r.start + o.p32) = false → t.panel p = countedOp o f { s.panel p with st := .waitSlot (r.start + o.p32) }
          ∧ t.get .PNL_SL_POS_WORD p = s.get .PNL_SL_POS_WORD p)
      ∧ OnlyAt [] (opFlds p q) [.panel p] s t)
  ∧ (∀ (s : State) (p q : Nat) (r : IssueRec) (o : POp) (f : OpFacts), PnlAt s p q r o → Quiet f → o.op = 0x30 → o.mode = 1 →
    let y := (s.panel p).rb o.bindI
    let end_ := s.reached q (r.start + o.p32)
    (o.count ≤ y.got.length ∨ end_ = true) →
    ∃ t, exec (.waitRecv p f) s = .next t ∧ (t.panel p).st = .running
      ∧ ((look? (s.panel p).rbind o.bindI).isSome = true → ((t.panel p).rb o.bindI) = { y with w := max y.w o.count })
      ∧ (t.panel p).mem = (s.panel p).mem
      ∧ (t.panel p).faults = (s.panel p).faults
          ++ (if y.got.length < o.count then [pnlNote p q 0x2009 r.step o.layer o.oper] else [])
      ∧ (∀ k ∈ List.range (min o.count (tuftsOf y.reg)), k ∉ y.got → y.got.length < o.count → ∀ a ∈ tuftKeys y.reg k,
          look false (t.panel p).memPsn (a / 8) = true)
      ∧ (o.count ≤ y.got.length → (t.panel p).memPsn = (s.panel p).memPsn)
      ∧ t.get .PNL_SL_POS_WORD p = (s.get .PNL_SL_POS_WORD p + 1 + o.nw) % 2 ^ 16
      ∧ OnlyAt [] (opFlds p q) [.panel p] s t)
  ∧ (∀ (s : State) (p q : Nat) (r : IssueRec) (o : POp) (f : OpFacts), PnlAt s p q r o → Quiet f → o.op = 0x30 → o.mode = 1 →
    ((s.panel p).rb o.bindI).got.length < o.count → s.reached q (r.start + o.p32) = false →
    ∃ t, exec (.waitRecv p f) s = .next t
      ∧ t.panel p = countedOp o f { s.panel p with st := .waitRecv (r.start + o.p32) o.bindI o.count }
      ∧ t.get .PNL_SL_POS_WORD p = s.get .PNL_SL_POS_WORD p ∧ OnlyAt [] (opFlds p q) [.panel p] s t)
  ∧ (∀ (s : State) (p q sl : Nat) (r : IssueRec), (s.panel p).part = some q → (s.panel p).win = some r → s.reached q (dueSlot r) = false →
    (s.panel p).st = .waitSlot sl →
    ∃ t, exec (.waitComplete p) s = .next t ∧ (s.reached q sl = false → t = s)
      ∧ (s.reached q sl = true → t.panel p = { s.panel p with st := .running }
          ∧ t.get .PNL_SL_POS_WORD p = (s.get .PNL_SL_POS_WORD p + 1) % 2 ^ 16)
      ∧ OnlyAt [] [(.PNL_SL_POS_WORD, p)] [.panel p] s t)
  ∧ (∀ (s : State) (p q sl b n : Nat) (r : IssueRec), (s.panel p).part = some q → (s.panel p).win = some r →
    s.reached q (dueSlot r) = false → (s.panel p).st = .waitRecv sl b n →
    let y := (s.panel p).rb b
    let o := s.atOp p r
    ∃ t, exec (.waitComplete p) s = .next t
      ∧ (¬ (n ≤ y.got.length ∨ s.reached q sl = true) → t = s)
      ∧ (n ≤ y.got.length ∨ s.reached q sl = true → (t.panel p).st = .running
          ∧ ((look? (s.panel p).rbind b).isSome = true → ((t.panel p).rb b) = { y with w := max y.w n })
          ∧ (t.panel p).mem = (s.panel p).mem
          ∧ (t.panel p).faults = (s.panel p).faults ++ (if y.got.length < n then [pnlNote p q 0x2009 r.step o.layer o.oper] else [])
          ∧ (n ≤ y.got.length → (t.panel p).memPsn = (s.panel p).memPsn)
          ∧ (∀ k ∈ List.range (min n (tuftsOf y.reg)), k ∉ y.got → y.got.length < n → ∀ a ∈ tuftKeys y.reg k,
              look false (t.panel p).memPsn (a / 8) = true)
          ∧ t.get .PNL_SL_POS_WORD p = (s.get .PNL_SL_POS_WORD p + 1) % 2 ^ 16)
      ∧ OnlyAt [] [(.PNL_SL_POS_WORD, p)] [.panel p] s t)
  ∧ (∀ (s : State) (p q : Nat) (r : IssueRec) (o : POp) (f : OpFacts), PnlAt s p q r o → Quiet f → o.op = 0x31 →
    ∃ t, exec (.rest p f) s = .next t ∧ t.panel p = countedOp o f { s.panel p with st := .rest (r.start + o.p32) }
      ∧ t.get .PNL_SL_POS_WORD p = s.get .PNL_SL_POS_WORD p ∧ OnlyAt [] (opFlds p q) [.panel p] s t)
  ∧ (∀ (s : State) (p q sl : Nat), (s.panel p).part = some q → (s.panel p).st = .rest sl →
    ∃ t, exec (.restResume p) s = .next t ∧ (s.reached q sl = false → t = s)
      ∧ (s.reached q sl = true → t.panel p = { s.panel p with st := .running }
          ∧ t.get .PNL_SL_POS_WORD p = (s.get .PNL_SL_POS_WORD p + 1) % 2 ^ 16)
      ∧ OnlyAt [] [(.PNL_SL_POS_WORD, p)] [.panel p] s t)
  ∧ (∀ (s : State) (p q : Nat) (r : IssueRec) (o : POp) (f : OpFacts), PnlAt s p q r o → Quiet f → o.op = 0x38 →
    ∃ t, exec (.pmark p f) s = .next t
      ∧ (s.get .DBG_TRC_SIZE_TSIZE q = 0 → s.watchDecl q o = none → PnlRuns s t p q r o f (s.panel p) 0 {} false false)
      ∧ (s.watchDecl q o = none → t.panel p = countedOp o f (s.panel p))
      ∧ (∀ v, s.watchDecl q o = some v → look? (s.panel p).dumps o.watchN = none →
          look? (t.panel p).dumps o.watchN = some {
            ring := v.ring, layer := o.layer, oper := o.oper,
            bytes := s.watchHead q (s.panel p) r.step o.p32 (o.desc 0)
              ++ (packEls (fmtBits (o.desc 0).fmt) ((s.panel p).source (o.desc 0) false).flatten).map (·.1) }
          ∧ (t.panel p).mem = pokes (s.panel p).mem (((packEls (fmtBits (o.desc 0).fmt)
              ((s.panel p).source (o.desc 0) false).flatten).take v.size).zipIdx.map (fun b => (v.off + b.2, b.1)))
          ∧ t.get .DBG_WDROP_COUNT q = s.get .DBG_WDROP_COUNT q)
      ∧ (∀ v x, s.watchDecl q o = some v → look? (s.panel p).dumps o.watchN = some x → t.panel p = countedOp o f (s.panel p)
          ∧ t.get .DBG_WDROP_COUNT q = satAdd 32 (s.get .DBG_WDROP_COUNT q) 1
          ∧ Noted { code := 0xD007, part := some q, sindex := idOf p } s t)
      ∧ t.get .PNL_SL_POS_WORD p = (s.get .PNL_SL_POS_WORD p + 1 + o.nw) % 2 ^ 16
      ∧ OnlyAt evFlds (opFlds p q ++ [(.DBG_WDROP_COUNT, q), (.DBG_TRC_PROD_INDEX, q), (.DBG_TRC_DROP_COUNT, q), (.DBG_C_OBS_BYTES, q)])
          (evComps ++ ([.panel p, .part q, .mem] : List Comp)) s t)
  ∧ (∀ (s : State) (p q n : Nat) (r : IssueRec) (o : POp) (f : OpFacts), PnlAt s p q r o → Quiet f → o.op = 0x3F →
    n = min 65535 (s.slotsAhead q (dueSlot r) - 1).toNat →
    ∃ t, exec (.endList p f) s = .next t ∧ t.panel p = countedOp o f { s.panel p with st := .done }
      ∧ t.get .PNL_STEP_STAT_SLACK p = n ∧ t.get .PNL_SL_STAT_ACTIVE p = 0
      ∧ t.get .PNL_SL_STAT_LASTSEEN p = (if o.lastf then 1 else s.get .PNL_SL_STAT_LASTSEEN p)
      ∧ (s.get .PWR_SLACK_WARN_SLACK ≤ n → OnlyAt [] (opFlds p q ++ [(.PNL_STEP_STAT_SLACK, p), (.PNL_SL_STAT_ACTIVE, p),
          (.PNL_SL_STAT_LASTSEEN, p)]) [.panel p] s t)
      ∧ (n < s.get .PWR_SLACK_WARN_SLACK → Noted { code := 0x2005, part := some q, sindex := idOf p } s t
          ∧ (s.boot.mcDown = false → dieOf p < 8 → bit (t.get .PWR_PACE_EVT_SLACK_WARN) (dieOf p) = true)
          ∧ OnlyAt (evFlds ++ [.PWR_PACE_EVT_SLACK_WARN]) (opFlds p q ++ [(.PNL_STEP_STAT_SLACK, p), (.PNL_SL_STAT_ACTIVE, p),
              (.PNL_SL_STAT_LASTSEEN, p)]) (evComps ++ ([.panel p] : List Comp)) s t))

/-- Decode failures, faults of operations and the deadline (05_step_lists.md, 04_pace_and_seams.md, 07_inside_the_hood.md,
13_same_bits_twice.md, 10_control_rings.md). -/
def Obligations.PanelFaults : Prop :=
  (∀ (s : State) (p q : Nat) (r : IssueRec) (b : Reject) (f : OpFacts), (s.panel p).part = some q → (s.panel p).win = some r →
    (s.panel p).st = .running → s.reached q (dueSlot r) = false → s.boot.tripped = false → Quiet f →
    (s.opAtPos p q r (s.panel p) []).bad = some b → b.2.1 ≠ 17 → b.2.1 < 256 →
    ∀ c ∈ ([.tile, .lload, .lstore, .pcheck, .vec, .move, .send, .recv, .foldTree, .foldLift, .foldExact, .foldRound, .rfill, .waitSlot,
      .waitRecv, .rest, .pmark, .endList] : List (Nat → OpFacts → Instr)),
    ∃ t, exec (c p f) s = .next t ∧ (t.panel p).st = .abandoned (s.get .PNL_SL_POS_WORD p) ∧ (t.panel p).psnAll = true
      ∧ t.get .PNL_SL_STAT_ERR p = b.2.1 ∧ t.get .PNL_SL_POS_WORD p = b.1 % 2 ^ 16 ∧ t.get .PNL_SL_STAT_ACTIVE p = 0
      ∧ (t.panel p).faults = (s.panel p).faults ++ [(pnlMsg p q 0x2006 r.step b.2.2.1 b.2.2.2,
          r.step % 2 ^ 32 + b.2.1 * 2 ^ 32 + b.1 % 2 ^ 16 * 2 ^ 40, true)]
      ∧ OnlyAt [] [(.PNL_SL_STAT_ERR, p), (.PNL_SL_POS_WORD, p), (.PNL_SL_STAT_ACTIVE, p)] [.panel p] s t)
  ∧ (∀ (s : State) (p q sp w : Nat) (r : IssueRec) (o : POp), PnlAt s p q r o → o.op = 0x01 →
    ∃ t, exec (.tile p { ecc := [(sp, w, 1)] }) s = .next t
      ∧ t.get .CHK_CE_CNT_COUNT q = satAdd 64 (s.get .CHK_CE_CNT_COUNT q) 1
      ∧ Noted { code := 0x200A, part := some q, sindex := idOf p } s t ∧ t.get .PNL_HOOD_FENCED p = s.get .PNL_HOOD_FENCED p
      ∧ OnlyAt evFlds (opFlds p q ++ [(.CHK_CE_CNT_COUNT, q)]) (evComps ++ ([.panel p] : List Comp)) s t)
  ∧ (∀ (s : State) (p q i : Nat) (r : IssueRec) (fs : List (FaultMsg × Nat × Bool)), (s.panel p).part = some q → (s.panel p).win = some r →
    (s.panel p).st = .done → s.reached q (dueSlot r) = true → (s.panel p).bads = [] → (s.panel p).faults = fs →
    (∀ f ∈ fs, f.1.srck = 0 ∧ f.1.panel = i ∧ f.1.part = q) → (s.panel p).seams.any (fun e => !e.2.isEmpty) = false →
    ∃ t, exec (.stepDeadline p) s = .next t
      ∧ t.panel p = { s.panel p with seams := [], seamPos := 0, seamGot := [], faults := [], st := .idle }
      ∧ t.get .PNL_SL_STAT_ACTIVE p = 0 ∧ t.get .PNL_STEP_STAT_LATE p = s.get .PNL_STEP_STAT_LATE p
      ∧ Sent (i / 256 % 8) false (fs.map (fun f => localPk (i / 256 % 8) 18 q (.fault f.1))) s t
      ∧ (fs = [] → OnlyAt [] [(.PNL_SL_STAT_ACTIVE, p)] [.panel p, .caps] s t)
      ∧ OnlyAt evFlds [(.PNL_SL_STAT_ACTIVE, p), (.PNL_SL_ERRID_LAYER, p), (.PNL_SL_ERRID_OPER, p)]
          (evComps ++ ([.panel p, .caps, .ctl] : List Comp)) s t)
  ∧ (∀ (s : State) (p q w : Nat) (r : IssueRec) (ids : Nat × Nat), (s.panel p).part = some q → (s.panel p).win = some r →
    s.reached q (dueSlot r) = true → (s.panel p).bads = [] → (s.panel p).faults = [] →
    (let c := s.opAtPos p q r (s.panel p) []
     ((s.panel p).st = .running ∧ c.bad = none ∧ ids = (c.o.layer, c.o.oper) ∧ w = s.get .PNL_SL_POS_WORD p)
      ∨ ((∃ sl, (s.panel p).st = .waitSlot sl ∨ (s.panel p).st = .rest sl ∨ ∃ b n, (s.panel p).st = .waitRecv sl b n)
          ∧ ids = (c.o.layer, c.o.oper) ∧ w = s.get .PNL_SL_POS_WORD p)) →
    let x := s.panel p
    let d := dirEntry x.read r.dir
    let m := pnlMsg p q 0x2004 r.step ids.1 ids.2
    ∃ t, exec (.stepDeadline p) s = .next t
      ∧ (∃ y, y = (opsFrom (s.chkEnv p) x.read d.1 d.2.1 (d.2.1 + 1) w).foldl (fun x o => x.poisonOut true (s.watchBuf q x o) o) x
          ∧ t.panel p = { y with seams := [], seamPos := 0, seamGot := [], faults := [], st := .idle })
      ∧ t.get .PNL_SL_STAT_ACTIVE p = 0 ∧ t.get .PNL_STEP_STAT_LATE p = 1 ∧ t.get .PNL_STEP_STAT_SLACK p = 0
      ∧ t.get .PNL_SL_ERRID_LAYER p = ids.1 % 2 ^ 16 ∧ t.get .PNL_SL_ERRID_OPER p = ids.2 % 2 ^ 16
      ∧ (s.boot.mcDown = false → dieOf p < 8 → bit (t.get .PWR_PACE_EVT_LATE_STEP) (dieOf p) = true)
      ∧ Sent (idOf p / 256 % 8) false [localPk (idOf p / 256 % 8) 18 q (.fault m)] s t
      ∧ Raised { code := 0x2004, part := some q, sindex := idOf p,
                 detail := r.step % 2 ^ 32 + ids.1 % 2 ^ 16 * 2 ^ 32 + ids.2 % 2 ^ 16 * 2 ^ 48 } s t
      ∧ OnlyAt evFlds [(.PNL_SL_STAT_ACTIVE, p), (.PNL_STEP_STAT_LATE, p), (.PNL_STEP_STAT_SLACK, p), (.PNL_SL_ERRID_LAYER, p),
          (.PNL_SL_ERRID_OPER, p), (.PWR_PACE_EVT_LATE_STEP, 0)] (evComps ++ ([.panel p, .caps, .ctl] : List Comp)) s t)
  ∧ (∀ (s : State) (p q i : Nat) (r : IssueRec) (f : FaultMsg × Nat × Bool), (s.panel p).part = some q → (s.panel p).win = some r →
    s.reached q (dueSlot r) = true → (s.panel p).bads = [] → (s.panel p).st = .abandoned i → (s.panel p).faults = [f] →
    f.1.code = 0x2006 → f.1.srck = 0 → f.1.panel = idOf p → f.1.part = q →
    ∃ t, exec (.stepDeadline p) s = .next t ∧ (t.panel p).st = .idle ∧ (t.panel p).faults = [] ∧ t.get .PNL_SL_STAT_ACTIVE p = 0
      ∧ t.get .PNL_STEP_STAT_LATE p = 1
      ∧ Sent (idOf p / 256 % 8) false [localPk (idOf p / 256 % 8) 18 q (.fault f.1),
          localPk (idOf p / 256 % 8) 18 q (.fault (pnlMsg p q 0x2004 r.step f.1.layer f.1.oper))] s t)
  ∧ (∀ (s : State) (p q : Nat) (r : IssueRec), (s.panel p).part = some q → (s.panel p).win = some r → (s.panel p).st = .done →
    s.reached q (dueSlot r) = true → (s.panel p).bads = [] → (s.panel p).faults = [] → (s.panel p).seams.any (fun e => !e.2.isEmpty) = true →
    ∃ t, exec (.stepDeadline p) s = .next t
      ∧ t.panel p = { s.panel p with seams := [], seamPos := 0, seamGot := [], st := .idle } ∧ t.get .PNL_STEP_STAT_LATE p = 1
      ∧ Sent (idOf p / 256 % 8) false [localPk (idOf p / 256 % 8) 18 q (.fault (pnlMsg p q 0x2004 r.step 0xFFFF 0xFFFF))] s t)
  ∧ (∀ (s : State) (p q : Nat) (e : SeamEntry), (s.panel p).part = some q → (s.panel p).win = none → (s.panel p).bads = [] →
    ((s.panel p).seams.flatMap (·.2)).find? (fun e => s.reached q e.due) = some e →
    ∃ t, exec (.stepDeadline p) s = .next t
      ∧ t.panel p = { s.panel p with seams := (s.panel p).seams.map (fun l => (l.1, l.2.filter (fun e => !s.reached q e.due))) }
      ∧ t.get .PNL_STEP_STAT_LATE p = 1
      ∧ Sent (idOf p / 256 % 8) false [localPk (idOf p / 256 % 8) 18 q (.fault (pnlMsg p q 0x2004 e.step 0xFFFF 0xFFFF))] s t)
  ∧ (∀ (s : State) (p q sl st c : Nat), (s.panel p).part = some q → (s.panel p).win = none → (s.panel p).seams = [] →
    (s.panel p).bads = [(sl, st, c)] → s.reached q sl = true →
    ∃ t, exec (.stepDeadline p) s = .next t ∧ t.panel p = { s.panel p with bads := [] }
      ∧ Sent (idOf p / 256 % 8) false [localPk (idOf p / 256 % 8) 18 q (.fault (pnlMsg p q 0x2006 st 0xFFFF 0xFFFF))] s t
      ∧ (∃ w, w < 2 ^ 16 ∧ Raised { code := 0x2006, part := some q, sindex := idOf p, detail := st % 2 ^ 32 + c * 2 ^ 32 + w * 2 ^ 40 } s t))
  ∧ (∀ (s : State) (d : Nat) (pk : Packet) (w m rows cols : Nat), pk.payload = .issue w m rows cols →
    (selected d rows cols).any (fun l => match s.granOwner (granOf l) with | some q => q != pk.part | none => false) = false →
    ∃ t, exec (.issuePacket d pk) s = .next t ∧ Took d false (fun p => p == pk) s t
      ∧ (∀ p, p ∉ (selected d rows cols).map s.winOfLog → t.panel p = s.panel p)
      ∧ (∀ l ∈ selected d rows cols, ∃ u, exec (.issueRecord (s.winOfLog l) w) s = .next u
          ∧ t.panel (s.winOfLog l) = u.panel (s.winOfLog l)
          ∧ t.get .PNL_SL_STAT_QUEUED (s.winOfLog l) = u.get .PNL_SL_STAT_QUEUED (s.winOfLog l)
          ∧ t.get .PNL_SL_STAT_ERR (s.winOfLog l) = u.get .PNL_SL_STAT_ERR (s.winOfLog l))
      ∧ OnlyAt [] ((selected d rows cols).flatMap (fun l => [(.PNL_SL_STAT_QUEUED, s.winOfLog l), (.PNL_SL_STAT_ERR, s.winOfLog l)]))
          [.panels, .ctl] s t)
  ∧ (∀ (s : State) (d : Nat) (pk : Packet) (w m rows cols : Nat), pk.payload = .issue w m rows cols →
    (selected d rows cols).any (fun l => match s.granOwner (granOf l) with | some q => q != pk.part | none => false) = true →
    ∃ t, exec (.issuePacket d pk) s = .next t ∧ Dropped s t d 5 1 pk.src ∧ Took d false (fun p => p == pk) s t
      ∧ OnlyChanges [.CTN_DENIED_COUNT, .CTN_LAST_DROP_REASON, .CTN_LAST_DROP_STOP, .CTN_LAST_DROP_KIND, .CTN_LAST_DROP_SRC] [.ctl] s t)

/-- Slot-table entries on inputs without storage, at a panel's local port and at a band output node (06_data_plane.md). -/
def Obligations.SlotEntries : Prop :=
  (∀ (s : State) (n q k seq o m c lat : Nat) (en : Entry) (b : Bank) (x : Tuft), nodeKind n = 2 → s.firing n q k s.tally = some (en, seq, b) →
    s.atInput n en.inp = some x → x.stream = en.stream → x.seq = seq → outs en = [o] → s.dest n o = .input m c lat →
    ∃ t, exec (.slotEntryFire n q k .clean) s = .next t
      ∧ look [] (t.node m).inputs c = (look [] (s.node m).inputs c).filter
          (fun e => decide (0 ≤ cmp32 e.1 s.tally) && e.1 != (s.tally + lat) % 2 ^ 56) ++ [((s.tally + lat) % 2 ^ 56, x)]
      ∧ (∀ c', c' ≠ c → look [] (t.node m).inputs c' = look [] (s.node m).inputs c') ∧ (t.node m).slices = (s.node m).slices
      ∧ OnlyChanges [] [.node m] s t)
  ∧ (∀ (s : State) (n q k seq o o' m c lat m' c' lat' : Nat) (en : Entry) (b : Bank) (x : Tuft), nodeKind n = 2 →
    s.firing n q k s.tally = some (en, seq, b) → s.atInput n en.inp = some x → x.stream = en.stream → x.seq = seq → outs en = [o, o'] →
    s.dest n o = .input m c lat → s.dest n o' = .input m' c' lat' → m ≠ m' →
    ∃ t, exec (.slotEntryFire n q k .clean) s = .next t
      ∧ ((s.tally + lat) % 2 ^ 56, x) ∈ look [] (t.node m).inputs c
      ∧ ((s.tally + lat') % 2 ^ 56, { x with fan := true }) ∈ look [] (t.node m').inputs c' ∧ OnlyChanges [] [.node m, .node m'] s t)
  ∧ (∀ (s : State) (n q k seq o m c lat : Nat) (en : Entry) (b : Bank), nodeKind n = 2 → s.firing n q k s.tally = some (en, seq, b) →
    s.atInput n en.inp = none → outs en = [o] → s.dest n o = .input m c lat →
    ∃ t, exec (.slotEntryFire n q k .clean) s = .next t ∧ t.get .LNK_SUBST_COUNT = satAdd 32 (s.get .LNK_SUBST_COUNT) 1
      ∧ (∃ x : Tuft, ((s.tally + lat) % 2 ^ 56, x) ∈ look [] (t.node m).inputs c ∧ x.poison = true ∧ x.late = true ∧ x.stream = en.stream
          ∧ x.seq = seq ∧ x.payload = [] ∧ x.check = checkOf x)
      ∧ Raised { code := 0x3001, part := some q, skind := 2, sindex := nodeIndex n,
                 detail := en.stream % 2 ^ 24 + seq % 2 ^ 16 * 2 ^ 24 + 4 * 2 ^ 40 } s t
      ∧ OnlyChanges (evFlds ++ ([.LNK_SUBST_COUNT] : List Fld)) (evComps ++ ([.node m] : List Comp)) s t)
  ∧ (∀ (s : State) (n q k seq o m c lat : Nat) (en : Entry) (b : Bank) (x : Tuft), nodeKind n = 2 → s.firing n q k s.tally = some (en, seq, b) →
    s.atInput n en.inp = some x → (x.stream ≠ en.stream ∨ x.seq ≠ seq) → outs en = [o] → s.dest n o = .input m c lat →
    ∃ t, exec (.slotEntryFire n q k .clean) s = .next t ∧ t.get .LNK_MISMATCH_COUNT = satAdd 32 (s.get .LNK_MISMATCH_COUNT) 1
      ∧ ((s.tally + lat) % 2 ^ 56, { x with poison := true }) ∈ look [] (t.node m).inputs c
      ∧ (x.poison = false → Raised { code := 0x3001, part := some q, skind := 2, sindex := nodeIndex n,
                                     detail := x.stream % 2 ^ 24 + x.seq % 2 ^ 16 * 2 ^ 24 + 3 * 2 ^ 40 } s t)
      ∧ OnlyChanges (evFlds ++ ([.LNK_MISMATCH_COUNT] : List Fld)) (evComps ++ ([.node m] : List Comp)) s t)
  ∧ (∀ (s : State) (w q k seq o m c lat : Nat) (en : Entry) (b : Bank) (y : Binding), w < 4096 →
    s.firing (meshKey w) q k s.tally = some (en, seq, b) → en.inp = 0 → look? (s.panel w).sbind en.bind = some y → y.done = false →
    y.stream = en.stream → seq < tuftsOf y.reg → ((s.panel w).tuftOf y.reg seq).2.1 = false → (s.panel w).psnAll = false →
    outs en = [o] → s.dest (meshKey w) o = .input m c lat →
    ∃ t, exec (.slotEntryFire (meshKey w) q k .clean) s = .next t
      ∧ (∃ x : Tuft, ((s.tally + lat) % 2 ^ 56, x) ∈ look [] (t.node m).inputs c ∧ x.payload = ((s.panel w).tuftOf y.reg seq).1
          ∧ x.stream = en.stream ∧ x.seq = seq ∧ x.step = y.step % 2 ^ 16 ∧ x.poison = false ∧ x.last = (seq + 1 == tuftsOf y.reg)
          ∧ x.fuller = (y.reg.fmt == 9) ∧ x.check = checkOf x)
      ∧ (seq + 1 ≠ tuftsOf y.reg → t.panel w = s.panel w)
      ∧ (seq + 1 = tuftsOf y.reg → t.panel w = { s.panel w with sbind := ins (s.panel w).sbind en.bind { y with done := true } }
          ∧ (en.bind < 32 → bit (t.get .PNL_SL_SBIND_SEND w) en.bind = false))
      ∧ OnlyAt [] [(.PNL_SL_SBIND_SEND, w), (.PNL_C_PMB_COUNT, w)] [.panel w, .node m, .free] s t)
  ∧ (∀ (s : State) (w q k seq o m c lat : Nat) (en : Entry) (b : Bank), w < 4096 → s.firing (meshKey w) q k s.tally = some (en, seq, b) →
    en.inp = 0 → look? (s.panel w).sbind en.bind = none → (s.panel w).st ≠ .idle → outs en = [o] → s.dest (meshKey w) o = .input m c lat →
    ∃ t ids, exec (.slotEntryFire (meshKey w) q k .clean) s = .next t ∧ ids = s.sendIds w en.bind
      ∧ t.get .LNK_SUBST_COUNT = satAdd 32 (s.get .LNK_SUBST_COUNT) 1
      ∧ (∃ x : Tuft, ((s.tally + lat) % 2 ^ 56, x) ∈ look [] (t.node m).inputs c ∧ x.poison = true ∧ x.late = true ∧ x.stream = en.stream
          ∧ x.seq = seq)
      ∧ t.panel w = { s.panel w with faults := (s.panel w).faults
          ++ [(pnlMsg w q 0x3001 (s.get .PNL_SL_STEP_STEP w) ids.1 ids.2, 0, false)] }
      ∧ Raised { code := 0x3001, part := some q, skind := 1, sindex := idOf w,
                 detail := en.stream % 2 ^ 24 + seq % 2 ^ 16 * 2 ^ 24 + 2 * 2 ^ 40 } s t
      ∧ OnlyChanges (evFlds ++ ([.LNK_SUBST_COUNT] : List Fld)) (evComps ++ ([.panel w, .node m] : List Comp)) s t)
  ∧ (∀ (s : State) (w q k seq : Nat) (en : Entry) (b : Bank) (x : Tuft) (y : Binding), w < 4096 →
    s.firing (meshKey w) q k s.tally = some (en, seq, b) → en.inp ≠ 0 → s.atInput (meshKey w) en.inp = some x → x.stream = en.stream →
    x.seq = seq → outs en = [0] → x.check = checkOf x → x.poison = false → x.watch = false →
    look? (s.panel w).rbind en.bind = some y → y.done = false → y.stream = x.stream → x.seq < tuftsOf y.reg →
    let got := if x.seq ∈ y.got then y.got else y.got ++ [x.seq]
    ∃ t, exec (.slotEntryFire (meshKey w) q k .clean) s = .next t
      ∧ t.panel w = { (s.panel w).takeTuft y.reg x.seq x.payload false with
                      rbind := ins (s.panel w).rbind en.bind { y with got := got, done := decide (tuftsOf y.reg ≤ got.length) } }
      ∧ (tuftsOf y.reg ≤ got.length → en.bind < 32 → bit (t.get .PNL_SL_RBIND_RECV w) en.bind = false)
      ∧ OnlyAt [] [(.PNL_SL_RBIND_RECV, w), (.PNL_C_PMB_COUNT, w)] [.panel w] s t)
  ∧ (∀ (s : State) (p q k seq : Nat) (en : Entry) (b : Bank) (x : Tuft), p < 32 → s.firing (bandKey (64 + p)) q k s.tally = some (en, seq, b) →
    en.inp < 64 → s.atInput crossing en.inp = some x → x.stream = en.stream → x.seq = seq → outs en = [0] → s.is .LNK_P_STAT_UP p = true →
    ∃ t, exec (.slotEntryFire (bandKey (64 + p)) q k .clean) s = .next t
      ∧ t.port p = { s.port p with txQ := (s.port p).txQ ++ [{
          part := q, dep := s.tally, tuft := { x with fan := x.fan || s.lowerTaker (bandKey (64 + p)) en.inp },
          limit := (s.slotTally q (s.slotAt q s.tally + s.get .LNK_P_PATH_ALLOW p) + 2 ^ 56 - s.get .LNK_P_PATH_FLIGHT p - 1) % 2 ^ 56 }] }
      ∧ OnlyChanges [] [.port p] s t)
  ∧ (∀ (s : State) (n q k : Nat) (e : Ecc), s.firing n q k s.tally = none → exec (.slotEntryFire n q k e) s = .next s)
  ∧ (∀ (s : State) (n inp : Nat) (x : Tuft), (look [] (s.node n).inputs inp).find? (fun e => e.1 == s.tally) = some (s.tally, x) →
    laneIn n inp = none → s.inputTaken n inp = false → s.inputOwner n inp = none →
    ∃ t, exec (.tuftArrive n inp x) s = .next t ∧ t.get .LNK_STRAY_COUNT = satAdd 32 (s.get .LNK_STRAY_COUNT) 1
      ∧ look [] (t.node n).inputs inp = (look [] (s.node n).inputs inp).filter (fun e => e.1 != s.tally)
      ∧ OnlyChanges [.LNK_STRAY_COUNT] [.node n] s t)
  ∧ (∀ (s : State) (n inp q : Nat) (x : Tuft), (look [] (s.node n).inputs inp).find? (fun e => e.1 == s.tally) = some (s.tally, x) →
    laneIn n inp = none → s.inputTaken n inp = false → s.inputOwner n inp = some q → nodeKind n = 4 → n ≠ crossing →
    s.reached q (s.boundary q (s.curStep q + 1) - 8) = false →
    ∃ t, exec (.tuftArrive n inp x) s = .next t ∧ t.get .LNK_STRAY_COUNT = satAdd 32 (s.get .LNK_STRAY_COUNT) 1
      ∧ t.part q = { s.part q with ends := (s.part q).ends ++
          [(none, { part := q, code := 0x3002, step := some (s.curStep q), srck := 4, node := nodeIndex n },
            x.stream % 2 ^ 24 + x.seq % 2 ^ 16 * 2 ^ 24, true)] }
      ∧ OnlyChanges [.LNK_STRAY_COUNT] [.node n, .part q] s t)
  ∧ (∀ (s : State) (n inp : Nat) (x : Tuft), (look [] (s.node n).inputs inp).find? (fun e => e.1 == s.tally) = some (s.tally, x) →
    s.inputTaken n inp = true → exec (.tuftArrive n inp x) s = .next s)

/-- Scheduled reads and writes of HBM (07_inside_the_hood.md, 06_data_plane.md). -/
def Obligations.MemoryNodes : Prop :=
  (∀ (s : State) (d q k seq o m c lat : Nat) (en : Entry) (b : Bank) (h : Held), s.firing (memKey d) q k s.tally = some (en, seq, b) →
    8 ≤ en.inp → s.boot.tripped = false → seq ≤ (look {} b.binds en.bind).limit → d < 8 →
    (s.node (memKey d)).held.find? (fun h => h.at_ == s.tally && h.q == q && h.k == k) = some h → h.psn = false →
    outs en = [o] → s.dest (memKey d) o = .input m c lat → m ≠ memKey d →
    ∃ t, exec (.memoryNodeEntry d q k .clean) s = .next t
      ∧ (∃ x : Tuft, ((s.tally + lat) % 2 ^ 56, x) ∈ look [] (t.node m).inputs c ∧ x.payload = h.bytes ∧ x.stream = en.stream ∧ x.seq = seq
          ∧ x.step = (look {} b.binds en.bind).tag ∧ x.poison = false ∧ x.check = checkOf x
          ∧ x.last = (seq == (look {} b.binds en.bind).limit))
      ∧ t.get .DBG_C_HBM_SRD_BYTES q = (s.get .DBG_C_HBM_SRD_BYTES q + 256) % 2 ^ 64
      ∧ OnlyAt [] [(.DBG_C_HBM_SRD_BYTES, q)] [.node m, .node (memKey d), .free] s t)
  ∧ (∀ (s : State) (d q k seq o m c lat : Nat) (en : Entry) (b : Bank) (h : Held), s.firing (memKey d) q k s.tally = some (en, seq, b) →
    8 ≤ en.inp → s.boot.tripped = false → seq ≤ (look {} b.binds en.bind).limit → d < 8 →
    (s.node (memKey d)).held.find? (fun h => h.at_ == s.tally && h.q == q && h.k == k) = some h →
    outs en = [o] → s.dest (memKey d) o = .input m c lat → m ≠ memKey d →
    ∃ t w, exec (.memoryNodeEntry d q k .double) s = .next t ∧ t.get .MEM_S_UE_COUNT d = satAdd 32 (s.get .MEM_S_UE_COUNT d) 1
      ∧ w / 256 = unitAddr d ((look {} b.binds en.bind).ubase + seq) / 256 ∧ w % 32 = 0
      ∧ t.get .MEM_S_ADDR_ADDR d = stackLocal w % 2 ^ 36
      ∧ (∃ x : Tuft, ((s.tally + lat) % 2 ^ 56, x) ∈ look [] (t.node m).inputs c ∧ x.poison = true ∧ x.stream = en.stream ∧ x.seq = seq)
      ∧ RaisedAll [{ code := 0x5005, part := some q, skind := 10, sindex := d, detail := stackLocal w },
                   { code := 0x3001, part := some q, skind := 4, sindex := d,
                     detail := en.stream % 2 ^ 24 + seq % 2 ^ 16 * 2 ^ 24 + 2 ^ 40 }] s t
      ∧ OnlyAt evFlds [(.DBG_C_HBM_SRD_BYTES, q), (.MEM_S_UE_COUNT, d), (.MEM_S_ADDR_ADDR, d)]
          (evComps ++ ([.node m, .node (memKey d), .free] : List Comp)) s t)
  ∧ (∀ (s : State) (d q k seq o m c lat : Nat) (en : Entry) (b : Bank), s.firing (memKey d) q k s.tally = some (en, seq, b) → d < 8 →
    8 ≤ en.inp → s.boot.tripped = false → (look {} b.binds en.bind).limit < seq → outs en = [o] → s.dest (memKey d) o = .input m c lat →
    ∃ t, exec (.memoryNodeEntry d q k .clean) s = .next t ∧ t.get .LNK_SUBST_COUNT = satAdd 32 (s.get .LNK_SUBST_COUNT) 1
      ∧ (∃ x : Tuft, ((s.tally + lat) % 2 ^ 56, x) ∈ look [] (t.node m).inputs c ∧ x.poison = true ∧ x.late = true ∧ x.stream = en.stream
          ∧ x.seq = seq)
      ∧ RaisedAll [{ code := 0x3001, part := some q, skind := 4, sindex := d,
                     detail := en.stream % 2 ^ 24 + seq % 2 ^ 16 * 2 ^ 24 + 4 * 2 ^ 40 },
                   { code := 0x3005, part := some q, skind := 4, sindex := d, detail := en.bind + seq * 256 }] s t
      ∧ SentFaults [{ part := q, code := 0x3005, step := some (s.curStep q), srck := 4, node := d }] s t ∧ t.ctl.ejq = s.ctl.ejq
      ∧ OnlyChanges (evFlds ++ ([.LNK_SUBST_COUNT] : List Fld)) (evComps ++ ([.node m, .ctl] : List Comp)) s t)
  ∧ (∀ (s : State) (d q k seq o w : Nat) (en : Entry) (b : Bank) (x : Tuft), s.firing (memKey d) q k s.tally = some (en, seq, b) → d < 8 →
    en.inp < 8 → 256 ≤ en.out → s.boot.tripped = false → seq ≤ (look {} b.binds en.bind).limit → outs en = [o] → s.dest (memKey d) o = .write w →
    s.atInput (memKey d) en.inp = some x → x.stream = en.stream → x.seq = seq → x.check = checkOf x → x.poison = false → x.watch = false →
    let a := unitAddr d ((look {} b.binds en.bind).ubase + seq)
    ∃ t, exec (.memoryNodeEntry d q k .clean) s = .next t
      ∧ Stored s.hbm.bytes t.hbm.bytes a ((x.payload ++ List.replicate 256 0).take 256)
      ∧ (∀ v, look false t.hbm.poison v = if v ∈ words a 256 32 then false else look false s.hbm.poison v)
      ∧ (s.tb.slots, a, readBytes s.hbm.bytes a 256, (words a 256 32).filter (fun v => look false s.hbm.poison v)) ∈ t.hbm.recent
      ∧ t.get .DBG_C_HBM_SWR_BYTES q = (s.get .DBG_C_HBM_SWR_BYTES q + 256) % 2 ^ 64 ∧ t.shr = s.shr
      ∧ OnlyAt [] [(.DBG_C_HBM_SWR_BYTES, q)] [.mem] s t)
  ∧ (∀ (s : State) (d q k seq o w : Nat) (en : Entry) (b : Bank) (x : Tuft), s.firing (memKey d) q k s.tally = some (en, seq, b) → d < 8 →
    en.inp < 8 → 256 ≤ en.out → s.boot.tripped = false → seq ≤ (look {} b.binds en.bind).limit → outs en = [o] → s.dest (memKey d) o = .write w →
    s.atInput (memKey d) en.inp = some x → x.stream = en.stream → x.seq = seq → x.check = checkOf x → x.poison = true → x.watch = false →
    s.reached q (s.boundary q (s.curStep q + 1) - 8) = false →
    let a := unitAddr d ((look {} b.binds en.bind).ubase + seq)
    ∃ t, exec (.memoryNodeEntry d q k .clean) s = .next t
      ∧ Stored s.hbm.bytes t.hbm.bytes a ((x.payload ++ List.replicate 256 0).take 256)
      ∧ (∀ v, look false t.hbm.poison v = if v ∈ words a 256 32 then true else look false s.hbm.poison v)
      ∧ t.part q = { s.part q with ends := (s.part q).ends ++
          [(none, { part := q, code := 0x2008, step := some (s.curStep q), srck := 4, node := d },
            s.curStep q % 2 ^ 32 + 0xFFFFFFFF * 2 ^ 32, true)] }
      ∧ OnlyAt [] [(.DBG_C_HBM_SWR_BYTES, q)] [.mem, .part q] s t)
  ∧ (∀ (s : State) (d q k seq o w : Nat) (en : Entry) (b : Bank) (x : Tuft), s.firing (memKey d) q k s.tally = some (en, seq, b) → d < 8 →
    en.inp < 8 → 256 ≤ en.out → s.boot.tripped = false → (look {} b.binds en.bind).limit < seq → outs en = [o] → s.dest (memKey d) o = .write w →
    s.atInput (memKey d) en.inp = some x → x.stream = en.stream → x.seq = seq →
    ∃ t, exec (.memoryNodeEntry d q k .clean) s = .next t
      ∧ Raised { code := 0x3005, part := some q, skind := 4, sindex := d, detail := en.bind + seq * 256 } s t
      ∧ SentFaults [{ part := q, code := 0x3005, step := some (s.curStep q), srck := 4, node := d }] s t ∧ t.ctl.ejq = s.ctl.ejq
      ∧ OnlyChanges evFlds (evComps ++ ([.ctl] : List Comp)) s t)
  ∧ (∀ (s : State) (d q k seq : Nat) (en : Entry) (b : Bank), s.firing (memKey d) q k ((s.tally + 512) % 2 ^ 56) = some (en, seq, b) →
    8 ≤ en.inp → seq ≤ (look {} b.binds en.bind).limit → s.boot.tripped = false →
    let a := unitAddr d ((look {} b.binds en.bind).ubase + seq)
    ∃ t c, exec (.memReadIssue d q k) s = .next t ∧ c = s.unitBefore a 0
      ∧ ((∀ e ∈ s.hbm.recent, e.1 < s.tb.slots ∨ e.2.1 ≠ a) → c = (readBytes s.hbm.bytes a 256, s.hbmPoisoned a 256))
      ∧ (t.node (memKey d)).held = (s.node (memKey d)).held
        ++ [{ at_ := (s.tally + 512) % 2 ^ 56, q := q, k := k, bytes := c.1, psn := c.2 }]
      ∧ (t.node (memKey d)).inputs = (s.node (memKey d)).inputs ∧ (t.node (memKey d)).slices = (s.node (memKey d)).slices
      ∧ OnlyChanges [] [.node (memKey d)] s t)
  ∧ (∀ (s : State) (d q k : Nat) (e : Ecc), (s.boot.tripped = true ∨ s.firing (memKey d) q k s.tally = none) →
    exec (.memoryNodeEntry d q k e) s = .next s)

/-- BANKSW at the gateways and the switch (06_data_plane.md, 10_control_rings.md). -/
def Obligations.BankSwitches : Prop :=
  (∀ (s : State) (stop q b bank : Nat), s.runSt q = 3 → (s.part q).haltedAt = none → (∃ n ∈ s.nodesOf q, nodeStop n = stop) →
    64 ≤ s.slotsAhead q (s.extend q b) →
    ∃ t, exec (.banksw stop q b bank) s = .next t ∧ t.get .LNK_BANK_PENDING q = 1
      ∧ (∀ n x, look? (s.node n).slices q = some x → n ∈ s.nodesOf q →
          look? (t.node n).slices q = some (if nodeStop n = stop then
            { x with pending := x.pending ++ [((s.extend q b).toNat, bank % 2 == 1)] } else x))
      ∧ (∀ n r, r ≠ q → look? (t.node n).slices r = look? (s.node n).slices r)
      ∧ (∀ n, (t.node n).inputs = (s.node n).inputs ∧ (t.node n).held = (s.node n).held)
      ∧ Sent stop false [] s t ∧ Took stop false (fun p => p.part == q && p.payload == .banksw b bank) s t
      ∧ OnlyAt [] [(.LNK_BANK_PENDING, q)] [.nodes, .ctl] s t)
  ∧ (∀ (s : State) (stop q b bank : Nat), s.runSt q = 3 → (s.part q).haltedAt = none → (∃ n ∈ s.nodesOf q, nodeStop n = stop) →
    s.slotsAhead q (s.extend q b) < 64 →
    let ns := (s.nodesOf q).filter (fun n => nodeStop n == stop)
    ∃ t, exec (.banksw stop q b bank) s = .next t ∧ t.get .LNK_BANK_REFUSED q = 1 ∧ t.nodes = s.nodes
      ∧ RaisedAll (ns.map (fun n => { code := 0x3003, part := some q, skind := nodeKind n, sindex := nodeIndex n, detail := b % 2 ^ 32 })) s t
      ∧ SentFaults (ns.map (fun n => if nodeKind n = 1
          then { part := q, code := 0x3003, panel := nodeIndex n, step := some (s.curStep q), srck := 1 }
          else { part := q, code := 0x3003, step := some (s.curStep q), srck := nodeKind n, node := nodeIndex n })) s t
      ∧ Took stop false (fun p => p.part == q && p.payload == .banksw b bank) s t
      ∧ OnlyAt evFlds [(.LNK_BANK_REFUSED, q)] (evComps ++ ([.ctl] : List Comp)) s t)
  ∧ (∀ (s : State) (stop q b bank : Nat), (s.runSt q ≠ 3 ∨ (s.part q).haltedAt ≠ none ∨ ∀ n ∈ s.nodesOf q, nodeStop n ≠ stop) →
    ∃ t, exec (.banksw stop q b bank) s = .next t ∧ Sent stop false [] s t
      ∧ Took stop false (fun p => p.part == q && p.payload == .banksw b bank) s t ∧ OnlyChanges [] [.ctl] s t)
  ∧ (∀ (s : State) (q : Nat), s.slotsRun q (s.slotAt q s.tally) = true →
    let sl := s.slotAt q s.tally
    ∃ t, exec (.bankSwitch q) s = .next t
      ∧ (∀ n x, look? (s.node n).slices q = some x → (∃ p ∈ x.pending, p.1 ≤ sl) →
          ∃ y, look? (t.node n).slices q = some y ∧ y.activeB = (x.bankAt sl).2 ∧ (if y.activeB then y.b else y.a) = (x.bankAt sl).1
            ∧ y.pending = x.pending.filter (fun p => decide (sl < p.1)) ∧ y.lo = x.lo ∧ y.hi = x.hi)
      ∧ (∀ n x, look? (s.node n).slices q = some x → (∀ p ∈ x.pending, sl < p.1) → look? (t.node n).slices q = some x)
      ∧ (∀ n r, r ≠ q → look? (t.node n).slices r = look? (s.node n).slices r)
      ∧ (∀ n, (s.nodesOf q).head? = some n → let y := look {} (t.node n).slices q
          t.get .LNK_BANK_ACTIVE q = b2n y.activeB ∧ t.get .LNK_BANK_PENDING q = b2n (!y.pending.isEmpty))
      ∧ OnlyAt [] [(.LNK_BANK_ACTIVE, q), (.LNK_BANK_PENDING, q)] [.nodes] s t)
  ∧ (∀ (s : State) (q : Nat), s.slotsRun q (s.slotAt q s.tally) = false → exec (.bankSwitch q) s = .next s)

/-- Cell, replay, alignment and maintenance slots (06_data_plane.md). That a sync message goes before a conformateur message is the model's
choice (log entry 168). -/
def Obligations.PortSending : Prop :=
  (∀ (s : State) (p : Nat) (d : Kept) (rest : List Kept), s.sends p = true → s.tally % 32 ≤ 28 → p < 32 → (s.port p).txQ = d :: rest →
    ∃ t, exec (.cellSlot p) s = .next t
      ∧ t.out = s.out ++ ([.cell p (withLcrc { lsn := (s.port p).lsn, kind := 1, mark := decide (p ∈ s.tb.marks), tuft := d.tuft })] : List Out)
      ∧ t.port p = { s.port p with
          txQ := rest, lsn := ((s.port p).lsn + 1) % 8192
          kept := (s.port p).kept.filter (fun k => decide (-8192 ≤ cmp32 k.sent s.tally) || k.nak)
            ++ [{ d with lsn := (s.port p).lsn, sent := s.tally }] }
      ∧ t.tb = { s.tb with marks := s.tb.marks.erase p }
      ∧ t.get .DBG_C_PORT_TX_TUFTS d.part = (s.get .DBG_C_PORT_TX_TUFTS d.part + 1) % 2 ^ 64
      ∧ t.get .DBG_PORT_TX_CELLS p = (s.get .DBG_PORT_TX_CELLS p + 1) % 2 ^ 64
      ∧ OnlyAt [] [(.DBG_C_PORT_TX_TUFTS, d.part), (.DBG_PORT_TX_CELLS, p)] [.port p, .tb, .out] s t)
  ∧ (∀ (s : State) (p : Nat), s.sends p = true → s.tally % 32 ≤ 28 → p < 32 → (s.port p).txQ = [] →
    ∃ t, exec (.cellSlot p) s = .next t
      ∧ t.out = s.out ++ ([.cell p (withLcrc { lsn := (s.port p).lsn, kind := 0, mark := decide (p ∈ s.tb.marks) })] : List Out)
      ∧ t.port p = { s.port p with
          lsn := ((s.port p).lsn + 1) % 8192
          kept := (s.port p).kept.filter (fun k => decide (-8192 ≤ cmp32 k.sent s.tally) || k.nak) }
      ∧ t.tb = { s.tb with marks := s.tb.marks.erase p } ∧ OnlyChanges [] [.port p, .tb, .out] s t)
  ∧ (∀ (s : State) (p : Nat) (k : Kept), s.sends p = true → s.tally % 32 = 30 → p < 32 → s.replayOf (s.port p) = some k →
    ∃ t, exec (.replaySlot p) s = .next t
      ∧ .cell p (withLcrc { lsn := (s.port p).lsn, kind := 2, mark := decide (p ∈ s.tb.marks), tuft := { k.tuft with replayed := true } }) ∈ t.out
      ∧ t.port p = { s.port p with
          lsn := ((s.port p).lsn + 1) % 8192
          kept := (s.port p).kept.map (fun y => if y.lsn = k.lsn then { y with again := true, nak := false } else y) }
      ∧ t.tb = { s.tb with marks := s.tb.marks.erase p }
      ∧ t.get .LNK_P_REPLAY_COUNT p = satAdd 32 (s.get .LNK_P_REPLAY_COUNT p) 1
      ∧ t.get .CHK_RPL_CNT_COUNT k.part = satAdd 64 (s.get .CHK_RPL_CNT_COUNT k.part) 1
      ∧ Noted { code := 0x4005, part := some k.part, skind := 7, sindex := p } s t
      ∧ OnlyAt evFlds [(.LNK_P_REPLAY_COUNT, p), (.CHK_RPL_CNT_COUNT, k.part), (.DBG_PORT_TX_CELLS, p)] (evComps ++ ([.port p, .tb] : List Comp)) s t)
  ∧ (∀ (s : State) (p : Nat), s.sends p = true → s.tally % 32 = 30 → p < 32 → s.replayOf (s.port p) = none →
    ∃ t, exec (.replaySlot p) s = .next t
      ∧ t.out = s.out ++ ([.cell p (withLcrc { lsn := (s.port p).lsn, kind := 0, mark := decide (p ∈ s.tb.marks) })] : List Out)
      ∧ t.port p = { s.port p with lsn := ((s.port p).lsn + 1) % 8192 }
      ∧ t.tb = { s.tb with marks := s.tb.marks.erase p } ∧ OnlyChanges [] [.port p, .tb, .out] s t)
  ∧ (∀ (s : State) (p : Nat), s.sends p = true → s.tally % 32 = 29 → p < 32 →
    ∃ t, exec (.alignmentSlot p) s = .next t
      ∧ t.out = s.out ++ ([.alignment p ((List.range 64).map (fun i => if i % 2 = 0 then 0x96 else 0x69))] : List Out)
      ∧ OnlyChanges [] [.out] s t)
  ∧ (∀ (s : State) (p : Nat) (m : MaintMsg) (tb : TimeBase), s.sends p = true → s.tally % 32 = 31 → p < 32 →
    let x := s.port p
    let naks := x.naks.filter (fun k => decide (-8192 ≤ cmp32 k.2 s.tally))
    let y : Port := { x with naks := naks, txSince := if x.txFrames.isEmpty then 0 else x.txSince + 1 }
    let ack (f : Fragment) : MaintMsg := .frag { f with ackseq := (x.rxFrames + 15) % 16, ackv := x.rxAny }
    let first := s.tb.syncMsgs.find? (fun m => m.1 == p)
    let conf := x.msgs.find? (fun m => !isFrag m)
    ∀ z : Port,
    ((∃ v, first = some v ∧ m = .sync v.2.1 v.2.2.1 v.2.2.2 ∧ z = y ∧ tb = { s.tb with syncMsgs := s.tb.syncMsgs.erase v })
      ∨ (first = none ∧ tb = s.tb
        ∧ ((∃ c, conf = some (.probe c) ∧ m = .probe { c with t1 := s.tb.slots * 64 }
              ∧ z = { y with msgs := x.msgs.erase (.probe c), probeT1 := some (s.tb.slots * 64) })
          ∨ (∃ v, conf = some v ∧ (∀ c, v ≠ .probe c) ∧ m = v ∧ z = { y with msgs := x.msgs.erase v })
          ∨ (∃ f r, conf = none ∧ x.msgs = .frag f :: r ∧ m = ack f ∧ z = { y with msgs := r, ackDue := false })
          ∨ (x.msgs = [] ∧ x.ackDue = true ∧ m = ack { ackOnly := true } ∧ z = { y with ackDue := false })
          ∨ (x.msgs = [] ∧ x.ackDue = false ∧ m = .none ∧ z = y)))) →
    ∃ t, exec (.maintenanceSlot p) s = .next t ∧ t.out = s.out ++ ([.maint p (blockBytes (naks.map (·.1)) m)] : List Out)
      ∧ t.port p = z ∧ t.tb = tb ∧ OnlyChanges [] [.port p, .tb, .out] s t)
  ∧ (∀ (s : State) (p : Nat), s.sends p = false → exec (.cellSlot p) s = .next s ∧ exec (.replaySlot p) s = .next s
      ∧ exec (.alignmentSlot p) s = .next s ∧ exec (.maintenanceSlot p) s = .next s)

/-- Cells and maintenance blocks received, abandoned replays (06_data_plane.md). -/
def Obligations.PortReceiving : Prop :=
  (∀ (s : State) (p : Nat) (c : Cell), s.is .LNK_P_STAT_UP p = true → p < 32 → cellGood c = true → c.kind = 1 → c.lsn = (s.port p).rxLsn →
    c.lsn < 8192 → c.fecCorrected = false → (∀ m ∈ (s.port p).missed, isMissed c.tuft m = false) →
    (s.port p).delivery.length < (if p < 16 then 256 else 8192) →
    ∃ t, exec (.cellReceive p c) s = .next t
      ∧ t.port p = { s.port p with rxLsn := (c.lsn + 1) % 8192, delivery := (s.port p).delivery ++ [(1, c.tuft)] }
      ∧ t.get .DBG_PORT_RX_CELLS p = (s.get .DBG_PORT_RX_CELLS p + 1) % 2 ^ 64 ∧ OnlyAt [] [(.DBG_PORT_RX_CELLS, p)] [.port p] s t)
  ∧ (∀ (s : State) (p : Nat) (c : Cell), s.is .LNK_P_STAT_UP p = true → p < 32 → cellGood c = true → c.kind = 2 → c.lsn = (s.port p).rxLsn →
    c.lsn < 8192 → c.fecCorrected = false → (∀ m ∈ (s.port p).missed, isMissed c.tuft m = false) →
    (s.port p).delivery.length < (if p < 16 then 256 else 8192) →
    ∃ t, exec (.cellReceive p c) s = .next t
      ∧ t.port p = { s.port p with
          rxLsn := (c.lsn + 1) % 8192, naks := (s.port p).naks.drop 1, delivery := (s.port p).delivery ++ [(2, c.tuft)] }
      ∧ t.get .DBG_PORT_RX_CELLS p = (s.get .DBG_PORT_RX_CELLS p + 1) % 2 ^ 64 ∧ OnlyAt [] [(.DBG_PORT_RX_CELLS, p)] [.port p, .caps] s t)
  ∧ (∀ (s : State) (p : Nat) (c : Cell) (m : Nat × Nat × Nat), s.is .LNK_P_STAT_UP p = true → p < 32 → cellGood c = true → c.kind = 1 →
    c.lsn = (s.port p).rxLsn → c.lsn < 8192 → c.fecCorrected = false → (s.port p).missed.find? (isMissed c.tuft) = some m →
    ∃ t, exec (.cellReceive p c) s = .next t ∧ t.get .LNK_P_LATE_COUNT p = satAdd 32 (s.get .LNK_P_LATE_COUNT p) 1
      ∧ t.port p = { s.port p with rxLsn := (c.lsn + 1) % 8192, missed := (s.port p).missed.erase m }
      ∧ OnlyAt [] [(.DBG_PORT_RX_CELLS, p), (.LNK_P_LATE_COUNT, p)] [.port p] s t)
  ∧ (∀ (s : State) (p : Nat) (c : Cell), s.is .LNK_P_STAT_UP p = true → p < 32 → cellGood c = true → c.kind = 1 → c.lsn = (s.port p).rxLsn →
    c.lsn < 8192 → c.fecCorrected = false → (∀ m ∈ (s.port p).missed, isMissed c.tuft m = false) →
    (if p < 16 then 256 else 8192) ≤ (s.port p).delivery.length →
    ∃ t, exec (.cellReceive p c) s = .next t ∧ t.get .LNK_P_LATE_COUNT p = satAdd 32 (s.get .LNK_P_LATE_COUNT p) 1
      ∧ t.port p = { s.port p with rxLsn := (c.lsn + 1) % 8192 }
      ∧ OnlyAt [] [(.DBG_PORT_RX_CELLS, p), (.LNK_P_LATE_COUNT, p)] [.port p] s t)
  ∧ (∀ (s : State) (p : Nat) (c : Cell), s.is .LNK_P_STAT_UP p = true → p < 32 → cellGood c = false → c.fecCorrected = false →
    ∃ t, exec (.cellReceive p c) s = .next t ∧ t.get .LNK_P_BAD_COUNT p = satAdd 32 (s.get .LNK_P_BAD_COUNT p) 1
      ∧ t.port p = { s.port p with rxLsn := ((s.port p).rxLsn + 1) % 8192, naks := (s.port p).naks ++ [((s.port p).rxLsn, s.tally)] }
      ∧ OnlyAt [] [(.LNK_P_BAD_COUNT, p)] [.port p] s t)
  ∧ (∀ (s : State) (p n : Nat) (c : Cell), s.is .LNK_P_STAT_UP p = true → p < 32 → cellGood c = true → c.kind = 0 →
    (c.lsn + 8192 - (s.port p).rxLsn) % 8192 = n →
    ∃ t, exec (.cellReceive p c) s = .next t
      ∧ t.port p = { s.port p with
          rxLsn := (c.lsn + 1) % 8192
          naks := (s.port p).naks ++ (List.range n).map (fun i => (((s.port p).rxLsn + i) % 8192, s.tally)) }
      ∧ t.get .LNK_P_BAD_COUNT p = (if n = 0 then s.get .LNK_P_BAD_COUNT p else satAdd 32 (s.get .LNK_P_BAD_COUNT p) n)
      ∧ t.get .LNK_P_FEC_CORR_COUNT p = (if c.fecCorrected then satAdd 32 (s.get .LNK_P_FEC_CORR_COUNT p) 1
          else s.get .LNK_P_FEC_CORR_COUNT p)
      ∧ OnlyAt [] [(.LNK_P_BAD_COUNT, p), (.LNK_P_FEC_CORR_COUNT, p)] [.port p] s t)
  ∧ (∀ (s : State) (p : Nat) (b : MaintBlock), s.is .LNK_P_STAT_UP p = true → p < 32 → blockGood b = true →
    let u := s.setPort p { s.port p with kept := markNaks (blockNaks b.bytes) (s.port p).kept }
    (∀ k ∈ (s.port p).kept, k.lsn ∈ blockNaks b.bytes → k.again = false → { k with nak := true } ∈ (u.port p).kept)
      ∧ (blockMsg b.bytes = .none → ∃ t, exec (.maintenanceBlockReceive p b) s = .next t
          ∧ t.port p = { s.port p with kept := markNaks (blockNaks b.bytes) (s.port p).kept } ∧ OnlyChanges [] [.port p] s t)
      ∧ (∀ m, blockMsg b.bytes = .advert m → exec (.maintenanceBlockReceive p b) s = exec (.hopAdvertReceive p m) u)
      ∧ (∀ m, blockMsg b.bytes = .probe m → ∃ f, f < 64 ∧
          exec (.maintenanceBlockReceive p b) s = exec (.probe p m (s.tb.slots * 64 + f)) { u with free := u.free + 1 })
      ∧ (∀ m, blockMsg b.bytes = .reply m → ∃ f, f < 64 ∧
          exec (.maintenanceBlockReceive p b) s = exec (.probeReply p m (s.tb.slots * 64 + f)) { u with free := u.free + 1 })
      ∧ (∀ t1 t2 t3, blockMsg b.bytes = .sync t1 t2 t3 → p = s.get .TIM_SYNC_PARENT_PORT →
          exec (.maintenanceBlockReceive p b) s = exec (.syncValues t1 t2 t3) u)
      ∧ (∀ t1 t2 t3, blockMsg b.bytes = .sync t1 t2 t3 → p ≠ s.get .TIM_SYNC_PARENT_PORT →
          ∃ t, exec (.maintenanceBlockReceive p b) s = .next t
            ∧ look? t.tb.parent p = some { look {} s.tb.parent p with t1 := t1 }
            ∧ (∀ r, r ≠ p → look? t.tb.parent r = look? s.tb.parent r) ∧ OnlyChanges [] [.port p, .tb] s t)
      ∧ (∀ f, blockMsg b.bytes = .frag f → exec (.maintenanceBlockReceive p b) s = exec (.portControlFrame p [f]) u))
  ∧ (∀ (s : State) (p : Nat) (b : MaintBlock), blockGood b = false → exec (.maintenanceBlockReceive p b) s = .next s)
  ∧ (∀ (s : State) (p lsn : Nat) (k : Kept),
    (s.port p).kept.find? (fun k => k.lsn == lsn && k.nak && !k.again && decide (cmp32 k.limit s.tally < 0)) = some k →
    ∃ t, exec (.replayAbandon p lsn) s = .next t ∧ t.port p = { s.port p with kept := (s.port p).kept.erase k }
      ∧ t.get .LNK_P_ABANDON_COUNT p = satAdd 32 (s.get .LNK_P_ABANDON_COUNT p) 1
      ∧ Raised { code := 0x4002, part := some k.part, skind := 7, sindex := p, detail := lsn } s t
      ∧ OnlyAt evFlds [(.LNK_P_ABANDON_COUNT, p)] (evComps ++ ([.port p] : List Comp)) s t)
  ∧ (∀ (s : State) (p lsn : Nat), (∀ k ∈ (s.port p).kept, k.lsn = lsn → k.nak = true → k.again = false → 0 ≤ cmp32 k.limit s.tally) →
    exec (.replayAbandon p lsn) s = .next s)

/-- A port goes down and comes up (08_boards_racks_slices.md, 06_data_plane.md). -/
def Obligations.PortLoss : Prop :=
  (∀ (s : State) (p : Nat), s.is .LNK_P_STAT_UP p = true → p < 32 → (s.port p).txFrames = [] →
    (∀ q, s.portOwner p = some q → s.runSt q ≠ 3) →
    ∃ t, exec (.portDown p) s = .next t ∧ t.get .LNK_P_STAT_UP p = 0 ∧ t.get .LNK_P_CONF_STATE p = 8
      ∧ t.port p = { crown := (s.port p).crown, unanswered := true, probes := (s.port p).probes }
      ∧ Raised { code := 0x4001, part := s.portOwner p, skind := 7, sindex := p } s t
      ∧ OnlyAt evFlds [(.LNK_P_STAT_UP, p), (.LNK_P_CONF_STATE, p)] (evComps ++ ([.port p] : List Comp)) s t)
  ∧ (∀ (s : State) (p q : Nat), s.is .LNK_P_STAT_UP p = true → p < 32 → (s.port p).txFrames = [] → s.portOwner p = some q → s.runSt q = 3 →
    ∃ t, exec (.portDown p) s = .next t ∧ t.get .LNK_P_STAT_UP p = 0 ∧ t.get .LNK_P_CONF_STATE p = 8
      ∧ t.port p = { crown := (s.port p).crown, unanswered := true, probes := (s.port p).probes }
      ∧ Raised { code := 0x4001, part := some q, skind := 7, sindex := p } s t
      ∧ Sent 20 false [localPk 20 18 q (.fault { part := q, code := 0x4001, step := some (s.curStep q), srck := 3, node := 64 + p })] s t
      ∧ OnlyAt evFlds [(.LNK_P_STAT_UP, p), (.LNK_P_CONF_STATE, p)] (evComps ++ ([.port p, .ctl] : List Comp)) s t)
  ∧ (∀ (s : State) (p n : Nat) (f : List Fragment) (pk : Packet), s.is .LNK_P_STAT_UP p = true → p < 32 → (s.port p).txFrames = [(n, f)] →
    (∀ q, s.portOwner p = some q → s.runSt q ≠ 3) → readPacket s.coord (f.flatMap (·.data)) = pk → pk.rxp = true → pkReply pk = false →
    pk.src < 24 →
    ∃ t, exec (.portDown p) s = .next t ∧ t.get .LNK_P_STAT_UP p = 0 ∧ t.get .LNK_P_CONF_STATE p = 8 ∧ (t.port p).txFrames = []
      ∧ Sent (if p < 16 then 20 else 21) true [ReplyOf s (if p < 16 then 20 else 21) pk (.error 4)] s t
      ∧ OnlyAt evFlds [(.LNK_P_STAT_UP, p), (.LNK_P_CONF_STATE, p)] (evComps ++ ([.port p, .ctl] : List Comp)) s t)
  ∧ (∀ (s : State) (p : Nat), (s.is .LNK_P_STAT_UP p = false ∨ 32 ≤ p) → exec (.portDown p) s = .next s)
  ∧ (∀ (s : State) (p : Nat), p < 32 → s.is .LNK_P_STAT_UP p = false → s.spare p = false → (∀ q, s.portOwner p = some q → s.busy q = false) →
    7 ≤ s.get .MBX_BOOT_STAGE → s.get .MBX_BOOT_STAGE ≤ 9 → s.get .PWR_SHELF_STATE = 0 → s.boot.tripped = false →
    (look (0, 0) s.boot.ptest p).1 = 0 →
    ∃ t, exec (.portRetrain p) s = .next t ∧ t.get .LNK_P_STAT_UP p = 1 ∧ t.get .LNK_P_CONF_STATE p = 0
      ∧ (s.is .LNK_CONF_STAT_BUSY = false ∨ p ∉ s.boot.confUp ∨ 16 ≤ (s.port p).probes →
          t.port p = { crown := (s.port p).crown, unanswered := (s.port p).unanswered, probes := (s.port p).probes })
      ∧ (s.is .LNK_CONF_STAT_BUSY = true → p ∈ s.boot.confUp → (s.port p).probes < 16 →
          ∃ m : ConfMsg, m.seq = (s.port p).probes ∧ m.coord = s.coord ∧ m.port = p
            ∧ t.port p = { crown := (s.port p).crown, unanswered := (s.port p).unanswered, probes := (s.port p).probes, msgs := [.probe m] })
      ∧ OnlyAt [] [(.LNK_P_STAT_UP, p), (.LNK_P_CONF_STATE, p)] [.port p] s t)
  ∧ (∀ (s : State) (p : Nat), (s.is .LNK_P_STAT_UP p = true ∨ s.spare p = true ∨ (∃ q, s.portOwner p = some q ∧ s.busy q = true)
      ∨ s.get .PWR_SHELF_STATE ≠ 0 ∨ s.boot.tripped = true) → exec (.portRetrain p) s = .next s)

/-- Stitch frames and clock loss (07_inside_the_hood.md). `control` says that the group carries the control rings. -/
def Obligations.Stitches : Prop :=
  (∀ (s : State) (n g : Nat) (east : Bool) (fr : StitchFrame), n < 22 → s.stitchTests n = false → s.usedIn n g east = true →
    let control := decide (6 ≤ n) && g == s.controlGroup n east
    (fr.crc = crc16 fr.data → control = false → exec (.stitchFrame n g east fr) s = .next s)
      ∧ (fr.crc = crc16 fr.data → control = true → ∃ t, exec (.stitchFrame n g east fr) s = .next t
          ∧ t.stitchOf n = { s.stitchOf n with held := (s.stitchOf n).held.erase (east, fr.data) } ∧ OnlyChanges [] [.stitchOf n] s t)
      ∧ (fr.crc ≠ crc16 fr.data → control = true → ∃ t, exec (.stitchFrame n g east fr) s = .next t
          ∧ t.get .MEM_T_CRC_COUNT n = satAdd 32 (s.get .MEM_T_CRC_COUNT n) 1
          ∧ t.stitchOf n = { s.stitchOf n with
              held := if (east, fr.sent) ∈ (s.stitchOf n).held then (s.stitchOf n).held else (s.stitchOf n).held ++ [(east, fr.sent)] }
          ∧ OnlyAt [] [(.MEM_T_CRC_COUNT, n)] [.stitchOf n] s t)
      ∧ (fr.crc ≠ crc16 fr.data → control = false → fr.upsets = [] → ∃ t, exec (.stitchFrame n g east fr) s = .next t
          ∧ t.get .MEM_T_CRC_COUNT n = satAdd 32 (s.get .MEM_T_CRC_COUNT n) 1 ∧ OnlyAt [] [(.MEM_T_CRC_COUNT, n)] [] s t)
      ∧ (∀ u, fr.crc ≠ crc16 fr.data → control = false → fr.upsets = [u] →
          let d := laneEnd n (u.lane % 4) east
          ∃ t, exec (.stitchFrame n g east fr) s = .next t
          ∧ t.get .MEM_T_CRC_COUNT n = satAdd 32 (s.get .MEM_T_CRC_COUNT n) 1
          ∧ look [] (t.node d.1).inputs d.2 = (look [] (s.node d.1).inputs d.2).map (fun e => if e.1 = u.at_ then (e.1, u.tuft) else e)
          ∧ (∀ c, c ≠ d.2 → look [] (t.node d.1).inputs c = look [] (s.node d.1).inputs c)
          ∧ (t.node d.1).slices = (s.node d.1).slices ∧ (t.node d.1).held = (s.node d.1).held
          ∧ OnlyAt [] [(.MEM_T_CRC_COUNT, n)] [.node d.1] s t))
  ∧ (∀ (s : State) (n g : Nat) (east : Bool) (fr : StitchFrame), n < 22 → s.stitchTests n = true →
    ∃ t, exec (.stitchFrame n g east fr) s = .next t
      ∧ t.get .MEM_T_TEST_ERRS n = satAdd 16 (s.get .MEM_T_TEST_ERRS n) (bitErrors fr.sent fr.data)
      ∧ OnlyAt [] [(.MEM_T_TEST_ERRS, n)] [] s t)
  ∧ (∀ (s : State) (n g : Nat) (east : Bool) (fr : StitchFrame), (22 ≤ n ∨ (s.stitchTests n = false ∧ s.usedIn n g east = false)) →
    exec (.stitchFrame n g east fr) s = .next s)
  ∧ (∀ (s : State) (n : Nat) (f : Bool × List Byte) (r : List (Bool × List Byte)), 6 ≤ n → n < 22 → (s.stitchOf n).held = f :: r →
    ∃ t, exec (.stitchControlRetransmit n) s = .next t
      ∧ t.get .MEM_T_CTL_RPL_COUNT n = satAdd 32 (s.get .MEM_T_CTL_RPL_COUNT n) 1
      ∧ t.out = s.out ++ ([.stitchControl n f.1 f.2] : List Out) ∧ OnlyAt [] [(.MEM_T_CTL_RPL_COUNT, n)] [.out] s t)
  ∧ (∀ (s : State) (n : Nat), (s.stitchOf n).held = [] → exec (.stitchControlRetransmit n) s = .next s)
  ∧ (∀ (s : State) (n g : Nat), n < 22 → (∃ q, q < 128 ∧ s.runSt q = 3) → s.groupUsed n g = true → (s.stitchOf n).down = false →
    ∃ t, exec (.stitchClockLoss n g) s = .next t ∧ t.stitchOf n = { s.stitchOf n with down := true } ∧ t.get .MEM_T_STAT_UP n = 0
      ∧ Raised { code := 0x5002, skind := 9, sindex := n, detail := 0xF } s t
      ∧ SentFaults (((List.range 128).filter (fun q => s.runSt q == 3 && s.holdsLane q n)).map (fun q =>
          { part := q, code := 0x5002, step := some (s.curStep q), srck := 2, node := n })) s t ∧ t.ctl.ejq = s.ctl.ejq
      ∧ OnlyAt evFlds [(.MEM_T_STAT_UP, n)] (evComps ++ ([.stitchOf n, .ctl] : List Comp)) s t)
  ∧ (∀ (s : State) (n g : Nat), ((∀ q, q < 128 → s.runSt q ≠ 3) ∨ s.groupUsed n g = false ∨ (s.stitchOf n).down = true) →
    exec (.stitchClockLoss n g) s = .next s)

/-- Scrub, refresh, self-refresh and quotas (07_inside_the_hood.md). -/
def Obligations.HbmUpkeep : Prop :=
  (∀ (s : State) (d : Nat) (e : Ecc), s.is .MEM_CTRL_SCRUB_EN = true → d < 8 → s.inSr d = false → s.boot.tripped = false →
    look 0 s.hbm.scrub d < 36 * 2 ^ 25 →
    ∃ t, exec (.scrubRead d e) s = .next t ∧ look 0 t.hbm.scrub d = (look 0 s.hbm.scrub d + 1) % (36 * 2 ^ 25)
      ∧ (∀ k, k ≠ d → look 0 t.hbm.scrub k = look 0 s.hbm.scrub k)
      ∧ t.hbm.bytes = s.hbm.bytes ∧ t.hbm.poison = s.hbm.poison ∧ t.hbm.recent = s.hbm.recent ∧ t.hbm.refr = s.hbm.refr ∧ t.shr = s.shr
      ∧ (e = .clean → OnlyChanges [] [.mem, .caps, .free] s t)
      ∧ (e = .single → t.get .MEM_S_CE_COUNT d = satAdd 32 (s.get .MEM_S_CE_COUNT d) 1
          ∧ Noted { code := 0x5004, skind := 10, sindex := d } s t
          ∧ OnlyAt evFlds [(.MEM_S_CE_COUNT, d)] (evComps ++ ([.mem, .caps, .free] : List Comp)) s t)
      ∧ (e = .double → t.get .MEM_S_UE_COUNT d = satAdd 32 (s.get .MEM_S_UE_COUNT d) 1
          ∧ t.get .MEM_S_ADDR_ADDR d = 32 * look 0 s.hbm.scrub d
          ∧ Raised { code := 0x5005, skind := 10, sindex := d, detail := 32 * look 0 s.hbm.scrub d } s t)
      ∧ OnlyAt evFlds [(.MEM_S_CE_COUNT, d), (.MEM_S_UE_COUNT, d), (.MEM_S_ADDR_ADDR, d)] (evComps ++ ([.mem, .caps, .free] : List Comp)) s t)
  ∧ (∀ (s : State) (d : Nat), d < 8 → s.inSr d = false → s.boot.tripped = false →
    ∃ t, exec (.hbmRefresh d) s = .next t ∧ look 0 t.hbm.refr d = look 0 s.hbm.refr d + 1 ∧ t.hbm.bytes = s.hbm.bytes
      ∧ t.hbm.poison = s.hbm.poison ∧ t.shr = s.shr ∧ OnlyChanges [] [.mem] s t)
  ∧ (∀ (s : State) (d : Nat) (e : Ecc), (s.inSr d = true ∨ s.boot.tripped = true) →
    exec (.hbmRefresh d) s = .next s ∧ exec (.scrubRead d e) s = .next s)
  ∧ (∀ (s : State) (d : Nat) (e : Ecc), s.is .MEM_CTRL_SCRUB_EN = false → exec (.scrubRead d e) s = .next s)
  ∧ (∀ (s : State) (who v : Nat), privileged who = true → s.anyBusy = false →
    ∃ t, exec (.selfRefreshRequest who v) s = .next t ∧ t.get .MEM_CTRL_SR_REQ = bits v 0 8
      ∧ t.get .MEM_STAT_IN_SR = (if s.get .PWR_SHELF_STATE = 0 then bits v 0 8 else s.get .MEM_STAT_IN_SR)
      ∧ t.get .MEM_CTRL_SCRUB_EN = bits v 8 1 ∧ OnlyChanges [.MEM_CTRL_SR_REQ, .MEM_STAT_IN_SR, .MEM_CTRL_SCRUB_EN] [] s t)
  ∧ (∀ (s : State) (who v : Nat), privileged who = true → s.anyBusy = true →
    ∃ t, exec (.selfRefreshRequest who v) s = .next t ∧ t.get .MEM_CTRL_SCRUB_EN = bits v 8 1
      ∧ (bits v 0 8 ≠ 0 → t.get .MEM_STAT_SR_REFUSED = 1 ∧ t.get .MEM_CTRL_SR_REQ = 0)
      ∧ (bits v 0 8 = 0 → t.get .MEM_STAT_SR_REFUSED = s.get .MEM_STAT_SR_REFUSED ∧ t.get .MEM_CTRL_SR_REQ = s.get .MEM_CTRL_SR_REQ)
      ∧ OnlyChanges [.MEM_CTRL_SR_REQ, .MEM_STAT_SR_REFUSED, .MEM_CTRL_SCRUB_EN] [] s t)
  ∧ (∀ (s : State) (who q v others : Nat), privileged who = true → q < 128 →
    ((List.range 128).filter (· ≠ q)).foldl (fun a p => a + s.get .MEM_QUOTA_QUOTA p) 0 = others →
    ∃ t, exec (.quotaWrite who q v) s = .next t
      ∧ t.get .MEM_QUOTA_QUOTA q = (if others + bits v 0 7 ≤ 64 then bits v 0 7 else s.get .MEM_QUOTA_QUOTA q)
      ∧ t.get .MEM_STAT_QUOTA_REFUSED = (if others + bits v 0 7 ≤ 64 then s.get .MEM_STAT_QUOTA_REFUSED else 1)
      ∧ OnlyAt [.MEM_STAT_QUOTA_REFUSED] [(.MEM_QUOTA_QUOTA, q)] [] s t)
  ∧ (∀ (s : State) (who q v : Nat), privileged who = false → exec (.selfRefreshRequest who v) s = .next s ∧ exec (.quotaWrite who q v) s = .next s)

/-- The BAR2 window (07_inside_the_hood.md, 01_evone_at_a_glance.md). `o` is the partition whose HBM range the access meets. -/
def Obligations.Bar2 : Prop :=
  (∀ (s : State) (off len : Nat), let a := min 224 (s.get .MEM_WIN_BASE) * 2 ^ 30 + off
    off + len ≤ 2 ^ 36 → a + len ≤ 0x4800000000 → s.boot.tripped = false →
    (∀ q, q < 128 → s.runSt q = 3 → 0 < (s.hbmRange q).2 → (s.hbmRange q).1 + (s.hbmRange q).2 ≤ a ∨ a + len ≤ (s.hbmRange q).1) →
    (stacksOf a len).any s.inSr = false →
    ∃ t, exec (.bar2Read off len .clean) s = .next t
      ∧ t.out = s.out ++ ([.bar2Data (readBytes s.hbm.bytes a len) (s.hbmPoisoned a len)] : List Out)
      ∧ (∀ q, s.hbmOwner a len = some q → t.get .DBG_C_HBM_OTHER_BYTES q = (s.get .DBG_C_HBM_OTHER_BYTES q + len) % 2 ^ 64)
      ∧ OnlyAt [] (match s.hbmOwner a len with | some q => [(.DBG_C_HBM_OTHER_BYTES, q)] | none => []) [.out, .caps, .free] s t)
  ∧ (∀ (s : State) (off len : Nat), let a := min 224 (s.get .MEM_WIN_BASE) * 2 ^ 30 + off
    0 < len → off + len ≤ 2 ^ 36 → a + len ≤ 0x4800000000 → s.boot.tripped = false →
    (∀ q, q < 128 → s.runSt q = 3 → 0 < (s.hbmRange q).2 → (s.hbmRange q).1 + (s.hbmRange q).2 ≤ a ∨ a + len ≤ (s.hbmRange q).1) →
    (stacksOf a len).any s.inSr = false →
    ∃ t w bs, exec (.bar2Read off len .double) s = .next t ∧ w % 32 = 0 ∧ a / 32 * 32 ≤ w ∧ w < a + len
      ∧ .bar2Data bs true ∈ t.out ∧ t.get .MEM_S_ADDR_ADDR (w / 256 % 8) = w / 2048 * 256 + w % 256
      ∧ t.get .MEM_S_UE_COUNT (w / 256 % 8) = satAdd 32 (s.get .MEM_S_UE_COUNT (w / 256 % 8)) 1
      ∧ Raised { code := 0x5005, part := s.hbmOwner a len, skind := 10, sindex := w / 256 % 8, detail := w / 2048 * 256 + w % 256 } s t
      ∧ OnlyChanges (evFlds ++ ([.MEM_S_UE_COUNT, .MEM_S_ADDR_ADDR, .DBG_C_HBM_OTHER_BYTES] : List Fld))
          (evComps ++ ([.caps, .free] : List Comp)) s t)
  ∧ (∀ (s : State) (off : Nat) (data : List Byte), let a := min 224 (s.get .MEM_WIN_BASE) * 2 ^ 30 + off
    data ≠ [] → off + data.length ≤ 2 ^ 36 → a + data.length ≤ 0x4800000000 → s.boot.tripped = false →
    (∀ q, q < 128 → s.runSt q = 3 → 0 < (s.hbmRange q).2 → (s.hbmRange q).1 + (s.hbmRange q).2 ≤ a ∨ a + data.length ≤ (s.hbmRange q).1) →
    (stacksOf a data.length).any s.inSr = false →
    ∃ t, exec (.bar2Write off data) s = .next t ∧ Stored s.hbm.bytes t.hbm.bytes a data
      ∧ (∀ w, look false t.hbm.poison w = if a ≤ 32 * w ∧ 32 * w + 32 ≤ a + data.length then false else look false s.hbm.poison w)
      ∧ t.shr = s.shr
      ∧ (∀ q, s.hbmOwner a data.length = some q →
          t.get .DBG_C_HBM_OTHER_BYTES q = (s.get .DBG_C_HBM_OTHER_BYTES q + data.length) % 2 ^ 64)
      ∧ OnlyAt [] (match s.hbmOwner a data.length with | some q => [(.DBG_C_HBM_OTHER_BYTES, q)] | none => []) [.mem] s t)
  ∧ (∀ (s : State) (off len q : Nat) (e : Ecc), let a := min 224 (s.get .MEM_WIN_BASE) * 2 ^ 30 + off
    off + len ≤ 2 ^ 36 → a + len ≤ 0x4800000000 → s.boot.tripped = false →
    q < 128 → s.runSt q = 3 → 0 < (s.hbmRange q).2 → a < (s.hbmRange q).1 + (s.hbmRange q).2 → (s.hbmRange q).1 < a + len →
    (∀ r, r < q → s.runSt r ≠ 3) →
    ∃ t, exec (.bar2Read off len e) s = .next t ∧ t.get .PCX_BAR2_DROP_COUNT = satAdd 32 (s.get .PCX_BAR2_DROP_COUNT) 1
      ∧ .bar2Data (List.replicate len 0xFF) false ∈ t.out ∧ Noted { code := 0x6005, part := some q, skind := 6 } s t
      ∧ OnlyChanges (evFlds ++ ([.PCX_BAR2_DROP_COUNT] : List Fld)) evComps s t)
  ∧ (∀ (s : State) (off q : Nat) (data : List Byte), let a := min 224 (s.get .MEM_WIN_BASE) * 2 ^ 30 + off
    off + data.length ≤ 2 ^ 36 → a + data.length ≤ 0x4800000000 → s.boot.tripped = false →
    q < 128 → s.runSt q = 3 → 0 < (s.hbmRange q).2 → a < (s.hbmRange q).1 + (s.hbmRange q).2 → (s.hbmRange q).1 < a + data.length → data ≠ [] →
    (∀ r, r < q → s.runSt r ≠ 3) →
    ∃ t, exec (.bar2Write off data) s = .next t ∧ t.get .PCX_BAR2_DROP_COUNT = satAdd 32 (s.get .PCX_BAR2_DROP_COUNT) 1
      ∧ Noted { code := 0x6005, part := some q, skind := 6 } s t ∧ OnlyChanges (evFlds ++ ([.PCX_BAR2_DROP_COUNT] : List Fld)) evComps s t)
  ∧ (∀ (s : State) (off len : Nat) (e : Ecc), let a := min 224 (s.get .MEM_WIN_BASE) * 2 ^ 30 + off
    off + len ≤ 2 ^ 36 → a + len ≤ 0x4800000000 → s.boot.tripped = false →
    (∀ q, q < 128 → s.runSt q = 3 → 0 < (s.hbmRange q).2 → (s.hbmRange q).1 + (s.hbmRange q).2 ≤ a ∨ a + len ≤ (s.hbmRange q).1) →
    (stacksOf a len).any s.inSr = true →
    ∃ t, exec (.bar2Read off len e) s = .next t ∧ t.get .PCX_BAR2_DROP_COUNT = satAdd 32 (s.get .PCX_BAR2_DROP_COUNT) 1
      ∧ .bar2Data (List.replicate len 0xFF) false ∈ t.out ∧ Noted { code := 0x5006, part := s.hbmOwner a len, skind := 6 } s t
      ∧ OnlyChanges (evFlds ++ ([.PCX_BAR2_DROP_COUNT] : List Fld)) evComps s t)
  ∧ (∀ (s : State) (off len : Nat) (e : Ecc) (data : List Byte), (2 ^ 36 < off + len ∨ s.boot.tripped = true) → data.length = len →
    exec (.bar2Read off len e) s = .next s ∧ exec (.bar2Write off data) s = .next s)

/-- OPTICAL, the rack number, RUN and TSET (08_boards_racks_slices.md). -/
def Obligations.BoardSetup : Prop :=
  (∀ (s : State) (p v : Nat), 16 ≤ p → p < 32 → (∀ q, s.portOwner p = some q → s.busy q = false) → s.live .LNK_P_STAT_OPTICAL p = true →
    let f := s.get .LNK_P_PATH_FLIGHT p
    ∃ t, exec (.opticalWrite 0 p v) s = .next t ∧ t.get .LNK_P_STAT_OPTICAL p = bits v 1 1
      ∧ (bits v 1 1 ≠ s.get .LNK_P_STAT_OPTICAL p → f ≠ 0 →
          t.get .LNK_P_STAT_REACH p = b2n (decide (f ≤ if bits v 1 1 = 1 then 2708 else 62))
          ∧ t.get .LNK_P_PATH_ALLOW p = (if bits v 1 1 = 1 then 3 * f + 67 else 256) % 2 ^ 16)
      ∧ (bits v 1 1 = s.get .LNK_P_STAT_OPTICAL p ∨ f = 0 →
          t.get .LNK_P_STAT_REACH p = s.get .LNK_P_STAT_REACH p ∧ t.get .LNK_P_PATH_ALLOW p = s.get .LNK_P_PATH_ALLOW p)
      ∧ OnlyAt [] [(.LNK_P_STAT_OPTICAL, p), (.LNK_P_STAT_REACH, p), (.LNK_P_PATH_ALLOW, p)] [] s t)
  ∧ (∀ (s : State) (who p v : Nat), (who ≠ 0 ∨ p < 16 ∨ 32 ≤ p ∨ ∃ q, s.portOwner p = some q ∧ s.busy q = true) →
    exec (.opticalWrite who p v) s = .next s)
  ∧ (∀ (s : State) (who v : Nat), privileged who = true → s.is .MBX_SETUP_COMMITTED = false →
    ∃ t, exec (.rackWrite who v) s = .next t ∧ t.get .LNK_COORD_RACK = bits v 8 4 ∧ t.get .LNK_COORD_RACKSET = 1
      ∧ OnlyChanges [.LNK_COORD_RACK, .LNK_COORD_RACKSET] [] s t)
  ∧ (∀ (s : State) (who v : Nat), (privileged who = false ∨ s.is .MBX_SETUP_COMMITTED = true) → exec (.rackWrite who v) s = .next s)
  ∧ (∀ (s : State) (who v : Nat), privileged who = true → bit v 0 = true → bit v 8 = false → s.is .LNK_COORD_RACKSET = true →
    s.is .LNK_COORD_STRAP_BAD = false → s.is .LNK_CONF_STAT_BUSY = false → s.anyBusy = false →
    let ps := (List.range 32).filter (fun p => s.getBit .LNK_CONF_MASK_PORTS p)
    ∃ t, exec (.conformateurRun who v) s = .next t ∧ t.get .LNK_CONF_STAT_BUSY = 1 ∧ t.get .LNK_CONF_STAT_DONE = 0
      ∧ t.get .LNK_CONF_CTRL_SYNC_AUTO = bits v 1 1 ∧ t.get .LNK_CONF_CTRL_TPORT = bits v 9 5
      ∧ t.boot = { s.boot with confMask := ps, confUp := ps.filter s.probed }
      ∧ (∀ p ∈ ps, t.get .LNK_P_CONF_STATE p = 0 ∧ t.get .LNK_P_CONF_FAR p = 0 ∧ t.get .LNK_P_CONF_FARPORT p = 0x3F
          ∧ t.get .LNK_P_LAT_LAT p = 0 ∧ t.get .LNK_P_SPR_SPREAD p = 0 ∧ t.get .LNK_P_PATH_FLIGHT p = 0 ∧ t.get .LNK_P_PATH_ALLOW p = 0
          ∧ t.get .LNK_P_STAT_REACH p = 0)
      ∧ (∀ p ∈ ps, ∃ l, t.port p = { s.port p with
            probes := 0, results := [], unanswered := false, probeT1 := none, answer := {}, missed := [], msgs := (s.port p).msgs ++ l }
          ∧ (s.probed p = false → l = [])
          ∧ (s.probed p = true → ∃ m : ConfMsg, l = [.probe m] ∧ m.coord = s.coord ∧ m.port = p ∧ m.bsize = s.is .LNK_COORD_BSIZE
              ∧ m.rackset = true ∧ m.seq = 0))
      ∧ (∀ p, s.getBit .LNK_CONF_MASK_PORTS p = false → look? t.ports p = look? s.ports p
          ∧ t.get .LNK_P_CONF_STATE p = s.get .LNK_P_CONF_STATE p)
      ∧ OnlyChanges [.LNK_CONF_CTRL_SYNC_AUTO, .LNK_CONF_CTRL_TPORT, .LNK_CONF_STAT_BUSY, .LNK_CONF_STAT_DONE, .LNK_P_CONF_STATE,
          .LNK_P_CONF_FAR, .LNK_P_CONF_FARPORT, .LNK_P_LAT_LAT, .LNK_P_SPR_SPREAD, .LNK_P_PATH_FLIGHT, .LNK_P_PATH_ALLOW,
          .LNK_P_STAT_REACH] [.ports, .boot] s t)
  ∧ (∀ (s : State) (who v : Nat), privileged who = true → bit v 0 = true → bit v 8 = false →
    (s.is .LNK_COORD_RACKSET = false ∨ s.is .LNK_COORD_STRAP_BAD = true ∨ s.is .LNK_CONF_STAT_BUSY = true ∨ s.anyBusy = true) →
    ∃ t, exec (.conformateurRun who v) s = .next t ∧ t.get .LNK_CONF_STAT_REFUSED = 1
      ∧ t.get .LNK_CONF_CTRL_SYNC_AUTO = bits v 1 1 ∧ t.get .LNK_CONF_CTRL_TPORT = bits v 9 5
      ∧ OnlyChanges [.LNK_CONF_CTRL_SYNC_AUTO, .LNK_CONF_CTRL_TPORT, .LNK_CONF_STAT_REFUSED] [] s t)
  ∧ (∀ (s : State) (who v : Nat), privileged who = true → bit v 0 = false → bit v 8 = true → bits v 9 5 ∈ s.conformed →
    ∃ t, exec (.tset who v) s = .next t
      ∧ t.out = s.out ++ ([.tallySet (bits v 9 5) ((s.tally * 64 + s.linkLat (bits v 9 5)) / 64 % 2 ^ 56)
          ((s.tally * 64 + s.linkLat (bits v 9 5)) % 64)] : List Out)
      ∧ t.get .LNK_CONF_CTRL_SYNC_AUTO = bits v 1 1 ∧ t.get .LNK_CONF_CTRL_TPORT = bits v 9 5
      ∧ OnlyChanges [.LNK_CONF_CTRL_SYNC_AUTO, .LNK_CONF_CTRL_TPORT] [.out] s t)
  ∧ (∀ (s : State) (who v : Nat), privileged who = true → bit v 0 = false → bit v 8 = true → bits v 9 5 ∉ s.conformed →
    ∃ t, exec (.tset who v) s = .next t ∧ t.get .LNK_CONF_STAT_REFUSED = 1
      ∧ t.get .LNK_CONF_CTRL_SYNC_AUTO = bits v 1 1 ∧ t.get .LNK_CONF_CTRL_TPORT = bits v 9 5
      ∧ OnlyChanges [.LNK_CONF_CTRL_SYNC_AUTO, .LNK_CONF_CTRL_TPORT, .LNK_CONF_STAT_REFUSED] [] s t)
  ∧ (∀ (s : State) (who v : Nat), privileged who = false → exec (.conformateurRun who v) s = .next s ∧ exec (.tset who v) s = .next s)

/-- Probe exchanges and the end of a conformateur run (08_boards_racks_slices.md). The rounding of an odd time difference is the model's
free choice (log entry 13). -/
def Obligations.Probes : Prop :=
  (∀ (s : State) (p : Nat) (m : ConfMsg) (t2 : Nat), s.is .LNK_P_STAT_UP p = true → p < 32 →
    ∃ t, exec (.probe p m t2) s = .next t ∧ t.port p = { s.port p with probeIn := some (m, t2) } ∧ OnlyChanges [] [.port p] s t)
  ∧ (∀ (s : State) (p : Nat) (m : ConfMsg) (t2 : Nat), (s.is .LNK_P_STAT_UP p = false ∨ 32 ≤ p) → exec (.probe p m t2) s = .next s)
  ∧ (∀ (s : State) (p : Nat) (m : ConfMsg) (t2 : Nat), (s.port p).probeIn = some (m, t2) → s.tb.slots = t2 / 64 + 128 → s.sends p = true →
    ∃ t, exec (.probeReplySend p) s = .next t ∧ t.port p = { s.port p with probeIn := none }
      ∧ t.out = s.out ++ ([.maint p (blockBytes ((s.port p).naks.map (·.1))
          (.reply { s.confMsg p with t1 := m.t1, t2 := t2, t3 := (t2 / 64 + 128) * 64, seq := m.seq }))] : List Out)
      ∧ OnlyChanges [] [.port p, .out] s t)
  ∧ (∀ (s : State) (p t1 t4 : Nat) (m : ConfMsg) (n2 : Int), s.is .LNK_CONF_STAT_BUSY = true → (s.port p).probeT1 = some t1 → m.t1 = t1 →
    m.seq = (s.port p).probes → (s.port p).probes < 16 → n2 = ((t4 : Int) - t1) - ((m.t3 : Int) - m.t2) → 0 ≤ n2 →
    ∃ t lat : Nat, ∃ u, exec (.probeReply p m t4) s = .next u ∧ t = (s.port p).probes + 1
      ∧ (n2 = 2 * lat ∨ n2 = 2 * lat + 1 ∨ n2 = 2 * lat - 1)
      ∧ u.port p = { s.port p with
          results := (s.port p).results ++ [lat], answer := m, probes := t, probeT1 := none
          msgs := (s.port p).msgs ++ (if t < 16 then [.probe { s.confMsg p with seq := t }] else []) }
      ∧ u.free = s.free + 1 ∧ OnlyChanges [] [.port p, .free] s u)
  ∧ (∀ (s : State) (p t4 : Nat) (m : ConfMsg), (s.is .LNK_CONF_STAT_BUSY = false ∨ (s.port p).probeT1 ≠ some m.t1 ∨ m.seq ≠ (s.port p).probes) →
    exec (.probeReply p m t4) s = .next s)
  ∧ (∀ (s : State) (p t1 : Nat), s.is .LNK_CONF_STAT_BUSY = true → (s.port p).probeT1 = some t1 → (s.port p).probes < 16 →
    t1 / 64 + 2048 ≤ s.tb.slots →
    let n := (s.port p).probes + 1
    ∃ t, exec (.probeTimeout p) s = .next t
      ∧ t.port p = { s.port p with
          unanswered := true, probes := n, probeT1 := none
          msgs := (s.port p).msgs ++ (if n < 16 then [.probe { s.confMsg p with seq := n }] else []) }
      ∧ OnlyChanges [] [.port p] s t)
  ∧ (∀ (s : State) (p : Nat), (s.is .LNK_CONF_STAT_BUSY = false ∨ ∀ t1, (s.port p).probeT1 = some t1 → s.tb.slots < t1 / 64 + 2048) →
    exec (.probeTimeout p) s = .next s)
  ∧ (∀ (s : State), s.is .LNK_CONF_STAT_BUSY = true →
    (∀ p ∈ s.boot.confUp, s.is .LNK_P_STAT_UP p = true → 16 ≤ (s.port p).probes) → s.boot.confMask.Nodup → (∀ p ∈ s.boot.confMask, p < 32) →
    ∃ t, exec .conformateurDone s = .next t ∧ t.get .LNK_CONF_STAT_BUSY = 0 ∧ t.get .LNK_CONF_STAT_DONE = 1
      ∧ (∀ p ∈ s.boot.confMask,
          let rs := (s.port p).results
          let l := rs.foldl min (rs.headD 0)
          t.get .LNK_P_CONF_STATE p = (if s.spare p then 7 else if s.is .LNK_P_STAT_UP p = false then 8 else if p ∉ s.boot.confUp then 0
            else if (s.port p).unanswered = true ∨ rs.length < 16 then 4 else if s.wrongEnd p (s.port p).answer then 3
            else if 4 < rs.foldl max 0 - l then 5 else if s.flightLimit p < ceilDiv l 64 then 6 else if p < 16 then 1 else 2)
          ∧ (t.get .LNK_P_CONF_STATE p ∈ ([1, 2, 3, 5, 6] : List Nat) → t.get .LNK_P_LAT_LAT p = l % 2 ^ 18
              ∧ t.get .LNK_P_PATH_FLIGHT p = ceilDiv l 64 % 2 ^ 16 ∧ t.get .LNK_P_CONF_FAR p = (s.port p).answer.coord % 2 ^ 12
              ∧ t.get .LNK_P_CONF_FARPORT p = (s.port p).answer.port % 2 ^ 6 ∧ t.get .LNK_P_SPR_SPREAD p = min 63 (rs.foldl max 0 - l)
              ∧ t.get .LNK_P_STAT_REACH p = b2n (decide (t.get .LNK_P_PATH_FLIGHT p ≤ s.flightLimit p))
              ∧ t.get .LNK_P_PATH_ALLOW p = s.allowFor p (t.get .LNK_P_PATH_FLIGHT p) % 2 ^ 16))
      ∧ (∀ f p, f ∈ ([.LNK_P_CONF_STATE, .LNK_P_CONF_FAR, .LNK_P_CONF_FARPORT, .LNK_P_LAT_LAT, .LNK_P_SPR_SPREAD, .LNK_P_PATH_FLIGHT,
            .LNK_P_PATH_ALLOW, .LNK_P_STAT_REACH] : List Fld) → p < 32 →
          (p ∉ s.boot.confMask ∨ (f ≠ .LNK_P_CONF_STATE ∧ t.get .LNK_P_CONF_STATE p ∉ ([1, 2, 3, 5, 6] : List Nat))) →
          t.get f p = s.get f p)
      ∧ RaisedAll ((s.boot.confMask.filter (fun p => decide (t.get .LNK_P_CONF_STATE p ∈ ([1, 2, 3, 5, 6] : List Nat))
            && (s.port p).answer.coord == s.coord)).map (fun p => { code := 0x4003, skind := 7, sindex := p, detail := s.coord })) s t
      ∧ t.get .TIM_SYNC_PARENT_PORT = (if s.is .LNK_CONF_CTRL_SYNC_AUTO then (if s.is .TIM_CTRL_CROWN then 0x3F else t.nearest.getD 0x3F)
          else s.get .TIM_SYNC_PARENT_PORT)
      ∧ (s.is .LNK_CONF_CTRL_SYNC_AUTO = true → s.is .TIM_CTRL_CROWN = false → t.nearest = none → t.get .TIM_STATUS_LOCK = 0)
      ∧ (s.is .TIM_CTRL_CROWN = true → t.get .TIM_STATUS_LOCK = s.get .TIM_STATUS_LOCK)
      ∧ t.get .MBX_BOOT_STAGE = (if s.get .MBX_BOOT_STAGE = 8 then 9 else s.get .MBX_BOOT_STAGE)
      ∧ OnlyChanges (evFlds ++ ([.LNK_P_CONF_STATE, .LNK_P_CONF_FAR, .LNK_P_CONF_FARPORT, .LNK_P_LAT_LAT, .LNK_P_SPR_SPREAD,
          .LNK_P_PATH_FLIGHT, .LNK_P_PATH_ALLOW, .LNK_P_STAT_REACH, .LNK_CONF_STAT_BUSY, .LNK_CONF_STAT_DONE,
          .TIM_SYNC_PARENT_PORT, .TIM_STATUS_LOCK, .MBX_BOOT_STAGE] : List Fld)) (evComps ++ ([.tb] : List Comp)) s t)
  ∧ (∀ (s : State), (s.is .LNK_CONF_STAT_BUSY = false ∨ ∃ p ∈ s.boot.confUp, s.is .LNK_P_STAT_UP p = true ∧ (s.port p).probes < 16) →
    exec .conformateurDone s = .next s)

/-- Hop adverts and crown conflicts (08_boards_racks_slices.md). -/
def Obligations.HopAdverts : Prop :=
  (∀ (s : State), ∃ t, exec .hopAdvertSend s = .next t
      ∧ (∀ p, p < 32 → s.is .LNK_P_STAT_UP p = true → ∃ m : ConfMsg, t.port p = { s.port p with msgs := (s.port p).msgs ++ [.advert m] }
          ∧ m.coord = s.coord ∧ m.port = p ∧ m.hops = (if s.is .TIM_CTRL_CROWN then 0 else match s.nearest with
            | some y => min 255 (s.get .LNK_P_SPR_FARHOPS y + 1)
            | none => 255)
          ∧ m.crown = (if s.is .TIM_CTRL_CROWN then s.coord else if m.hops = 255 then 0 else match s.nearest with
            | some y => (s.port y).crown
            | none => 0))
      ∧ (∀ p, (s.is .LNK_P_STAT_UP p = false ∨ 32 ≤ p) → t.port p = s.port p) ∧ OnlyChanges [] [.ports] s t)
  ∧ (∀ (s : State) (p : Nat) (m : ConfMsg), s.is .LNK_P_STAT_UP p = true → p < 32 → s.conflictWith p m = false →
    ∃ t, exec (.hopAdvertReceive p m) s = .next t ∧ t.get .LNK_P_SPR_FARHOPS p = m.hops % 2 ^ 8 ∧ t.port p = { s.port p with crown := m.crown }
      ∧ OnlyAt [] [(.LNK_P_SPR_FARHOPS, p)] [.port p] s t)
  ∧ (∀ (s : State) (p : Nat) (m : ConfMsg), s.is .LNK_P_STAT_UP p = true → p < 32 → m.hops < 255 →
    ((s.is .TIM_CTRL_CROWN = true ∧ m.crown ≠ s.coord)
      ∨ (s.is .TIM_CTRL_CROWN = false ∧ p ∈ s.conformed
          ∧ ∃ r ∈ s.conformed, r ≠ p ∧ s.get .LNK_P_SPR_FARHOPS r < 255 ∧ (s.port r).crown ≠ m.crown)) →
    ∃ t, exec (.hopAdvertReceive p m) s = .next t ∧ t.get .TIM_STATUS_CONFLICT = 1 ∧ t.get .TIM_STATUS_LOCK = 0
      ∧ t.get .LNK_P_SPR_FARHOPS p = m.hops ∧ t.tb = { s.tb with lockOk := false, goodExch := 0 }
      ∧ t.boot = { s.boot with conflictSince := s.tb.slots } ∧ t.port p = { s.port p with crown := m.crown }
      ∧ (s.is .TIM_STATUS_CONFLICT = false → Raised { code := 0x4006, detail := s.ownCrown % 2 ^ 12 + m.crown % 2 ^ 12 * 2 ^ 12 } s t)
      ∧ (s.is .TIM_STATUS_CONFLICT = true → t.evr = s.evr)
      ∧ OnlyAt (evFlds ++ ([.TIM_STATUS_CONFLICT, .TIM_STATUS_LOCK] : List Fld)) [(.LNK_P_SPR_FARHOPS, p)]
          (evComps ++ ([.port p, .tb, .boot] : List Comp)) s t)
  ∧ (∀ (s : State) (p : Nat) (m : ConfMsg), (s.is .LNK_P_STAT_UP p = false ∨ 32 ≤ p) → exec (.hopAdvertReceive p m) s = .next s)
  ∧ (∀ (s : State), s.is .TIM_STATUS_CONFLICT = true → s.boot.conflictSince + 2048 ≤ s.tb.slots →
    ∃ t, exec .conflictClear s = .next t ∧ t.get .TIM_STATUS_CONFLICT = 0 ∧ OnlyChanges [.TIM_STATUS_CONFLICT] [] s t)
  ∧ (∀ (s : State), (s.is .TIM_STATUS_CONFLICT = false ∨ s.tb.slots < s.boot.conflictSince + 2048) → exec .conflictClear s = .next s)

/-- Submission descriptors: malformed, NOP, STOP, WATCH, LOAD, UNLOAD (09_host_rings.md, 12_block_image_to_stamp.md, 16_watching_a_run.md).
How full an observation bucket starts (log entry 101) is a free value. -/
def Obligations.Submissions : Prop :=
  (∀ (s : State) (fn : Nat) (b : List Byte) (r : List (List Byte)), (s.ring fn 0).fetched = b :: r → (parseSub fn b).bad = true →
    s.cmdBusy fn = false →
    ∃ t, exec (.submissionMalformed fn) s = .next t ∧ DoneWith fn (parseSub fn b) r 1 s t ∧ SubFrame fn s t ∧ OnlyChanges [] [.hre] s t)
  ∧ (∀ (s : State) (fn : Nat), ((s.ring fn 0).fetched = [] ∨ s.cmdBusy fn = true
      ∨ ∃ b r, (s.ring fn 0).fetched = b :: r ∧ (parseSub fn b).bad = false) → exec (.submissionMalformed fn) s = .next s)
  ∧ (∀ (s : State) (fn : Nat) (d : Sub) (r : List (List Byte)), s.subFor fn 1 = some (d, r) →
    ∃ t, exec (.nop fn) s = .next t ∧ DoneWith fn d r 0 s t ∧ SubFrame fn s t ∧ OnlyChanges [] [.hre] s t)
  ∧ (∀ (s : State) (fn : Nat) (d : Sub) (r : List (List Byte)), s.subFor fn 5 = some (d, r) → s.loadBusy d.q = false →
    let f : FaultMsg := { part := d.q, code := 0x9002, step := some (s.curStep d.q), srck := 6, node := fn }
    ∃ t, exec (.stop fn) s = .next t ∧ DoneWith fn d r 0 s t
      ∧ (s.runSt d.q = 3 → SentFaults [f] s t
          ∧ Raised { code := 0x9002, part := some d.q, skind := 6, sindex := fn, detail := s.curStep d.q } s t)
      ∧ (s.runSt d.q ≠ 3 → SubFrame fn s t ∧ OnlyChanges [] [.hre] s t) ∧ OnlyChanges evFlds (evComps ++ ([.ctl] : List Comp)) s t)
  ∧ (∀ (s : State) (fn : Nat) (d : Sub) (r : List (List Byte)), s.subFor fn 5 = some (d, r) → s.loadBusy d.q = true →
    exec (.stop fn) s = .next s)
  ∧ (∀ (s : State) (fn : Nat) (d : Sub) (r : List (List Byte)), s.subFor fn 6 = some (d, r) →
    ∃ t, exec (.watch fn) s = .next t ∧ DoneWith fn d r 0 s t ∧ SubFrame fn s t
      ∧ (s.runSt d.q ≠ 3 → t.get .DBG_WMASK_MASK d.q = d.argN 8 8 % 2 ^ 64 ∧ t.part d.q = s.part d.q)
      ∧ (s.runSt d.q = 3 → t.get .DBG_WMASK_MASK d.q = s.get .DBG_WMASK_MASK d.q
          ∧ t.part d.q = { s.part d.q with wmaskNext := some (d.argN 8 8 + s.curStep d.q * 2 ^ 64) })
      ∧ OnlyAt [] [(.DBG_WMASK_MASK, d.q)] [.hre, .part d.q] s t)
  ∧ (∀ (s : State) (fn : Nat) (d : Sub) (r : List (List Byte)) (img : BlockImage), look? s.hre.loads fn = none → s.subFor fn 2 = some (d, r) →
    bit (d.argN 20 1) 0 = false → s.linkUp = true →
    let ps := pieces s.readMax (d.argN 8 8) (d.argN 16 4)
    ∃ t, exec (.load fn img) s = .next t ∧ (t.ring fn 0).fetched = r ∧ t.part d.q = { s.part d.q with loadFn := fn }
      ∧ look? t.hre.loads fn = some { desc := (s.ring fn 0).fetched.headD [], left := ps.length, second := decide (ps.length = 0) }
      ∧ (∀ x ∈ ps, Reading (.load fn false x.1) (d.argN 8 8 + x.1) x.2 s t)
      ∧ (∀ g e, look? s.hre.dma g = some e → look? t.hre.dma g = some e) ∧ OnlyChanges [] [.hre, .part d.q, .out] s t)
  ∧ (∀ (s : State) (fn : Nat) (d : Sub) (r : List (List Byte)) (img : BlockImage), look? s.hre.loads fn = none → s.subFor fn 2 = some (d, r) →
    bit (d.argN 20 1) 0 = false → s.linkUp = false → d.argN 16 4 ≠ 0 →
    ∃ t, exec (.load fn img) s = .next t ∧ DoneWith fn d r 2 s t ∧ look? t.hre.loads fn = none
      ∧ t.part d.q = { s.part d.q with loadFn := fn } ∧ OnlyChanges [] [.hre, .part d.q] s t)
  ∧ (∀ (s : State) (fn : Nat) (j : LoadJob) (img : BlockImage), look? s.hre.loads fn = some j → (j.second = false ∨ j.left ≠ 0) →
    exec (.load fn img) s = .next s)
  ∧ (∀ (s s1 : State) (fn : Nat) (j : LoadJob) (img : BlockImage), look? s.hre.loads fn = some j → j.second = true → j.left = 0 →
    s1 = { s with hre := { s.hre with loads := del s.hre.loads fn } } →
    ∃ t, exec (.load fn img) s = .next t ∧ Judged s1 t fn (parseSub fn j.desc) (joined j.got1) (joined j.got2) img)
  ∧ (∀ (s s1 : State) (fn : Nat) (d : Sub) (r : List (List Byte)) (img : BlockImage), look? s.hre.loads fn = none →
    s.subFor fn 2 = some (d, r) → bit (d.argN 20 1) 0 = true → s1 = (s.setFetched fn r).setPart d.q { s.part d.q with loadFn := fn } →
    s.inRange d.q (d.argN 8 8) (d.argN 16 4) = true → (∀ k < 8, s.inSr k = false) →
    let b := readBytes s.hbm.bytes (d.argN 8 8) (d.argN 16 4)
    ∃ t, exec (.load fn img) s = .next t ∧ Judged s1 t fn d b b img)
  ∧ (∀ (s : State) (fn : Nat) (d : Sub) (r : List (List Byte)) (img : BlockImage), look? s.hre.loads fn = none → s.subFor fn 2 = some (d, r) →
    bit (d.argN 20 1) 0 = true → s.inRange d.q (d.argN 8 8) (d.argN 16 4) = false →
    ∃ t, exec (.load fn img) s = .next t ∧ (t.ring fn 0).fetched = r ∧ SubFrame fn s t ∧ t.part d.q = { s.part d.q with loadFn := fn }
      ∧ (s.boot.perst = false → Formed fn
          { kind := 2, irq := d.irq, status := 5, tag := d.tag,
            detail := toLE 1 d.q ++ toLE 1 0 ++ toLE 2 0 ++ toLE 2 0 ++ toLE 2 0 ++ toLE 1 0 ++ toLE 1 10 ++ toLE 1 0x3F } s t)
      ∧ OnlyChanges [] [.hre, .part d.q] s t)
  ∧ (∀ (s s1 : State) (fn : Nat) (d : Sub) (r : List (List Byte)) (img : BlockImage), look? s.hre.loads fn = none →
    s.subFor fn 2 = some (d, r) → bit (d.argN 20 1) 0 = true → s1 = (s.setFetched fn r).setPart d.q { s.part d.q with loadFn := fn } →
    s.inRange d.q (d.argN 8 8) (d.argN 16 4) = true → (∃ k ∈ stacksOf (d.argN 8 8) (d.argN 16 4), s.inSr k = true) →
    let b := (readBytes s.hbm.bytes (d.argN 8 8) (d.argN 16 4)).zipIdx.map
      (fun x => if s.inSr (stackOf (d.argN 8 8 + x.2)) then 0xFF else x.1)
    ∃ s2 t, exec (.load fn img) s = .next t ∧ Noted { code := 0x5006, skind := 6, sindex := 0, detail := d.argN 8 8 % 2 ^ 48 } s1 s2
      ∧ OnlyChanges evFlds evComps s1 s2 ∧ Judged s2 t fn d b b img)
  ∧ (∀ (s : State) (q : Nat) (m : Image), (s.part q).loading = some m → q < 128 → s.domsReady q m = true → s.boot.tripped = false →
    (∀ k < 8, s.inSr k = false) → (∀ d < 8, 600 ≤ s.rail d) →
    ∃ t, exec (.loadApply q) s = .next t ∧ (∃ tok, tok ≤ m.img.obw ∧ t.part q = (s.part q).loaded m tok s.tb.slots)
      ∧ t.get .PRT_STAT_IMAGE q = 1 ∧ t.runSt q = 0 ∧ t.get .LNK_BANK_ACTIVE q = 0 ∧ t.get .LNK_BANK_PENDING q = 0
      ∧ t.get .DBG_TRC_SIZE_TSIZE q = m.img.tsize ∧ t.get .DBG_OBW_BYTES q = m.img.obw ∧ (∀ f ∈ dbgRegs, t.get f q = 0)
      ∧ (∀ k ∈ s.rowsOf q m.img, t.get .MEM_REMAP_FAILCOL k = (s.rowMap k).getD 0x1F
          ∧ t.get .MEM_REMAP_SPARE_BAD k = b2n (s.spareBad k))
      ∧ (∀ l ∈ m.img.panels, (t.panel (t.winOfLog l)).part = some q ∧ (t.panel (t.winOfLog l)).gated = false)
      ∧ (∀ x ∈ m.img.slices, ∃ y, look? (t.node (t.nodeKey x.node)).slices q = some y ∧ y.activeB = false)
      ∧ (∀ ix ∈ (s.part q).plan, ix.1 < m.img.ctxs.length → t.get .SEQ_CTX_BIND_PART ix.2 = q % 128
          ∧ t.get .SEQ_CTX_BIND_BOUND ix.2 = 1 ∧ t.get .SEQ_CTX_STATE_STATE ix.2 = 1)
      ∧ ((m.img.hbm.map (·.1)).Nodup → ∀ e ∈ m.img.hbm, look 0 t.hbm.bytes e.1 = e.2)
      ∧ (∀ a, (∀ e ∈ m.img.hbm, e.1 ≠ a) → look 0 t.hbm.bytes a = look 0 s.hbm.bytes a)
      ∧ (∀ a, (a < s.shrBase q ∨ s.shrBase q + s.shrSize q ≤ a) → (∀ e ∈ m.img.shared, s.shrBase q + e.1 ≠ a) → look 0 t.shr a = look 0 s.shr a)
      ∧ (∀ r ∈ [12, 13, 14, 15], (t.ring (s.part q).loadBy r).fseq = 0 ∧ (t.ring (s.part q).loadBy r).gap = none
          ∧ (t.ring (s.part q).loadBy r).part = some q)
      ∧ (∀ d < 8, t.rail d = max 730 (s.rail d)) ∧ DomainsFollow s t
      ∧ (s.boot.perst = false → Formed (s.part q).loadBy
        { kind := 1, irq := (s.part q).loadIrq, tag := (s.part q).loadTag, detail := toLE 1 q ++ toLE 1 2 } s t)
      ∧ OnlyChanges (powerFlds ++ panelRegs ++ dbgRegs ++ [.MEM_REMAP_FAILCOL, .MEM_REMAP_SPARE_BAD, .PNL_HOOD_REMAPPED,
          .LNK_BANK_ACTIVE, .LNK_BANK_PENDING, .SEQ_CTX_BIND_PART, .SEQ_CTX_BIND_BOUND, .SEQ_CTX_BIND_SIZE, .SEQ_CTX_ENTRY_ENTRY,
          .SEQ_CTX_STATE_STATE, .DBG_TRC_SIZE_TSIZE, .DBG_OBW_BYTES, .DBG_OBW_USED_BYTES, .PRT_STAT_IMAGE, .TIM_LAUNCH_STATE_STATE])
          (powerComps ++ ([.part q, .panels, .nodes, .ctxs, .mem, .free, .boot] : List Comp)) s t)
  ∧ (∀ (s : State) (q : Nat), ((s.part q).loading = none ∨ 128 ≤ q ∨ s.boot.tripped = true
      ∨ ∃ m, (s.part q).loading = some m ∧ s.domsReady q m = false) → exec (.loadApply q) s = .next s)
  ∧ (∀ (s : State) (fn : Nat) (d : Sub) (r : List (List Byte)), s.subFor fn 3 = some (d, r) → s.busy d.q = true →
    ∃ t, exec (.unload fn) s = .next t ∧ DoneWith fn d r 3 s t ∧ SubFrame fn s t ∧ OnlyChanges [] [.hre] s t)
  ∧ (∀ (s : State) (fn : Nat) (d : Sub) (r : List (List Byte)), s.subFor fn 3 = some (d, r) → s.busy d.q = false → d.q < 128 →
    ∃ t, exec (.unload fn) s = .next t ∧ DoneWith fn d r 0 s t ∧ (t.part d.q).image = none
      ∧ (t.part d.q).loading = (s.part d.q).loading ∧ t.get .PRT_STAT_IMAGE d.q = 0 ∧ t.runSt d.q = 0
      ∧ (∀ w, (s.panel w).part = some d.q → ∃ n, t.panel w = { undef := some n })
      ∧ (∀ w, (∀ e ∈ s.panels, e.1 = w → e.2.part ≠ some d.q) → t.panel w = s.panel w)
      ∧ (∀ x ∈ s.ctxsOf d.q, t.get .SEQ_CTX_BIND_BOUND x = 0 ∧ t.ctx x = {}) ∧ (∀ n, look? (t.node n).slices d.q = none)
      ∧ (∀ n q, q ≠ d.q → look? (t.node n).slices q = look? (s.node n).slices q)
      ∧ (∀ m, (s.part d.q).image = some m → ∀ k ∈ s.rowsOf d.q m.img, s.rowHeld d.q k = false → t.get .MEM_REMAP_FAILCOL k = 0x1F)
      ∧ t.get .DBG_TRC_SIZE_TSIZE d.q = 0 ∧ t.get .DBG_OBW_BYTES d.q = 0 ∧ t.get .DBG_HALT_STATE d.q = 0 ∧ t.get .SEQ_SEM_HELD d.q = 0
      ∧ (∀ r' ∈ [12, 13, 14, 15], s.holds d.q = true → ∀ f ∈ (t.ring (s.part d.q).ringFn r').frames, f.part ≠ d.q) ∧ DomainsFollow s t
      ∧ OnlyChanges (powerFlds ++ ([.MEM_REMAP_FAILCOL, .PNL_HOOD_REMAPPED, .SEQ_CTX_BIND_PART, .SEQ_CTX_BIND_BOUND, .SEQ_CTX_BIND_SIZE,
          .SEQ_CTX_STATE_STATE, .PRT_STAT_IMAGE, .TIM_LAUNCH_STATE_STATE, .DBG_TRC_SIZE_TSIZE, .DBG_OBW_BYTES, .DBG_OBW_USED_BYTES,
          .DBG_HALT_STATE, .SEQ_SEM_HELD, .PWR_PACE_CTRL_APPLIED] : List Fld))
          (powerComps ++ ([.part d.q, .panels, .nodes, .ctxs, .free] : List Comp)) s t)
  ∧ (∀ (s : State) (fn : Nat) (img : BlockImage), (∀ op, s.subFor fn op = none) → look? s.hre.loads fn = none →
    exec (.nop fn) s = .next s ∧ exec (.stop fn) s = .next s ∧ exec (.watch fn) s = .next s ∧ exec (.unload fn) s = .next s
      ∧ exec (.load fn img) s = .next s)

/-- HALT, RESUME and the resume handshake (16_watching_a_run.md, 09_host_rings.md). That a HALT without a run or a reachable halt point
completes with STATUS 5 (log entry 17), what a RESUME meets in another's progress (log entry 164) and the code of a resume not committed
(log entry 165) are the model's choice. -/
def Obligations.DebugHalts : Prop :=
  (∀ (s : State) (fn h : Nat) (d : Sub) (r : List (List Byte)), s.subFor fn 7 = some (d, r) → s.runSt d.q = 3 → s.haltStep d.q = some h →
    (s.get .DBG_HALT_STATE d.q = 0 ∨ (s.get .DBG_HALT_STATE d.q = 1 ∧ h < s.get .DBG_HSTEP_STEP d.q)) →
    let m : HaltMsg := { part := d.q, src := s.coord, hard := bit (d.argN 8 1) 0, cause := 1, hstep := h,
                         launch := s.get .TIM_LAUNCH_AT_AT d.q, tcoord := s.coord }
    let old : List (Nat × Nat × Bool) := match (s.part d.q).halt with
      | some x => x.cmds
      | none => []
    ∃ t, exec (.haltCommand fn) s = .next t ∧ (t.ring fn 0).fetched = r ∧ SubFrame fn s t ∧ t.get .DBG_HALT_STATE d.q = 1
      ∧ t.get .DBG_HALT_CAUSE d.q = 1 ∧ t.get .DBG_HALT_HARD d.q = b2n (bit (d.argN 8 1) 0) ∧ t.get .DBG_HSTEP_STEP d.q = h % 2 ^ 32
      ∧ t.part d.q = { s.part d.q with halt := some { msg := m, cmds := old ++ [(fn, d.tag, d.irq)] } }
      ∧ Sent 22 false ((s.image d.q).img.ports.map (fun p => s.pkTo 22 22 d.q ((s.image d.q).coordOf p.far) (.halt 1 m))) s t
      ∧ t.ctl.ejq = s.ctl.ejq
      ∧ OnlyAt [] [(.DBG_HALT_STATE, d.q), (.DBG_HALT_HARD, d.q), (.DBG_HALT_CAUSE, d.q), (.DBG_HSTEP_STEP, d.q)]
          [.part d.q, .hre, .ctl] s t)
  ∧ (∀ (s : State) (fn h : Nat) (d : Sub) (r : List (List Byte)) (x : HaltSt), s.subFor fn 7 = some (d, r) → s.runSt d.q = 3 →
    s.haltStep d.q = some h → s.get .DBG_HALT_STATE d.q = 1 → s.get .DBG_HSTEP_STEP d.q ≤ h → (s.part d.q).halt = some x →
    ∃ t, exec (.haltCommand fn) s = .next t ∧ (t.ring fn 0).fetched = r ∧ SubFrame fn s t
      ∧ t.part d.q = { s.part d.q with halt := some { x with cmds := x.cmds ++ [(fn, d.tag, d.irq)] } }
      ∧ OnlyChanges [] [.part d.q, .hre] s t)
  ∧ (∀ (s : State) (fn : Nat) (d : Sub) (r : List (List Byte)), s.subFor fn 7 = some (d, r) → s.runSt d.q = 3 →
    s.get .DBG_HALT_STATE d.q < 2 → s.haltStep d.q = none →
    ∃ t, exec (.haltCommand fn) s = .next t ∧ DoneWith fn d r 5 s t ∧ t.get .DBG_HALT_LAPSED d.q = 1
      ∧ Raised { code := 0xD004, part := some d.q, detail := s.curStep d.q } s t
      ∧ OnlyAt evFlds [(.DBG_HALT_LAPSED, d.q)] evComps s t)
  ∧ (∀ (s : State) (fn : Nat) (d : Sub) (r : List (List Byte)), s.subFor fn 7 = some (d, r) →
    (s.runSt d.q ≠ 3 ∨ 2 ≤ s.get .DBG_HALT_STATE d.q) →
    ∃ t, exec (.haltCommand fn) s = .next t ∧ DoneWith fn d r (if s.runSt d.q = 3 then 0 else 5) s t ∧ SubFrame fn s t
      ∧ OnlyChanges [] [.hre] s t)
  ∧ (∀ (s : State) (m : HaltMsg), s.runSt m.part = 3 → m.launch = s.get .TIM_LAUNCH_AT_AT m.part →
    (s.get .DBG_HALT_STATE m.part = 0 ∨ (s.get .DBG_HALT_STATE m.part = 1 ∧ m.hstep < s.get .DBG_HSTEP_STEP m.part)) →
    let old : List (Nat × Nat × Bool) := match (s.part m.part).halt with
      | some x => x.cmds
      | none => []
    ∃ t, exec (.haltNotice m) s = .next t ∧ t.get .DBG_HALT_STATE m.part = 1 ∧ t.get .DBG_HALT_CAUSE m.part = 3
      ∧ t.get .DBG_HALT_HARD m.part = b2n m.hard ∧ t.get .DBG_HSTEP_STEP m.part = m.hstep % 2 ^ 32
      ∧ t.part m.part = { s.part m.part with halt := some { msg := m, cmds := old } }
      ∧ Sent 22 false ((s.image m.part).img.ports.map (fun p => s.pkTo 22 22 m.part ((s.image m.part).coordOf p.far) (.halt 1 m))) s t
      ∧ Took 22 false (fun p => p.payload == .halt 1 m) s t
      ∧ OnlyAt [] [(.DBG_HALT_STATE, m.part), (.DBG_HALT_HARD, m.part), (.DBG_HALT_CAUSE, m.part), (.DBG_HSTEP_STEP, m.part)]
          [.part m.part, .ctl] s t)
  ∧ (∀ (s : State) (m : HaltMsg), (s.runSt m.part ≠ 3 ∨ m.launch ≠ s.get .TIM_LAUNCH_AT_AT m.part ∨ 2 ≤ s.get .DBG_HALT_STATE m.part
      ∨ (s.get .DBG_HALT_STATE m.part = 1 ∧ s.get .DBG_HSTEP_STEP m.part ≤ m.hstep)) →
    ∃ t, exec (.haltNotice m) s = .next t ∧ Sent 22 false [] s t ∧ Took 22 false (fun p => p.payload == .halt 1 m) s t
      ∧ OnlyChanges [] [.ctl] s t)
  ∧ (∀ (s : State) (q : Nat) (hs : HaltSt), (s.part q).halt = some hs → s.runSt q = 3 → (s.part q).stop = none → s.get .DBG_HALT_STATE q = 1 →
    s.reached q (s.boundary q (s.get .DBG_HSTEP_STEP q)) = true →
    let hard := s.is .DBG_HALT_HARD q
    let cause := s.get .DBG_HALT_CAUSE q
    let live := (s.ctxsOf q).filter (fun x => decide (2 ≤ s.get .SEQ_CTX_STATE_STATE x) && decide (s.get .SEQ_CTX_STATE_STATE x < 9))
    ∃ t, exec (.debugHaltReached q) s = .next t ∧ t.get .DBG_HALT_STATE q = 2
      ∧ t.get .DBG_HAT_TALLY q = s.slotTally q (s.boundary q (s.get .DBG_HSTEP_STEP q))
      ∧ (t.part q).halt = some { hs with cmds := [] }
      ∧ (∀ x ∈ live, hard = true ∨ (s.ctx x).lock = none → t.get .SEQ_CTX_STATE_STATE x = 11)
      ∧ (∀ x ∈ live, hard = true → (s.ctx x).lock ≠ none → (t.ctx x).resv = none)
      ∧ (∀ x ∈ live, ∀ n < 32, hard = true → s.getBit .SEQ_SEM_HELD n q = true → look? (s.part q).semOwner n = some x →
          (∀ y ∈ (s.part q).semWait, (s.ctx y).waitArg ≠ n) →
          t.getBit .SEQ_SEM_HELD n q = false ∧ look? (t.part q).semOwner n = none)
      ∧ (hard = false → ∀ x ∈ live, t.ctx x = if (s.ctx x).lock.isSome then { s.ctx x with haltPend := true }
            else { s.ctx x with haltSt := s.get .SEQ_CTX_STATE_STATE x })
      ∧ (hard = false → ∀ x ∈ live, (s.ctx x).lock ≠ none → t.get .SEQ_CTX_STATE_STATE x = s.get .SEQ_CTX_STATE_STATE x)
      ∧ RaisedAll ((if hard then (live.filter (fun x => (s.ctx x).lock.isSome)).map (fun x =>
            { code := 0x8002, part := some q, skind := 5, sindex := x, detail := (s.ctx x).resv.getD 0 }) else [])
          ++ [{ code := 0xD001, part := some q, detail := s.get .DBG_HSTEP_STEP q + cause * 2 ^ 32 + b2n hard * 2 ^ 36 }]) s t
      ∧ (hard = false → Traced s t q (traceBytes 7 q (11 * 4096) s.tally (s.get .DBG_HSTEP_STEP q) 0 0 (cause * 2 ^ 32)))
      ∧ (s.boot.perst = false → ∀ c ∈ hs.cmds, Formed c.1
          { kind := 1, irq := c.2.2, tag := c.2.1, detail := toLE 1 q ++ toLE 1 7 } s t)
      ∧ OnlyAt (traceFlds ++ ([.SEQ_CTX_STATE_STATE, .SEQ_CTX_STATE_PC, .SEQ_CTX_RETIRED_COUNT] : List Fld))
          [(.DBG_HALT_STATE, q), (.DBG_HAT_TALLY, q), (.SEQ_SEM_HELD, q), (.CHK_NDC_COUNT, q)] (evComps ++ ([.part q, .ctxs, .mem] : List Comp)) s t)
  ∧ (∀ (s : State) (q : Nat), ((s.part q).halt = none ∨ s.runSt q ≠ 3 ∨ (s.part q).stop ≠ none ∨ s.get .DBG_HALT_STATE q ≠ 1
      ∨ s.reached q (s.boundary q (s.get .DBG_HSTEP_STEP q)) = false) → exec (.debugHaltReached q) s = .next s)
  ∧ (∀ (s : State) (fn : Nat) (d : Sub) (r : List (List Byte)), s.subFor fn 8 = some (d, r) → s.is .TIM_CTRL_CROWN = true →
    s.get .DBG_HALT_STATE d.q = 2 → s.resuming d.q = false →
    let h := ceilDiv ((s.tally + max 0x4000 (s.get .TIM_LAUNCH_LEAD_LEAD) + 2 ^ 56 - s.get .DBG_HAT_TALLY d.q) % 2 ^ 56) 4000 * 4000
    let m : HaltMsg := { part := d.q, src := s.coord, hstep := s.get .DBG_HSTEP_STEP d.q, r := (s.get .DBG_HAT_TALLY d.q + h) % 2 ^ 56,
                         launch := s.get .TIM_LAUNCH_AT_AT d.q, tcoord := s.coord }
    ∃ t, exec (.resume fn) s = .next t ∧ (t.ring fn 0).fetched = r ∧ SubFrame fn s t
      ∧ t.part d.q = { s.part d.q with halt := some { msg := m, armedBy := [], cmds := [(fn, d.tag, d.irq)] } }
      ∧ Sent 22 false ((s.memberCoords d.q).map (fun c => s.pkTo 22 22 d.q c (.halt 2 m))) s t ∧ t.ctl.ejq = s.ctl.ejq
      ∧ OnlyChanges [] [.part d.q, .hre, .ctl] s t)
  ∧ (∀ (s : State) (fn : Nat) (d : Sub) (r : List (List Byte)), s.subFor fn 8 = some (d, r) →
    (s.is .TIM_CTRL_CROWN = false ∨ s.get .DBG_HALT_STATE d.q ≠ 2 ∨ s.resuming d.q = true) →
    ∃ t, exec (.resume fn) s = .next t ∧ DoneWith fn d r (if s.is .TIM_CTRL_CROWN then 5 else 6) s t ∧ SubFrame fn s t
      ∧ OnlyChanges [] [.hre] s t)
  ∧ (∀ (s : State) (fn : Nat), (∀ op, s.subFor fn op = none) → exec (.haltCommand fn) s = .next s ∧ exec (.resume fn) s = .next s)
  ∧ (∀ (s : State) (m : HaltMsg), 0 ≤ cmp32 m.r s.tally → s.get .DBG_HALT_STATE m.part = 2 → s.get .DBG_HSTEP_STEP m.part = m.hstep →
    (s.image m.part).img.ports.all (s.portFits (s.image m.part)) = true → s.is .TIM_STATUS_LOCK = true →
    ∃ t, exec (.resumeArm m) s = .next t ∧ t.get .DBG_HALT_STATE m.part = 3
      ∧ t.part m.part = { s.part m.part with halt := some { (s.part m.part).halt.getD {} with msg := m, commit := false } }
      ∧ Sent 22 false [s.pkTo 22 22 m.part m.src (.halt 3 { m with src := s.coord, refuse := 0 })] s t
      ∧ Took 22 false (fun p => p.payload == .halt 2 m) s t ∧ OnlyAt [] [(.DBG_HALT_STATE, m.part)] [.part m.part, .ctl] s t)
  ∧ (∀ (s : State) (m : HaltMsg) (c : Nat),
    let fits := (s.image m.part).img.ports.all (s.portFits (s.image m.part))
    let right := s.get .DBG_HALT_STATE m.part = 2 ∧ s.get .DBG_HSTEP_STEP m.part = m.hstep
    ((cmp32 m.r s.tally < 0 ∧ c = 1) ∨ (0 ≤ cmp32 m.r s.tally ∧ ¬ right ∧ c = 7) ∨ (0 ≤ cmp32 m.r s.tally ∧ right ∧ fits = false ∧ c = 4)
      ∨ (0 ≤ cmp32 m.r s.tally ∧ right ∧ fits = true ∧ s.is .TIM_STATUS_LOCK = false ∧ c = 5)) →
    ∃ t, exec (.resumeArm m) s = .next t
      ∧ Sent 22 false [s.pkTo 22 22 m.part m.src (.halt 4 { m with src := s.coord, refuse := c })] s t
      ∧ Took 22 false (fun p => p.payload == .halt 2 m) s t ∧ OnlyChanges [] [.ctl] s t)
  ∧ (∀ (s : State) (m : HaltMsg) (h : HaltSt), (s.part m.part).halt = some h → s.is .TIM_CTRL_CROWN = true → h.cmds ≠ [] → m.r = h.msg.r →
    let by_ := if m.src ∈ h.armedBy then h.armedBy else h.armedBy ++ [m.src]
    let all := (s.memberCoords m.part).all (fun c => c ∈ by_)
    ∃ t, exec (.resumeArmed m) s = .next t
      ∧ t.part m.part = { s.part m.part with halt := some (if all then { h with cmds := [], armedBy := [] } else { h with armedBy := by_ }) }
      ∧ Sent 22 false (if all then (s.memberCoords m.part).map (fun c => s.pkTo 22 22 m.part c (.halt 5 h.msg)) else []) s t
      ∧ Took 22 false (fun p => p.payload == .halt 3 m) s t
      ∧ (all = true → s.boot.perst = false → ∀ c ∈ h.cmds, Formed c.1
          { kind := 1, irq := c.2.2, tag := c.2.1, detail := toLE 1 m.part ++ toLE 1 8 } s t)
      ∧ (all = false → t.hre = s.hre) ∧ OnlyChanges [] [.part m.part, .ctl, .hre] s t)
  ∧ (∀ (s : State) (m : HaltMsg) (h : HaltSt), (s.part m.part).halt = some h → s.is .TIM_CTRL_CROWN = true →
    2 ≤ s.get .DBG_HALT_STATE m.part → h.cmds ≠ [] → m.r = h.msg.r →
    ∃ t, exec (.resumeRefuse m) s = .next t ∧ t.part m.part = { s.part m.part with halt := some { h with cmds := [], armedBy := [] } }
      ∧ Sent 22 false ((s.memberCoords m.part).map (fun c => s.pkTo 22 22 m.part c (.halt 6 h.msg))) s t
      ∧ Took 22 false (fun p => p.payload == .halt 4 m) s t
      ∧ Raised { code := 0xD005, part := some m.part, detail := m.refuse % 256 + m.src % 4096 * 256 } s t
      ∧ (s.boot.perst = false → ∀ c ∈ h.cmds, Formed c.1
          { kind := 1, irq := c.2.2, status := 5, tag := c.2.1, detail := toLE 1 m.part ++ toLE 1 8 } s t)
      ∧ OnlyChanges evFlds (evComps ++ ([.part m.part, .ctl] : List Comp)) s t)
  ∧ (∀ (s : State) (m : HaltMsg), ((s.part m.part).halt = none ∨ s.is .TIM_CTRL_CROWN = false
      ∨ ∃ h, (s.part m.part).halt = some h ∧ (h.cmds = [] ∨ m.r ≠ h.msg.r)) →
    (∃ t, exec (.resumeArmed m) s = .next t ∧ Sent 22 false [] s t ∧ Took 22 false (fun p => p.payload == .halt 3 m) s t
      ∧ OnlyChanges [] [.ctl] s t)
    ∧ (∃ t, exec (.resumeRefuse m) s = .next t ∧ Sent 22 false [] s t ∧ Took 22 false (fun p => p.payload == .halt 4 m) s t
      ∧ OnlyChanges [] [.ctl] s t))
  ∧ (∀ (s : State) (m : HaltMsg) (h : HaltSt), (s.part m.part).halt = some h → s.get .DBG_HALT_STATE m.part = 3 → m.r = h.msg.r →
    let inTime := decide (((max 0x400 (s.get .TIM_COMMIT_MARGIN_MARGIN) : Nat) : Int) ≤ cmp32 m.r s.tally)
    ∃ t, exec (.resumeCommit m) s = .next t ∧ t.part m.part = { s.part m.part with halt := some (if inTime then { h with commit := true } else h) }
      ∧ Sent 22 false [] s t ∧ Took 22 false (fun p => p.payload == .halt 5 m) s t ∧ OnlyChanges [] [.part m.part, .ctl] s t)
  ∧ (∀ (s : State) (m : HaltMsg), ∃ t, exec (.resumeAbort m) s = .next t
      ∧ t.get .DBG_HALT_STATE m.part = (if s.get .DBG_HALT_STATE m.part = 3 then 2 else s.get .DBG_HALT_STATE m.part)
      ∧ Sent 22 false [] s t ∧ Took 22 false (fun p => p.payload == .halt 6 m) s t ∧ OnlyAt [] [(.DBG_HALT_STATE, m.part)] [.ctl] s t)
  ∧ (∀ (s : State) (q : Nat) (h : HaltSt), (s.part q).halt = some h → s.get .DBG_HALT_STATE q = 3 → h.commit = false →
    cmp32 h.msg.r s.tally ≤ ((max 0x400 (s.get .TIM_COMMIT_MARGIN_MARGIN) : Nat) : Int) →
    (h.cmds = [] ∨ ∀ c ∈ s.memberCoords q, c ∈ h.armedBy) →
    ∃ t, exec (.resumeNotCommitted q) s = .next t ∧ t.get .DBG_HALT_STATE q = 2 ∧ OnlyAt [] [(.DBG_HALT_STATE, q)] [] s t)
  ∧ (∀ (s : State) (q c : Nat) (h : HaltSt), (s.part q).halt = some h → s.get .DBG_HALT_STATE q = 3 → h.commit = false →
    cmp32 h.msg.r s.tally ≤ ((max 0x400 (s.get .TIM_COMMIT_MARGIN_MARGIN) : Nat) : Int) → h.cmds ≠ [] →
    (s.memberCoords q).find? (fun c => !decide (c ∈ h.armedBy)) = some c →
    ∃ t, exec (.resumeNotCommitted q) s = .next t ∧ t.get .DBG_HALT_STATE q = 2
      ∧ t.part q = { s.part q with halt := some { h with cmds := [], armedBy := [] } }
      ∧ Sent 22 false ((s.memberCoords q).map (fun c => s.pkTo 22 22 q c (.halt 6 h.msg))) s t
      ∧ Raised { code := 0xD005, part := some q, detail := 8 + c % 4096 * 256 } s t
      ∧ (s.boot.perst = false → ∀ e ∈ h.cmds, Formed e.1
          { kind := 1, irq := e.2.2, status := 5, tag := e.2.1, detail := toLE 1 q ++ toLE 1 8 } s t)
      ∧ OnlyAt evFlds [(.DBG_HALT_STATE, q)] (evComps ++ ([.part q, .ctl] : List Comp)) s t)
  ∧ (∀ (s : State) (q : Nat) (hs : HaltSt), (s.part q).halt = some hs → s.get .DBG_HALT_STATE q = 3 → hs.commit = true → s.tally = hs.msg.r →
    (∀ x ∈ s.ctxsOf q, (s.ctx x).reply = none) →
    let h := (hs.msg.r + 2 ^ 56 - s.get .DBG_HAT_TALLY q) % 2 ^ 56
    let l := (s.get .TIM_LAUNCH_AT_AT q + h) % 2 ^ 56
    ∃ t a b c e, exec (.resumeSlot q) s = .next t ∧ t.get .TIM_LAUNCH_AT_AT q = l
      ∧ t.get .DBG_HLEN_H q = h ∧ t.get .DBG_HALT_STATE q = 0
      ∧ t.part q =
          { s.part q with
            msg := { (s.part q).msg with l := l }, halt := none, resumedAt := some s.tally, obwTok := a, traceLost := b, lossFull := c,
            lossBudget := e }
      ∧ (∀ x ∈ s.ctxsOf q, t.get .SEQ_CTX_STATE_STATE x =
          (if s.get .SEQ_CTX_STATE_STATE x = 11 then (s.ctx x).haltSt % 16 else s.get .SEQ_CTX_STATE_STATE x)
          ∧ t.ctx x = { s.ctx x with haltPend := false })
      ∧ RaisedAll [{ code := 0xD003, part := some q, detail := h }] s t
      ∧ Traced s t q (traceBytes 7 q (11 * 4096) s.tally (s.get .DBG_HSTEP_STEP q) 0 0 (2 ^ 37 + h * 2 ^ 40))
      ∧ OnlyAt (traceFlds ++ ([.SEQ_CTX_STATE_STATE] : List Fld)) [(.TIM_LAUNCH_AT_AT, q), (.DBG_HLEN_H, q), (.DBG_HALT_STATE, q)]
          (evComps ++ ([.part q, .ctxs, .mem] : List Comp)) s t)
  ∧ (∀ (s : State) (q : Nat), ((s.part q).halt = none ∨ s.get .DBG_HALT_STATE q ≠ 3
      ∨ ∃ h, (s.part q).halt = some h ∧ (h.commit = false ∨ s.tally ≠ h.msg.r)) → exec (.resumeSlot q) s = .next s)
  ∧ (∀ (s : State) (q : Nat), ((s.part q).halt = none ∨ s.get .DBG_HALT_STATE q ≠ 3
      ∨ ∃ h, (s.part q).halt = some h ∧ (h.commit = true
          ∨ ((max 0x400 (s.get .TIM_COMMIT_MARGIN_MARGIN) : Nat) : Int) < cmp32 h.msg.r s.tally)) → exec (.resumeNotCommitted q) s = .next s)

/-- Intake points (09_host_rings.md, 13_same_bits_twice.md). What an index error does to intake points (log entry 154), the lead of a
descriptor first seen late (log entry 156) and the cause of a mismatch that R574 does not list are the model's choice. -/
def Obligations.Intakes : Prop :=
  (∀ (s : State) (q k : Nat) (p : ImgIntake), s.point q k = some p → q < 128 → s.intakeSt q k = .waiting → s.liveSlot q s.tally = some p.slot →
    (s.part q).base ≤ p.slot → s.ringOn (s.part q).ringFn (ringOf p) = true →
    ∃ t, exec (.intakePoint q k) s = .next t
      ∧ t.part q = { s.part q with intakes := ins (s.part q).intakes k .reading, inReads := ins (s.part q).inReads k { left := 1 } }
      ∧ Reading (.point q k) (s.dbAddr (s.part q).ringFn (ringOf p)) 16 s t ∧ t.hre.rings = s.hre.rings
      ∧ OnlyChanges [] [.part q, .hre, .out] s t)
  ∧ (∀ (s : State) (q k : Nat) (p : ImgIntake), s.point q k = some p → q < 128 → s.intakeSt q k = .waiting → s.liveSlot q s.tally = some p.slot →
    (s.part q).base ≤ p.slot → s.ringOn (s.part q).ringFn (ringOf p) = false → (s.ring (s.part q).ringFn (ringOf p)).stopped = false →
    ∃ t, exec (.intakePoint q k) s = .next t ∧ t.part q = { s.part q with intakes := ins (s.part q).intakes k .failed }
      ∧ OnlyChanges [] [.part q] s t)
  ∧ (∀ (s : State) (q k : Nat) (p : ImgIntake), s.point q k = some p → q < 128 → s.intakeSt q k = .waiting → s.liveSlot q s.tally = some p.slot →
    (s.part q).base ≤ p.slot → (s.ring (s.part q).ringFn (ringOf p)).stopped = true →
    ∃ t, exec (.intakePoint q k) s = .next t ∧ IntakeFaulted s t q k 0x9005 p
      ∧ OnlyChanges evFlds (evComps ++ ([.part q, .ctl] : List Comp)) s t)
  ∧ (∀ (s : State) (q k : Nat), (s.point q k = none ∨ 128 ≤ q ∨ s.intakeSt q k ≠ .waiting
      ∨ ∃ p, s.point q k = some p ∧ (s.liveSlot q s.tally ≠ some p.slot ∨ p.slot < (s.part q).base)) → exec (.intakePoint q k) s = .next s)
  ∧ (∀ (s : State) (q k tag : Nat) (p : ImgIntake) (d : Dma) (w : List Byte), look? s.hre.dma tag = some d → d.purp = .point q k →
    w.length = d.len → s.point q k = some p → s.intakeSt q k = .reading → s.hre.dmaWait = [] → s.linkUp = true →
    let fn := (s.part q).ringFn
    let i := s.get .RING_STAT_DIDX (16 * fn + ringOf p)
    let n := if fieldLE w 4 1 = s.get .RING_CFG_GEN (16 * fn + ringOf p) then s.idxDist fn (ringOf p) w else 0
    let got := n - s.taken q (ringOf p)
    let s1 : State := { s with hre := { s.hre with dma := del s.hre.dma tag } }
    ∃ t, exec (.doorbellRead tag w) s = .next t
      ∧ ((n ≤ s.ringN fn (ringOf p) ∧ p.n ≤ got) →
          (t.inRead q k).shown = got ∧ (t.inRead q k).bad = false ∧ (t.inRead q k).takes = p.n
            ∧ (t.inRead q k).base = (i + s.taken q (ringOf p)) % 2 ^ 32 ∧ (t.inRead q k).descs = []
            ∧ (0 < p.n → p.n ≤ s.ringN fn (ringOf p) - (t.inRead q k).base % s.ringN fn (ringOf p) →
                64 * p.n ≤ s.readMax - s.descAddr fn (ringOf p) (t.inRead q k).base % s.readMax →
                Reading (.desc q k 0 p.n) (s.descAddr fn (ringOf p) (t.inRead q k).base) (64 * p.n) s1 t ∧ (t.inRead q k).left = 1))
      ∧ (¬ (n ≤ s.ringN fn (ringOf p) ∧ p.n ≤ got) →
          t.inRead q k = { shown := got, bad := decide (s.ringN fn (ringOf p) < n), base := (i + s.taken q (ringOf p)) % 2 ^ 32 }
            ∧ t.out = s.out)
      ∧ ((n = 0 ∨ s.ringN fn (ringOf p) < n) → t.ring fn (ringOf p) = s.ring fn (ringOf p))
      ∧ (n ≠ 0 → n ≤ s.ringN fn (ringOf p) → t.ring fn (ringOf p) =
          { s.ring fn (ringOf p) with
            dgen := fieldLE w 4 1, seen := sightings (s.ring fn (ringOf p)).seen i (fieldLE w 0 4) s.tally })
      ∧ OnlyChanges [] [.part q, .hre, .out] s t)
  ∧ (∀ (s : State) (q k tag i n : Nat) (p : ImgIntake) (d : Dma) (data : List Byte), look? s.hre.dma tag = some d → d.purp = .desc q k i n →
    data.length = d.len → s.point q k = some p → s.intakeSt q k = .reading → s.hre.dmaWait = [] → s.linkUp = true →
    let x := s.inRead q k
    let x' : InRead := { x with descs := ins x.descs i data, left := x.left - 1 }
    let s1 : State := { s with hre := { s.hre with dma := del s.hre.dma tag } }
    ∃ t, exec (.dmaCompletion tag .ok data) s = .next t ∧ (t.inRead q k).descs = x'.descs
      ∧ ((x'.left ≠ 0 ∨ lensOk p.cap (x'.descList p.n) = false) → t.inRead q k = x' ∧ t.out = s.out)
      ∧ (x'.left = 0 → lensOk p.cap (x'.descList p.n) = true →
          ∀ b j, (x'.descList p.n)[j]? = some b →
            ∀ y ∈ pieces s.readMax (fieldLE b 0 8) (fieldLE b 8 4), Reading (.input q k j y.1) (fieldLE b 0 8 + y.1) y.2 s1 t)
      ∧ t.hre.rings = s.hre.rings ∧ OnlyChanges [] [.part q, .hre, .out] s t)
  ∧ (∀ (s : State) (q k tag j off : Nat) (d : Dma) (data : List Byte), look? s.hre.dma tag = some d → d.purp = .input q k j off →
    data.length = d.len → s.intakeSt q k = .reading → s.hre.dmaWait = [] →
    let x := s.inRead q k
    ∃ t, exec (.dmaCompletion tag .ok data) s = .next t
      ∧ t.inRead q k = { x with inputs := ins x.inputs (2 ^ 32 * j + off) data, left := x.left - 1 }
      ∧ t.hre = { s.hre with dma := del s.hre.dma tag } ∧ OnlyChanges [] [.part q, .hre] s t)
  ∧ (∀ (s : State) (q k tag : Nat) (p : ImgIntake) (d : Dma) (c : Cpl) (data : List Byte), look? s.hre.dma tag = some d →
    (d.purp = .point q k ∨ (∃ i n, d.purp = .desc q k i n) ∨ (∃ j off, d.purp = .input q k j off)) → c ≠ .ok → s.point q k = some p →
    s.intakeSt q k = .reading → s.hre.dmaWait = [] →
    ∃ t, exec (.dmaCompletion tag c data) s = .next t ∧ t.intakeSt q k = .failed
      ∧ t.get .RING_ERR_RD_ERR (16 * (s.part q).ringFn + ringOf p) = 1
      ∧ t.get .PCX_EP_RX_COUNT = (if c = .poisoned then satAdd 32 (s.get .PCX_EP_RX_COUNT) 1 else s.get .PCX_EP_RX_COUNT)
      ∧ OnlyAt [.PCX_EP_RX_COUNT] [(.RING_ERR_RD_ERR, 16 * (s.part q).ringFn + ringOf p)] [.part q, .hre] s t)
  ∧ (∀ (s : State) (q k : Nat) (p : ImgIntake), IntakeReady s q k p → (s.inRead q k).bad = false → p.n ≤ (s.inRead q k).shown →
    lensOk p.cap ((s.inRead q k).descList p.n) = true → (s.ring (s.part q).ringFn (ringOf p)).stopped = false → s.boot.tripped = false →
    let fn := (s.part q).ringFn
    let i := s.get .RING_STAT_DIDX (16 * fn + ringOf p)
    let ct := s.slotTally q p.slot
    let cstep := (ct + 2 ^ 56 - s.get .TIM_LAUNCH_AT_AT q) % 2 ^ 56
    let ds := (s.inRead q k).descList p.n
    let e (j : Nat) : LogIn := { len := fieldLE (ds.getD j []) 8 4, digest := sha256 ((s.inRead q k).inputOf j), dseq := fieldLE (ds.getD j []) 12 4 }
    let logged := !bit (s.get .CHK_RUN_FLAGS q) 4
    ∃ t, exec (.intakeConsume q k) s = .next t ∧ t.intakeSt q k = .done
      ∧ t.get .RING_STAT_DIDX (16 * fn + ringOf p) = (i + p.n) % 2 ^ 32
      ∧ (∀ j < p.n, .hostWrite fn (s.descAddr fn (ringOf p) (i + j) + 24) (toLE 7 ct ++ toLE 1 128 ++ (e j).digest) ∈ t.out)
      ∧ (s.linkUp = true → .hostWrite fn (s.dbAddr fn (ringOf p) + 8) (t.shadowBytes fn (ringOf p)) ∈ t.out)
      ∧ (∀ x ∈ (t.ring fn (ringOf p)).seen, x ∈ (s.ring fn (ringOf p)).seen ∧ ∀ j < p.n, x.1 ≠ (i + j) % 2 ^ 32)
      ∧ look [] (t.part q).inLog k = look [] (s.part q).inLog k ++ (List.range p.n).flatMap (fun j => hashedPart k p.ring j (e j))
      ∧ (∀ m c t0, p.n = 1 → m < 16 → s.takes m 5 (fun sc => bit sc p.ring) (some q) = true → s.cap m = c → c.queue.length < 2048 →
          (s.ring fn (ringOf p)).seen.find? (fun x => x.1 == i % 2 ^ 32) = some (i % 2 ^ 32, t0) →
          (t.cap m).queue = c.queue ++ [min (leadOf ct t0) (2 ^ 32 - 1)])
      ∧ (s.getBit .DBG_TRC_CTRL_EN 1 q = false → Woken s t q k p.n
          ∧ (((s.part q).msg.record = false ∧ (s.part q).msg.replay = false) ∨ logged = false →
              (∀ j < p.n, ∀ b < p.cap, look 0 t.hbm.bytes (p.landing + j * p.cap + b) = ((s.inRead q k).inputOf j).getD b 0)
              ∧ (∀ a, (a < p.landing ∨ p.landing + p.n * p.cap ≤ a) → look 0 t.hbm.bytes a = look 0 s.hbm.bytes a)
              ∧ OnlyChanges [.DBG_C_HBM_OTHER_BYTES, .SEQ_CTX_STATE_STATE, .SEQ_CTX_STATE_PC, .SEQ_CTX_RETIRED_COUNT, .RING_STAT_DIDX]
                  [.part q, .ctxs, .mem, .caps, .hre, .out] s t)
          ∧ ((s.part q).msg.record = true → logged = true → ∀ j < p.n,
              readBytes t.hbm.bytes ((s.part q).msg.ref + 64 * (1 + (s.image q).logBase k + j)) 64 = logEntry k p.ring j cstep (e j))
          ∧ ((s.part q).msg.record = false → (s.part q).msg.replay = true → logged = true → p.n = 1 → (s.part q).refSeen = true →
              (s.part q).refBad = false →
              let a := (s.part q).msg.ref + 64 * (1 + (s.image q).logBase k)
              (a + 64 ≤ p.landing ∨ p.landing + p.cap ≤ a) →
              let ref := readBytes s.hbm.bytes a 64
              (ref.take 40 = hashedPart k p.ring 0 (e 0) → t.get .CHK_DIVCNT_COUNT q = s.get .CHK_DIVCNT_COUNT q
                  ∧ t.get .CHK_RUN_FLAGS q = s.get .CHK_RUN_FLAGS q)
              ∧ (ref.take 40 ≠ hashedPart k p.ring 0 (e 0) → ∃ v,
                  Diverged s t q k 0 (e 0).dseq (fieldLE ref 40 4) (divCause (hashedPart k p.ring 0 (e 0)) ref v) cstep
                    (1 + (s.image q).logBase k) p))
          ∧ ((s.part q).msg.record = false → (s.part q).msg.replay = true → logged = true → p.n = 1 → (s.part q).refSeen = false →
              let a := (s.part q).msg.ref
              (a + 64 ≤ p.landing ∨ p.landing + p.cap ≤ a) →
              let h := readBytes s.hbm.bytes a 64
              let mine := (s.image q).logHeader
              ¬ (h.take 6 = mine.take 6 ∧ (h.drop 12).take 2 = (mine.drop 12).take 2 ∧ (h.drop 16).take 32 = (mine.drop 16).take 32) →
              (t.part q).refBad = true ∧ ∃ v < 2 ^ 32, Diverged s t q k 0 (e 0).dseq v 4 cstep 0 p)))
  ∧ (∀ (s : State) (q k : Nat) (p : ImgIntake), IntakeReady s q k p → (s.inRead q k).bad = false → (s.inRead q k).shown < p.n →
    p.skip = true → (s.ring (s.part q).ringFn (ringOf p)).stopped = false → s.boot.tripped = false →
    let cstep := (s.slotTally q p.slot + 2 ^ 56 - s.get .TIM_LAUNCH_AT_AT q) % 2 ^ 56
    ∃ t, exec (.intakeConsume q k) s = .next t ∧ t.intakeSt q k = .skipped ∧ t.get .CHK_NDC_COUNT q = satAdd 32 (s.get .CHK_NDC_COUNT q) 1
      ∧ look [] (t.part q).inLog k = look [] (s.part q).inLog k
          ++ (List.range p.n).flatMap (fun j => hashedPart k p.ring j { skip := true })
      ∧ t.get .RING_STAT_DIDX (16 * (s.part q).ringFn + ringOf p) = s.get .RING_STAT_DIDX (16 * (s.part q).ringFn + ringOf p)
      ∧ (s.getBit .DBG_TRC_CTRL_EN 1 q = false → Woken s t q k 0
          ∧ ((s.part q).msg.record = true → bit (s.get .CHK_RUN_FLAGS q) 4 = false → ∀ j < p.n,
              readBytes t.hbm.bytes ((s.part q).msg.ref + 64 * (1 + (s.image q).logBase k + j)) 64
                = logEntry k p.ring j cstep { skip := true })
          ∧ ((s.part q).msg.record = false → (s.part q).msg.replay = false →
              OnlyAt [.SEQ_CTX_STATE_STATE, .SEQ_CTX_STATE_PC, .SEQ_CTX_RETIRED_COUNT] [(.CHK_NDC_COUNT, q)] [.part q, .ctxs] s t)))
  ∧ (∀ (s : State) (q k : Nat) (p : ImgIntake), IntakeReady s q k p → (s.ring (s.part q).ringFn (ringOf p)).stopped = true ∨
      ((s.inRead q k).bad = false ∧ (((s.inRead q k).shown < p.n ∧ p.skip = false)
        ∨ (p.n ≤ (s.inRead q k).shown ∧ lensOk p.cap ((s.inRead q k).descList p.n) = false))) →
    ∃ t, exec (.intakeConsume q k) s = .next t ∧ IntakeFaulted s t q k 0x9005 p
      ∧ OnlyChanges evFlds (evComps ++ ([.part q, .ctl] : List Comp)) s t)
  ∧ (∀ (s : State) (q k : Nat) (p : ImgIntake), IntakeReady s q k p → (s.ring (s.part q).ringFn (ringOf p)).stopped = false →
    (s.inRead q k).bad = true →
    let fn := (s.part q).ringFn
    ∃ t, exec (.intakeConsume q k) s = .next t ∧ (t.ring fn (ringOf p)).stopped = true ∧ t.get .RING_ERR_IDX_ERR (16 * fn + ringOf p) = 1
      ∧ t.part q = { s.part q with intakes := ins (s.part q).intakes k .faulted }
      ∧ SentFaults [{ part := q, code := 0x9005, step := some (s.stepOf q p.slot), srck := 6, node := s.home q }] s t
      ∧ RaisedAll [{ code := 0x6003, part := fnPart fn, skind := 6, sindex := fn, detail := ringOf p },
          { code := 0x9005, part := some q, skind := 6, sindex := s.home q, detail := k % 256 + p.ring % 256 * 256 }] s t
      ∧ OnlyAt evFlds [(.RING_ERR_IDX_ERR, 16 * fn + ringOf p)] (evComps ++ ([.part q, .ctl] : List Comp)) s t)
  ∧ (∀ (s : State) (q k : Nat), (∀ p, ¬ IntakeReady s q k p) → exec (.intakeConsume q k) s = .next s)
  ∧ (∀ (s : State) (q k : Nat) (p : ImgIntake), s.point q k = some p → q < 128 → s.runSt q = 3 → (s.part q).haltedAt = none →
    (s.part q).base ≤ p.slot → p.slot < s.boundary q (s.image q).steps →
    (s.intakeSt q k = .waiting ∨ s.intakeSt q k = .reading ∨ s.intakeSt q k = .failed) → s.reached q (p.slot + p.w) = true →
    ∃ t, exec (.intakeDeadline q k) s = .next t ∧ IntakeFaulted s t q k 0x9006 p
      ∧ OnlyChanges evFlds (evComps ++ ([.part q, .ctl] : List Comp)) s t)
  ∧ (∀ (s : State) (q k : Nat), (s.point q k = none ∨ s.runSt q ≠ 3 ∨ (s.part q).haltedAt ≠ none ∨ s.intakeSt q k = .done
      ∨ s.intakeSt q k = .skipped ∨ s.intakeSt q k = .faulted
      ∨ ∃ p, s.point q k = some p ∧ s.reached q (p.slot + p.w) = false) → exec (.intakeDeadline q k) s = .next s)

/-- Rings enabled, doorbell words and DMA completions (09_host_rings.md). The order of background polls (log entry 153), one fetch at a
time (log entry 155), what an index error does to intake points (log entry 154), the record of a command that could not be read (log
entry 58) and the lateness of a completion that answers no read are the model's choice. -/
def Obligations.RingReads : Prop :=
  (∀ (s : State) (who r v : Nat), r < 16 → r ≠ 3 → fnOf who ≤ 128 → s.live .RING_CFG_ENABLE (16 * fnOf who + r) = true →
    s.locked .RING_CFG_ENABLE (16 * fnOf who + r) = false → bit v 8 = true → s.is .RING_CFG_ENABLE (16 * fnOf who + r) = false →
    let fn := fnOf who
    let x := s.ring fn r
    ∃ t, exec (.ringEnable who r v) s = .next t ∧ t.get .RING_CFG_ENABLE (16 * fn + r) = 1
      ∧ t.get .RING_CFG_LOG2N (16 * fn + r) = bits v 0 5 ∧ t.get .RING_CFG_GEN (16 * fn + r) = bits v 16 8
      ∧ t.get .RING_STAT_DIDX (16 * fn + r) = 0
      ∧ t.ring fn r = { fseq := x.fseq, frames := x.frames, gap := x.gap, part := x.part, polled := s.tick, dgen := bits v 16 8,
                        fetched := if r = 0 then x.fetched else [], owed := !s.linkUp }
      ∧ (∀ k, k ≠ 16 * fn + r → look? t.hre.rings k = look? s.hre.rings k)
      ∧ (∀ g d, look? s.hre.dma g = some d →
          look? t.hre.dma g = some (if forDescs fn r d.purp then { d with purp := .void } else d))
      ∧ t.hre.dmaWait = s.hre.dmaWait.filter (fun e => !forDescs fn r e.1)
      ∧ t.out = s.out ++ (if s.linkUp then [.hostWrite fn (s.dbAddr fn r + 8) (t.shadowBytes fn r)] else [])
      ∧ OnlyAt [] ([.RING_CFG_ENABLE, .RING_CFG_LOG2N, .RING_CFG_GEN, .RING_STAT_DIDX].map (fun f => (f, 16 * fn + r))) [.hre, .out] s t)
  ∧ (∀ (s : State) (who r v : Nat), r < 16 → r ≠ 3 → fnOf who ≤ 128 → s.live .RING_CFG_ENABLE (16 * fnOf who + r) = true →
    s.locked .RING_CFG_ENABLE (16 * fnOf who + r) = false → (bit v 8 = false ∨ s.is .RING_CFG_ENABLE (16 * fnOf who + r) = true) →
    ∃ t, exec (.ringEnable who r v) s = .next t ∧ t.get .RING_CFG_ENABLE (16 * fnOf who + r) = b2n (bit v 8)
      ∧ t.get .RING_CFG_LOG2N (16 * fnOf who + r) = bits v 0 5 ∧ t.get .RING_CFG_GEN (16 * fnOf who + r) = bits v 16 8
      ∧ OnlyAt [] ([.RING_CFG_ENABLE, .RING_CFG_LOG2N, .RING_CFG_GEN].map (fun f => (f, 16 * fnOf who + r))) [] s t)
  ∧ (∀ (s : State) (who r v : Nat), r < 16 → r ≠ 3 → s.live .RING_CFG_ENABLE (16 * fnOf who + r) = true →
    s.locked .RING_CFG_ENABLE (16 * fnOf who + r) = true →
    ∃ t, exec (.ringEnable who r v) s = .next t
      ∧ Raised { code := 0x6006, part := fnPart (fnOf who), skind := 6, sindex := fnOf who, detail := r } s t
      ∧ OnlyChanges evFlds evComps s t)
  ∧ (∀ (s : State) (who r v : Nat), (16 ≤ r ∨ r = 3 ∨ s.live .RING_CFG_ENABLE (16 * fnOf who + r) = false) →
    exec (.ringEnable who r v) s = .next s)
  ∧ (∀ (s : State) (who r v : Nat), bit v 0 = true → r < 16 → s.domOn 72 = true → s.ringOn (fnOf who) r = true →
    ∃ t, exec (.ringKick who r v) s = .next t ∧ Reading (.doorbell (fnOf who) r) (s.dbAddr (fnOf who) r) 16 s t
      ∧ t.hre.rings = s.hre.rings ∧ t.hre.funcs = s.hre.funcs ∧ OnlyChanges [] [.hre, .out] s t)
  ∧ (∀ (s : State) (who r v : Nat), (bit v 0 = false ∨ 16 ≤ r ∨ s.domOn 72 = false ∨ s.ringOn (fnOf who) r = false) →
    exec (.ringKick who r v) s = .next s)
  ∧ (∀ (s : State) (fn r : Nat), s.get .PWR_SHELF_STATE = 0 → fn < 129 → r < 16 → s.pollDue fn r = true →
    ∃ t k, exec .backgroundPoll s = .next t ∧ k < 16 * 129 ∧ s.pollDue (k / 16) (k % 16) = true
      ∧ (∀ i < (k + 16 * 129 - s.hre.pollNext % (16 * 129)) % (16 * 129),
          s.pollDue ((s.hre.pollNext + i) % (16 * 129) / 16) ((s.hre.pollNext + i) % (16 * 129) % 16) = false)
      ∧ t.hre.pollNext = k + 1 ∧ t.ring (k / 16) (k % 16) = { s.ring (k / 16) (k % 16) with polled := s.tick }
      ∧ (∀ j, j ≠ k → look? t.hre.rings j = look? s.hre.rings j)
      ∧ Reading (.doorbell (k / 16) (k % 16)) (s.dbAddr (k / 16) (k % 16)) 16 s t ∧ OnlyChanges [] [.hre, .out] s t)
  ∧ (∀ (s : State), (s.get .PWR_SHELF_STATE ≠ 0 ∨ ∀ fn < 129, ∀ r < 16, s.pollDue fn r = false) → exec .backgroundPoll s = .next s)
  ∧ (∀ (s : State) (tag fn r : Nat) (d : Dma) (w : List Byte), look? s.hre.dma tag = some d → d.purp = .doorbell fn r → w.length = d.len →
    r < 16 → fieldLE w 4 1 = s.get .RING_CFG_GEN (16 * fn + r) → s.ringOn fn r = true → s.idxDist fn r w ≤ s.ringN fn r →
    s.hre.dmaWait = [] →
    let x : Ring := { s.ring fn r with hidx := fieldLE w 0 4, dgen := fieldLE w 4 1, pause := bit (fieldLE w 5 1) 0,
                                       notify := bit (fieldLE w 5 1) 1 }
    ∃ t, exec (.doorbellRead tag w) s = .next t
      ∧ ((r = 0 ∨ 12 ≤ r) → Fetches (untagged s tag) t fn r x)
      ∧ (4 ≤ r → r ≤ 11 → t.ring fn r = { x with seen := sightings x.seen (s.get .RING_STAT_DIDX (16 * fn + r)) (fieldLE w 0 4) s.tally })
      ∧ (0 < r → r < 4 → t.ring fn r = x) ∧ (0 < r → r < 12 → t.out = s.out ∧ t.hre.dma = del s.hre.dma tag)
      ∧ (∀ k, k ≠ 16 * fn + r → look? t.hre.rings k = look? s.hre.rings k) ∧ OnlyChanges [] [.hre, .out] s t)
  ∧ (∀ (s : State) (tag fn r : Nat) (d : Dma) (w : List Byte), look? s.hre.dma tag = some d → d.purp = .doorbell fn r → w.length = d.len →
    r < 16 → fieldLE w 4 1 = s.get .RING_CFG_GEN (16 * fn + r) → s.ringOn fn r = true → s.ringN fn r < s.idxDist fn r w →
    let hit (q : Nat) : Option (ImgIntake × Nat) :=
      if 4 ≤ r ∧ r ≤ 11 ∧ s.runSt q = 3 ∧ (s.part q).haltedAt = none ∧ (s.part q).ringFn = fn then s.nextPoint q r else none
    ∃ t, exec (.doorbellRead tag w) s = .next t ∧ t.get .RING_ERR_IDX_ERR (16 * fn + r) = 1 ∧ (t.ring fn r).stopped = true
      ∧ .hostWrite fn (s.dbAddr fn r + 8) (t.shadowBytes fn r) ∈ t.out
      ∧ (∀ q < 128, t.part q = match hit q with
          | some (_, k) => { s.part q with intakes := ins (s.part q).intakes k .faulted }
          | none => s.part q)
      ∧ SentFaults ((List.range 128).filterMap (fun q => (hit q).map (fun e =>
          { part := q, code := 0x9005, step := some (s.stepOf q e.1.slot), srck := 6, node := s.home q }))) s t
      ∧ RaisedAll ({ code := 0x6003, part := fnPart fn, skind := 6, sindex := fn, detail := r } :: (List.range 128).filterMap (fun q =>
          (hit q).map (fun e => { code := 0x9005, part := some q, skind := 6, sindex := s.home q,
                                  detail := e.2 % 256 + e.1.ring % 256 * 256 }))) s t
      ∧ OnlyAt evFlds [(.RING_ERR_IDX_ERR, 16 * fn + r)] (evComps ++ ([.parts, .ctl] : List Comp)) s t)
  ∧ (∀ (s : State) (tag fn r : Nat) (d : Dma) (w : List Byte), look? s.hre.dma tag = some d → d.purp = .doorbell fn r → w.length = d.len →
    (fieldLE w 4 1 ≠ s.get .RING_CFG_GEN (16 * fn + r) ∨ s.ringOn fn r = false) → s.hre.dmaWait = [] →
    exec (.doorbellRead tag w) s = .next (untagged s tag))
  ∧ (∀ (s : State) (tag : Nat) (data : List Byte), exec (.dmaCompletion tag .ok data) s = exec (.doorbellRead tag data) s)
  ∧ (∀ (s : State) (tag fn i n : Nat) (d : Dma) (data : List Byte), look? s.hre.dma tag = some d → d.purp = .sub fn i n →
    data.length = d.len → s.hre.dmaWait = [] →
    (s.ringOn fn 0 = false → ∃ t, exec (.dmaCompletion tag .ok data) s = .next t ∧ t.ring fn 0 = { s.ring fn 0 with infl := 0 }
        ∧ OnlyChanges [] [.hre] s t)
    ∧ (s.ringOn fn 0 = true → ∃ t, exec (.dmaCompletion tag .ok data) s = .next t
        ∧ t.get .RING_STAT_DIDX (16 * fn) = (s.get .RING_STAT_DIDX (16 * fn) + n) % 2 ^ 32
        ∧ .hostWrite fn (s.dbAddr fn 0 + 8) (t.shadowBytes fn 0) ∈ t.out
        ∧ Fetches (untagged s tag) t fn 0 { s.ring fn 0 with fetched := (s.ring fn 0).fetched ++ chop64 data n, infl := 0 }
        ∧ OnlyAt [] [(.RING_STAT_DIDX, 16 * fn)] [.hre, .out] s t))
  ∧ (∀ (s : State) (tag fn r i n : Nat) (d : Dma) (data : List Byte), look? s.hre.dma tag = some d → d.purp = .bufs fn r i n →
    data.length = d.len → s.hre.dmaWait = [] → 12 ≤ r → r < 16 →
    (s.ringOn fn r = false → ∃ t, exec (.dmaCompletion tag .ok data) s = .next t ∧ t.ring fn r = { s.ring fn r with infl := 0 }
        ∧ OnlyChanges [] [.hre] s t)
    ∧ (s.ringOn fn r = true → ∃ t, exec (.dmaCompletion tag .ok data) s = .next t
        ∧ Fetches (untagged s tag) t fn r { s.ring fn r with fetched := (s.ring fn r).fetched ++ chop64 data n, infl := 0 }
        ∧ OnlyChanges [] [.hre, .out] s t))
  ∧ (∀ (s : State) (tag fn off : Nat) (sec : Bool) (d : Dma) (j : LoadJob) (data : List Byte), look? s.hre.dma tag = some d →
    d.purp = .load fn sec off → data.length = d.len → look? s.hre.loads fn = some j → s.hre.dmaWait = [] → s.linkUp = true →
    let sub := parseSub fn j.desc
    let ps := pieces s.readMax (sub.argN 8 8) (sub.argN 16 4)
    let j' : LoadJob := { j with got1 := if j.second then j.got1 else ins j.got1 off data,
                                 got2 := if j.second then ins j.got2 off data else j.got2, left := j.left - 1 }
    ∃ t, exec (.dmaCompletion tag .ok data) s = .next t
      ∧ ((j'.left ≠ 0 ∨ j.second = true) → look? t.hre.loads fn = some j' ∧ t.out = s.out)
      ∧ (j'.left = 0 → j.second = false → look? t.hre.loads fn = some { j' with second := true, left := ps.length }
          ∧ ∀ x ∈ ps, Reading (.load fn true x.1) (sub.argN 8 8 + x.1) x.2 (untagged s tag) t)
      ∧ t.hre.rings = s.hre.rings ∧ t.hre.funcs = s.hre.funcs ∧ OnlyChanges [] [.hre, .out] s t)
  ∧ (∀ (s : State) (tag : Nat) (d : Dma) (data : List Byte), look? s.hre.dma tag = some d → (d.purp = .push ∨ d.purp = .void) →
    data.length = d.len → s.hre.dmaWait = [] → exec (.dmaCompletion tag .ok data) s = .next (untagged s tag))
  ∧ (∀ (i : Instr) (s : State) (tag : Nat) (d : Dma), ReadFails i s tag d →
    ∃ t, exec i s = .next t
      ∧ (∀ data, i = .dmaCompletion tag .poisoned data → t.get .PCX_EP_RX_COUNT = satAdd 32 (s.get .PCX_EP_RX_COUNT) 1)
      ∧ (∀ data, i = .dmaCompletion tag .error data → t.get .PCX_EP_RX_COUNT = s.get .PCX_EP_RX_COUNT)
      ∧ (i = .dmaTimeout tag → look? t.hre.dma tag = none ∧ look? t.hre.quar tag = some (d.due, d.due + 4 * d.limit)
          ∧ t.get .HRE_TO_CNT_COUNT = satAdd 32 (s.get .HRE_TO_CNT_COUNT) 1 ∧ .aer 0 ∈ t.out
          ∧ Noted { code := 0x6001, skind := 6, detail := tag % 2 ^ 14 } s t)
      ∧ (i ≠ .dmaTimeout tag → s.hre.dmaWait = [] → look? t.hre.dma tag = none ∧ t.hre.quar = s.hre.quar
          ∧ t.get .HRE_TO_CNT_COUNT = s.get .HRE_TO_CNT_COUNT))
  ∧ (∀ (i : Instr) (s : State) (tag fn r : Nat) (d : Dma), ReadFails i s tag d → d.purp = .doorbell fn r → s.hre.dmaWait = [] →
    ∃ t, exec i s = .next t ∧ t.get .RING_ERR_RD_ERR (16 * fn + r) = 1 ∧ (∀ k, k % 16 ≠ 2 → look? t.hre.rings k = look? s.hre.rings k)
      ∧ OnlyAt failFlds [(.RING_ERR_RD_ERR, 16 * fn + r)] evComps s t)
  ∧ (∀ (i : Instr) (s : State) (tag fn x n : Nat) (d : Dma), ReadFails i s tag d → d.purp = .sub fn x n → s.hre.dmaWait = [] →
    s.boot.perst = false →
    ∃ t l0 l, exec i s = .next t ∧ t.get .RING_ERR_RD_ERR (16 * fn) = 1 ∧ (t.ring fn 0).infl = 0
      ∧ (t.ring fn 0).fetched = (s.ring fn 0).fetched ∧ t.get .RING_STAT_DIDX (16 * fn) = (s.get .RING_STAT_DIDX (16 * fn) + n) % 2 ^ 32
      ∧ (t.func fn).cq = (s.func fn).cq ++ l0 ++ l ∧ l.length = n ∧ (∀ c ∈ l, c.kind = 1 ∧ c.status = 2)
      ∧ OnlyAt failFlds [(.RING_ERR_RD_ERR, 16 * fn)] (evComps ++ ([.free] : List Comp)) s t)
  ∧ (∀ (i : Instr) (s : State) (tag fn r x n : Nat) (d : Dma), ReadFails i s tag d → d.purp = .bufs fn r x n → s.hre.dmaWait = [] →
    r % 16 ≠ 2 →
    ∃ t, exec i s = .next t ∧ t.get .RING_ERR_RD_ERR (16 * fn + r) = 1 ∧ t.ring fn r = { s.ring fn r with fidx := x, infl := 0 }
      ∧ OnlyAt failFlds [(.RING_ERR_RD_ERR, 16 * fn + r)] evComps s t)
  ∧ (∀ (i : Instr) (s : State) (tag fn off : Nat) (sec : Bool) (d : Dma) (j : LoadJob), ReadFails i s tag d → d.purp = .load fn sec off →
    s.hre.dmaWait = [] → look? s.hre.loads fn = some j →
    ∃ t, exec i s = .next t ∧ look? t.hre.loads fn = none
      ∧ (s.boot.perst = false → Formed fn
          { kind := 1, irq := (parseSub fn j.desc).irq, status := 2, tag := (parseSub fn j.desc).tag,
            detail := toLE 1 (parseSub fn j.desc).q ++ toLE 1 (parseSub fn j.desc).op } s t)
      ∧ (∀ g e, g ≠ tag → look? s.hre.dma g = some e →
          look? t.hre.dma g = some (if forLoad fn e.purp then { e with purp := .void } else e))
      ∧ OnlyChanges failFlds evComps s t)
  ∧ (∀ (i : Instr) (s : State) (tag : Nat) (d : Dma), ReadFails i s tag d → d.purp = .push → s.hre.dmaWait = [] →
    ∃ t, exec i s = .next t ∧ t.get .MBX_PUSH_CTRL_BUSY = 0 ∧ t.get .MBX_PUSH_CTRL_FAIL = 1
      ∧ OnlyChanges (failFlds ++ ([.MBX_PUSH_CTRL_BUSY, .MBX_PUSH_CTRL_FAIL] : List Fld)) evComps s t)
  ∧ (∀ (i : Instr) (s : State) (tag : Nat) (d : Dma), ReadFails i s tag d → d.purp = .void → s.hre.dmaWait = [] →
    ∃ t, exec i s = .next t ∧ OnlyChanges failFlds evComps s t)
  ∧ (∀ (s : State) (tag : Nat) (a : Nat × Nat) (c : Cpl) (data : List Byte), look? s.hre.dma tag = none → look? s.hre.quar tag = some a →
    ∃ t, exec (.dmaCompletion tag c data) s = .next t ∧ t.get .HRE_LATE_CNT_COUNT = satAdd 32 (s.get .HRE_LATE_CNT_COUNT) 1
      ∧ t.get .HRE_LATE_LAST_TAG = tag % 2 ^ 14 ∧ t.get .HRE_LATE_LAST_LATE = min 65535 ((s.tick - a.1) * 4 / 3125)
      ∧ Noted { code := 0x6002, skind := 6, detail := tag % 2 ^ 14 + (s.tick - a.1) * 4 / 3125 % 2 ^ 32 * 2 ^ 16 } s t
      ∧ t.get .PCX_EP_RX_COUNT = (if c = .poisoned then satAdd 32 (s.get .PCX_EP_RX_COUNT) 1 else s.get .PCX_EP_RX_COUNT)
      ∧ t.hre.quar = s.hre.quar ∧ t.hre.dma = s.hre.dma
      ∧ OnlyChanges (evFlds ++ ([.HRE_LATE_CNT_COUNT, .HRE_LATE_LAST_TAG, .HRE_LATE_LAST_LATE, .PCX_EP_RX_COUNT] : List Fld)) evComps s t)
  ∧ (∀ (s : State) (tag : Nat) (c : Cpl) (data : List Byte),
    ((look? s.hre.dma tag = none ∧ look? s.hre.quar tag = none)
      ∨ (c = .ok ∧ ∃ d, look? s.hre.dma tag = some d ∧ data.length ≠ d.len)) →
    ∃ t v, exec (.dmaCompletion tag c data) s = .next t ∧ t.get .HRE_LATE_CNT_COUNT = satAdd 32 (s.get .HRE_LATE_CNT_COUNT) 1
      ∧ t.get .HRE_LATE_LAST_TAG = tag % 2 ^ 14 ∧ t.get .HRE_LATE_LAST_LATE = v
      ∧ Noted { code := 0x6002, skind := 6, detail := tag % 2 ^ 14 + v * 2 ^ 16 } s t
      ∧ t.get .PCX_EP_RX_COUNT = (if c = .poisoned then satAdd 32 (s.get .PCX_EP_RX_COUNT) 1 else s.get .PCX_EP_RX_COUNT)
      ∧ t.hre.quar = s.hre.quar ∧ t.hre.dma = s.hre.dma
      ∧ OnlyChanges (evFlds ++ ([.HRE_LATE_CNT_COUNT, .HRE_LATE_LAST_TAG, .HRE_LATE_LAST_LATE, .PCX_EP_RX_COUNT] : List Fld))
          (evComps ++ ([.free] : List Comp)) s t)
  ∧ (∀ (s : State) (tag : Nat), (look? s.hre.dma tag = none ∨ ∃ d, look? s.hre.dma tag = some d ∧ s.tick < d.due) →
    exec (.dmaTimeout tag) s = .next s)
  ∧ (∀ (s : State) (tag : Nat) (a : Nat × Nat), look? s.hre.quar tag = some a → a.2 ≤ s.tick →
    ∃ t, exec (.tagQuarantineEnd tag) s = .next t ∧ look? t.hre.quar tag = none
      ∧ (s.hre.dmaWait = [] → t.hre = { s.hre with quar := del s.hre.quar tag } ∧ t.out = s.out)
      ∧ (∀ p x n l, s.hre.dmaWait = (p, x, n) :: l → s.linkUp = true → s.hre.dma.length < 4096 → tag < 16384 → look? s.hre.dma tag = none →
          t.hre.dmaWait = l ∧ ∃ g, look? t.hre.dma g = some { purp := p, addr := x, len := n, due := s.tick + s.dmaTo, limit := s.dmaTo }
            ∧ .hostRead g x n ∈ t.out ∧ t.hre.rings = s.hre.rings ∧ OnlyChanges [] [.hre, .out] s t))
  ∧ (∀ (s : State) (tag : Nat), (look? s.hre.quar tag = none ∨ ∃ a, look? s.hre.quar tag = some a ∧ s.tick < a.2) →
    exec (.tagQuarantineEnd tag) s = .next s)

/-- Egress frames, completion records and interrupts (09_host_rings.md). The partition byte of the physical function's lost record (log entry
157) and what waits for the link (log entry 151) are the model's choice. -/
def Obligations.RingWrites : Prop :=
  (∀ (s : State) (fn r k : Nat) (f : Frame) (fs : List Frame), (s.ring fn r).frames = f :: fs → r < 16 →
    need f.bytes.length (blens (s.ring fn r).fetched) 0 = some k → s.ringOn fn r = true → (s.ring fn r).gap = none → f.dropped = false →
    k ≤ 256 → k ≤ s.ringN fn r →
    let i := s.get .RING_STAT_DIDX (16 * fn + r)
    let o := s.segments fn r i f f.bytes.length ((s.ring fn r).fetched.take k) 0 f.bytes
    let g := settleGap none fs
    ∃ t, exec (.egressFrameWrite fn r) s = .next t
      ∧ t.out = s.out ++ (o.1 ++ o.2) ++ [.hostWrite fn (s.dbAddr fn r + 8) (t.shadowBytes fn r)]
      ∧ t.get .RING_STAT_DIDX (16 * fn + r) = (i + k) % 2 ^ 32 ∧ (t.ring fn r).fetched = (s.ring fn r).fetched.drop k
      ∧ (t.ring fn r).gap = g.1 ∧ (t.ring fn r).frames.map (fun x => { x with due := none }) = g.2.map (fun x => { x with due := none })
      ∧ (∀ x, (t.ring fn r).frames.head? = some x → x.due ≠ none) ∧ (t.ring fn r).frames.tail = g.2.tail
      ∧ t.part f.part = { s.part f.part with staged := (s.part f.part).staged - f.bytes.length }
      ∧ ((s.ring fn r).notify = true → s.boot.perst = false → ∀ q, (s.ring fn r).part = some q → Formed (s.home q)
          { kind := 7, irq := true, detail := toLE 1 q ++ toLE 1 r ++ toLE 2 0 ++ toLE 4 ((i + k) % 2 ^ 32) } s t)
      ∧ ((s.ring fn r).notify = false → t.hre.funcs = s.hre.funcs)
      ∧ OnlyAt [] [(.RING_STAT_DIDX, 16 * fn + r)] [.part f.part, .hre, .out] s t)
  ∧ (∀ (s : State) (fn r : Nat), ((s.ring fn r).frames = [] ∨ s.ringOn fn r = false ∨ (s.ring fn r).gap ≠ none
      ∨ ∃ f fs, (s.ring fn r).frames = f :: fs ∧ (need f.bytes.length (blens (s.ring fn r).fetched) 0 = none ∨ f.dropped = true
          ∨ ∃ k, need f.bytes.length (blens (s.ring fn r).fetched) 0 = some k ∧ min 256 (s.ringN fn r) < k)) →
    exec (.egressFrameWrite fn r) s = .next s)
  ∧ (∀ (s : State) (fn r : Nat) (f : Frame) (fs : List Frame), (s.ring fn r).frames = f :: fs → (s.ring fn r).infl = 0 →
    ((need f.bytes.length (blens (s.ring fn r).fetched) 0 = none ∧ ∃ due, f.due = some due ∧ due ≤ s.tick)
      ∨ (need f.bytes.length (blens (s.ring fn r).fetched) 0 = none ∧ min 256 (s.ringN fn r) ≤ (s.ring fn r).fetched.length)
      ∨ ∃ k, need f.bytes.length (blens (s.ring fn r).fetched) 0 = some k ∧ min 256 (s.ringN fn r) < k) →
    let g := settleGap (s.ring fn r).gap ({ f with dropped := true } :: fs)
    ∃ t, exec (.egressWaitExpire fn r) s = .next t ∧ t.get .RING_DROP_COUNT (16 * fn + r) = satAdd 32 (s.get .RING_DROP_COUNT (16 * fn + r)) 1
      ∧ t.part f.part = { s.part f.part with staged := (s.part f.part).staged - f.bytes.length,
                                             nDrops := (s.part f.part).nDrops + b2n (!f.watch) }
      ∧ (t.ring fn r).gap = g.1 ∧ (t.ring fn r).frames.map (fun x => { x with due := none }) = g.2.map (fun x => { x with due := none })
      ∧ (t.ring fn r).frames.tail = g.2.tail ∧ (t.ring fn r).fetched = (s.ring fn r).fetched
      ∧ OnlyAt [] [(.RING_DROP_COUNT, 16 * fn + r)] [.part f.part, .hre] s t)
  ∧ (∀ (s : State) (fn r : Nat), ((s.ring fn r).frames = [] ∨ (s.ring fn r).infl ≠ 0 ∨ ∃ f fs, (s.ring fn r).frames = f :: fs
      ∧ ((∃ k, need f.bytes.length (blens (s.ring fn r).fetched) 0 = some k ∧ k ≤ min 256 (s.ringN fn r))
        ∨ (need f.bytes.length (blens (s.ring fn r).fetched) 0 = none ∧ (∀ due, f.due = some due → s.tick < due)
          ∧ (s.ring fn r).fetched.length < min 256 (s.ringN fn r)))) → exec (.egressWaitExpire fn r) s = .next s)
  ∧ (∀ (s : State) (fn r a c : Nat) (b : List Byte) (bs : List (List Byte)), (s.ring fn r).gap = some (a, c) → (s.ring fn r).fetched = b :: bs →
    s.ringOn fn r = true →
    let i := s.get .RING_STAT_DIDX (16 * fn + r)
    ∃ t, exec (.gapDescriptor fn r) s = .next t
      ∧ t.out = s.out ++ [.hostWrite fn (s.descAddr fn r i + 16) (toLE 1 2 ++ toLE 1 128 ++ toLE 2 0 ++ toLE 4 0 ++ toLE 4 a ++ toLE 4 c
          ++ toLE 7 s.tally ++ toLE 1 0 ++ List.replicate 24 0), .hostWrite fn (s.dbAddr fn r + 8) (t.shadowBytes fn r)]
      ∧ t.ring fn r = { s.ring fn r with gap := none, fetched := bs } ∧ t.get .RING_STAT_DIDX (16 * fn + r) = (i + 1) % 2 ^ 32
      ∧ ((s.ring fn r).notify = true → s.boot.perst = false → ∀ q, (s.ring fn r).part = some q → Formed (s.home q)
          { kind := 7, irq := true, detail := toLE 1 q ++ toLE 1 r ++ toLE 2 0 ++ toLE 4 ((i + 1) % 2 ^ 32) } s t)
      ∧ OnlyAt [] [(.RING_STAT_DIDX, 16 * fn + r)] [.hre, .out] s t)
  ∧ (∀ (s : State) (fn r : Nat), ((s.ring fn r).gap = none ∨ (s.ring fn r).fetched = [] ∨ s.ringOn fn r = false) →
    exec (.gapDescriptor fn r) s = .next s)
  ∧ (∀ (s : State) (fn : Nat) (c : Cplr) (r : List Cplr), s.boot.tripped = false → (s.func fn).cq = c :: r → s.ringOn fn 1 = true →
    (s.func fn).backlog = [] → (s.func fn).lost = 0 → c.size ≤ s.cqRoom fn →
    ∃ t, exec (.completionWrite fn) s = .next t
      ∧ t.func fn = { s.func fn with cq := r, msix := { (s.func fn).msix with
          pending := (s.func fn).msix.pending || (c.irq && (s.func fn).msix.masked) } }
      ∧ RecordOut s t fn c ∧ OnlyAt [] [(.RING_STAT_DIDX, 16 * fn + 1)] [.hre, .out, .caps] s t)
  ∧ (∀ (s : State) (fn : Nat) (c : Cplr) (r : List Cplr), s.boot.tripped = false → (s.func fn).cq = c :: r →
    (s.ringOn fn 1 = false ∨ (s.func fn).backlog ≠ [] ∨ 0 < (s.func fn).lost ∨ s.cqRoom fn < c.size) → (s.func fn).backlog.length < 512 →
    ∃ t, exec (.completionWrite fn) s = .next t ∧ t.func fn = { s.func fn with cq := r, backlog := (s.func fn).backlog ++ [c] }
      ∧ OnlyChanges [] [.hre] s t)
  ∧ (∀ (s : State) (fn : Nat) (c : Cplr) (r : List Cplr), s.boot.tripped = false → (s.func fn).cq = c :: r → 512 ≤ (s.func fn).backlog.length →
    ∃ t, exec (.completionWrite fn) s = .next t ∧ (t.func fn).lost = (s.func fn).lost + 1 ∧ (t.func fn).backlog = (s.func fn).backlog
      ∧ (t.ring fn 1).ovf = true ∧ t.get .RING_ERR_OVF (16 * fn + 1) = 1
      ∧ (s.ringOn fn 1 = true → .hostWrite fn (s.dbAddr fn 1 + 8) (t.shadowBytes fn 1) ∈ t.out)
      ∧ t.get .RING_DROP_COUNT (16 * fn + 1) = satAdd 32 (s.get .RING_DROP_COUNT (16 * fn + 1)) 1
      ∧ Raised { code := 0x6004, part := fnPart fn, skind := 6, sindex := fn, detail := (s.func fn).lost + 1 } s t
      ∧ OnlyAt evFlds [(.RING_DROP_COUNT, 16 * fn + 1), (.RING_ERR_OVF, 16 * fn + 1)] evComps s t)
  ∧ (∀ (s : State) (fn : Nat), (s.boot.tripped = true ∨ (s.func fn).cq = []) → exec (.completionWrite fn) s = .next s)
  ∧ (∀ (s : State) (fn : Nat), s.ringOn fn 1 = true → 0 < (s.func fn).lost → 1 ≤ s.cqRoom fn →
    ∃ t v, exec (.backlogDrain fn) s = .next t ∧ (fn ≠ 0 → v = fn - 1) ∧ (fn = 0 → v < 128)
      ∧ t.func fn = { s.func fn with lost := 0, msix := { (s.func fn).msix with
          pending := (s.func fn).msix.pending || (s.func fn).msix.masked } }
      ∧ RecordOut s t fn (lostRec v (s.func fn).lost s.tally)
      ∧ OnlyAt [] [(.RING_STAT_DIDX, 16 * fn + 1)] [.hre, .out, .caps, .free] s t)
  ∧ (∀ (s : State) (fn : Nat) (c : Cplr) (r : List Cplr), s.ringOn fn 1 = true → (s.func fn).lost = 0 → (s.func fn).backlog = c :: r →
    c.size ≤ s.cqRoom fn →
    ∃ t, exec (.backlogDrain fn) s = .next t
      ∧ t.func fn = { s.func fn with backlog := r, msix := { (s.func fn).msix with
          pending := (s.func fn).msix.pending || (c.irq && (s.func fn).msix.masked) } }
      ∧ RecordOut s t fn c ∧ OnlyAt [] [(.RING_STAT_DIDX, 16 * fn + 1)] [.hre, .out, .caps] s t)
  ∧ (∀ (s : State) (fn : Nat), (s.ringOn fn 1 = false ∨ s.cqRoom fn = 0 ∨ ((s.func fn).lost = 0 ∧ (s.func fn).backlog = [])) →
    exec (.backlogDrain fn) s = .next s)
  ∧ (∀ (s : State) (fn : Nat), ∃ t, exec (.msixUnmask fn) s = .next t
      ∧ t.func fn = { s.func fn with msix := { (s.func fn).msix with masked := false, pending := (s.func fn).msix.pending && !s.linkUp } }
      ∧ t.out = s.out ++ (if (s.func fn).msix.pending && s.linkUp then [.msix fn (s.func fn).msix.addr (s.func fn).msix.data] else [])
      ∧ t.hre.rings = s.hre.rings ∧ OnlyChanges [] [.hre, .out] s t)

/-- The sequencer instruction words (11_sequencer_cores.md). -/
def Obligations.SeqEncodings : Prop :=
  (∀ w : Nat, w < 2 ^ 32 → bits w 26 6 = 0 → seqKind w = if bits w 0 6 ≤ 10 ∧ bits w 6 5 = 0 then some (bits w 0 6) else none)
  ∧ (∀ w : Nat, w < 2 ^ 32 → bits w 26 6 ∈ [0x01, 0x02, 0x03, 0x08, 0x09, 0x0A, 0x0B, 0x0C, 0x0D, 0x0E, 0x0F, 0x10, 0x11, 0x12, 0x13, 0x14,
      0x16, 0x17, 0x18] → seqKind w = some (64 * bits w 26 6))
  ∧ (∀ w : Nat, w < 2 ^ 32 → bits w 26 6 ∈ [0x04, 0x05, 0x06] → seqKind w = if bits w 6 10 = 0 then some (64 * bits w 26 6) else none)
  ∧ (∀ w : Nat, w < 2 ^ 32 → bits w 26 6 = 0x07 → seqKind w = if bits w 18 3 = 0 then some 0x1C0 else none)
  ∧ (∀ w : Nat, w < 2 ^ 32 → bits w 26 6 = 0x15 → seqKind w = if bits w 0 11 = 0 then some 0x540 else none)
  ∧ (∀ w : Nat, w < 2 ^ 32 → bits w 26 6 = 0x19 → seqKind w = if bits w 16 5 = 0 ∧ bits w 0 16 ≤ 1 then some 0x640 else none)
  ∧ (∀ w : Nat, w < 2 ^ 32 → bits w 26 6 ∈ [0x20, 0x29] → seqKind w = if bits w 21 5 = 0 then some (64 * bits w 26 6) else none)
  ∧ (∀ w : Nat, w < 2 ^ 32 → bits w 26 6 = 0x21 → seqKind w = if bits w 21 5 = 0 ∧ bits w 0 16 ≤ 1 then some 0x840 else none)
  ∧ (∀ w : Nat, w < 2 ^ 32 → bits w 26 6 = 0x24 → seqKind w = if bits w 16 5 = 0 ∧ bits w 0 16 < 64 then some 0x900 else none)
  ∧ (∀ w : Nat, w < 2 ^ 32 → bits w 26 6 = 0x25 → seqKind w =
      if bits w 21 5 = 0 ∧ bits w 16 5 = 0 ∧ bits w 0 16 < 32 then some 0x940 else none)
  ∧ (∀ w : Nat, w < 2 ^ 32 → bits w 26 6 = 0x28 → seqKind w = if bits w 16 5 = 0 ∧ bits w 0 16 < 256 then some 0xA00 else none)
  ∧ (∀ w : Nat, w < 2 ^ 32 → bits w 26 6 = 0x2A → seqKind w = if bits w 21 5 = 0 ∧ bits w 0 11 = 0 then some 0xA80 else none)
  ∧ (∀ w : Nat, w < 2 ^ 32 → bits w 26 6 = 0x3F → seqKind w = if bits w 21 5 = 0 ∧ bits w 16 5 = 0 then some 0xFC0 else none)
  ∧ (∀ w : Nat, w < 2 ^ 32 → (bits w 26 6 ∈ [0x1A, 0x1B, 0x1C, 0x1D, 0x1E, 0x1F, 0x22, 0x23, 0x26, 0x27] ∨ 0x2B ≤ bits w 26 6) →
      bits w 26 6 ≠ 0x3F → seqKind w = none)

/-- Checks before an instruction (11_sequencer_cores.md). The word recorded where none can be fetched (log entry 162) is a free value. -/
def Obligations.SeqChecks : Prop :=
  (∀ (s : State) (x : Nat) (e : Ecc), ∀ c ∈ (.illegalInstruction, 4096) :: seqOps, NoSem s x → s.ctxRuns x = true →
    s.get .SEQ_CTX_STATE_STATE x = 2 → (s.pcOf x % 4 ≠ 0 ∨ s.winSize x ≤ s.pcOf x) →
    ∃ t w, exec (c.1 x e) s = .next t ∧ w < 2 ^ 32 ∧ Excepts s.fresh t x (if s.pcOf x % 4 ≠ 0 then 2 else 4) 0 w)
  ∧ (∀ (s : State) (x w : Nat) (e : Ecc), ∀ c ∈ seqOps, e = .double ∨ e = .many → NoSem s x → SeqReady s x c.2 w →
    ∃ t, exec (c.1 x e) s = .next t ∧ Excepts s t x 12 0 w)
  ∧ (∀ (s : State) (x w a n : Nat) (e : Ecc), ∀ c ∈ seqOps, e = .clean ∨ e = .single → NoSem s x → SeqAt s x c.2 w →
    (∀ j < 8, ¬ AtBreak s x j) → (s.ctx x).lock = some (a, n) → (32 ≤ n ∨ lockOkKind c.2 = false) →
    ∃ t, exec (c.1 x e) s = .next t ∧ Excepts s t x (if 32 ≤ n then 9 else 8) 0 w)
  ∧ (∀ (s : State) (x w : Nat), ∀ c ∈ seqOps, SeqReady s x c.2 w →
    exec (c.1 x .single) s = exec (c.1 x .clean) (s.inc .CHK_CE_CNT_COUNT (s.get .SEQ_CTX_BIND_PART x)))
  ∧ (∀ (s : State) (x : Nat) (e : Ecc), ∀ c ∈ (.illegalInstruction, 4096) :: seqOps,
    (s.get .SEQ_CTX_STATE_STATE x ≠ 2 ∨ s.ctxRuns x = false) → exec (c.1 x e) s = .next s)
  ∧ (∀ (s : State) (x k w : Nat) (e : Ecc), ∀ c ∈ (.illegalInstruction, 4096) :: seqOps, SeqAt s x k w → k ≠ c.2 →
    exec (c.1 x e) s = .next s)
  ∧ (∀ (s : State) (x w : Nat), NoSem s x → s.ctxRuns x = true → s.get .SEQ_CTX_STATE_STATE x = 2 → s.pcOf x % 4 = 0 →
    s.pcOf x < s.winSize x → ofLE (readBytes (s.ctx x).imem (s.pcOf x) 4) = w → seqKind w = none → (∀ j < 8, ¬ AtBreak s x j) →
    (s.ctx x).lock = none →
    ∃ t, exec (.illegalInstruction x .clean) s = .next t ∧ Excepts s t x 1 0 w)
  ∧ (∀ (s : State) (x w n : Nat), s.ctxRuns x = true → s.get .SEQ_CTX_STATE_STATE x = 2 → s.pcOf x % 4 = 0 → s.pcOf x < s.winSize x →
    ofLE (readBytes (s.ctx x).imem (s.pcOf x) 4) = w → seqKind w = none → (∀ j < 8, ¬ AtBreak s x j) → (s.ctx x).lock = none → n < 32 →
    let q := s.get .SEQ_CTX_BIND_PART x
    s.getBit .SEQ_SEM_HELD n q = true → look? (s.part q).semOwner n = some x → (∀ y ∈ (s.part q).semWait, (s.ctx y).waitArg ≠ n) →
    ∃ t, exec (.illegalInstruction x .clean) s = .next t ∧ t.get .SEQ_CTX_EXC_CAUSE x = 1 ∧ t.get .SEQ_CTX_STATE_STATE x = 10
      ∧ t.getBit .SEQ_SEM_HELD n q = false ∧ look? (t.part q).semOwner n = none)
  ∧ (∀ (s : State) (x w j : Nat), ∀ c ∈ seqOps, SeqAt s x c.2 w → j < 8 → AtBreak s x j →
    ∃ t, exec (c.1 x .clean) s = .next t ∧ t.getBit .DBG_BPHIT_HIT j (s.get .SEQ_CTX_BIND_PART x) = true)
  ∧ (∀ (s : State) (x w j h : Nat), SeqAt s x 0 w → (s.ctx x).lock = none → j < 8 → (∀ i < 8, AtBreak s x i ↔ i = j) →
    let q := s.get .SEQ_CTX_BIND_PART x
    let pc := s.get .SEQ_CTX_STATE_PC x
    let m : HaltMsg := { part := q, src := s.coord, hard := false, cause := 2, hstep := h, launch := s.get .TIM_LAUNCH_AT_AT q,
                         tcoord := s.coord }
    s.get .DBG_HALT_STATE q = 0 → s.haltStep q = some h → (s.part q).halt = none → (s.part q).resumedAt = none →
    ∃ t, exec (.add x .clean) s = .next t ∧ Noted { code := 0xD002, part := some q, skind := 5, sindex := x, detail := x + j * 256 + pc * 2 ^ 16 } s t
      ∧ WroteG s t x (bits w 21 5) (s.g x (bits w 16 5) + s.g x (bits w 11 5)) ∧ Retired s t x (nextPc s x)
      ∧ t.get .DBG_HALT_STATE q = 1 ∧ t.get .DBG_HALT_CAUSE q = 2 ∧ t.get .DBG_HALT_HARD q = 0 ∧ t.get .DBG_HSTEP_STEP q = h % 2 ^ 32
      ∧ t.part q = { s.part q with halt := some { msg := m } }
      ∧ Sent 22 false ((s.image q).img.ports.map (fun p => s.pkTo 22 22 q ((s.image q).coordOf p.far) (.halt 1 m))) s t
      ∧ OnlyAt evFlds [(.DBG_BPHIT_HIT, q), (.SEQ_CTX_STATE_PC, x), (.SEQ_CTX_RETIRED_COUNT, x), (.DBG_HALT_STATE, q), (.DBG_HALT_HARD, q),
          (.DBG_HALT_CAUSE, q), (.DBG_HSTEP_STEP, q)] (evComps ++ ([.ctx x, .part q, .ctl] : List Comp)) s t)
  ∧ (∀ (s : State) (x w j : Nat), SeqAt s x 0 w → (s.ctx x).lock = none → j < 8 → (∀ i < 8, AtBreak s x i ↔ i = j) →
    let q := s.get .SEQ_CTX_BIND_PART x
    (s.get .DBG_HALT_STATE q ≠ 0 ∨ ∃ r, (s.part q).resumedAt = some r ∧ (s.tally + 2 ^ 56 - r) % 2 ^ 56 ≤ 64) →
    ∃ t, exec (.add x .clean) s = .next t
      ∧ Noted { code := 0xD002, part := some q, skind := 5, sindex := x,
                detail := x + j * 256 + s.get .SEQ_CTX_STATE_PC x * 2 ^ 16 } s t
      ∧ WroteG s t x (bits w 21 5) (s.g x (bits w 16 5) + s.g x (bits w 11 5)) ∧ Retired s t x (nextPc s x)
      ∧ OnlyAt evFlds [(.DBG_BPHIT_HIT, q), (.SEQ_CTX_STATE_PC, x), (.SEQ_CTX_RETIRED_COUNT, x)] (evComps ++ ([.ctx x] : List Comp)) s t)

/-- Register instructions of the sequencer (11_sequencer_cores.md). -/
def Obligations.SeqAlu : Prop :=
  AluSpec 0 .add (fun s x w => s.g x (bits w 16 5) + s.g x (bits w 11 5))
  ∧ AluSpec 1 .sub (fun s x w => s.g x (bits w 16 5) - s.g x (bits w 11 5))
  ∧ AluSpec 2 .and (fun s x w => s.g x (bits w 16 5) &&& s.g x (bits w 11 5))
  ∧ AluSpec 3 .or (fun s x w => s.g x (bits w 16 5) ||| s.g x (bits w 11 5))
  ∧ AluSpec 4 .xor (fun s x w => s.g x (bits w 16 5) ^^^ s.g x (bits w 11 5))
  ∧ AluSpec 5 .sll (fun s x w => s.g x (bits w 16 5) <<< ((s.g x (bits w 11 5)).toNat % 64))
  ∧ AluSpec 6 .srl (fun s x w => s.g x (bits w 16 5) >>> ((s.g x (bits w 11 5)).toNat % 64))
  ∧ AluSpec 7 .sra (fun s x w => BitVec.ofInt 64 ((s.g x (bits w 16 5)).toInt / 2 ^ ((s.g x (bits w 11 5)).toNat % 64)))
  ∧ AluSpec 8 .slt (fun s x w => if (s.g x (bits w 16 5)).toInt < (s.g x (bits w 11 5)).toInt then 1 else 0)
  ∧ AluSpec 9 .sltu (fun s x w => if (s.g x (bits w 16 5)).toNat < (s.g x (bits w 11 5)).toNat then 1 else 0)
  ∧ AluSpec 10 .mul (fun s x w => BitVec.ofNat 64 ((s.g x (bits w 16 5)).toNat * (s.g x (bits w 11 5)).toNat))
  ∧ AluSpec 0x40 .addi (fun s x w => s.g x (bits w 16 5) + BitVec.ofInt 64 (sint 16 (bits w 0 16)))
  ∧ AluSpec 0x80 .andi (fun s x w => s.g x (bits w 16 5) &&& BitVec.ofNat 64 (bits w 0 16))
  ∧ AluSpec 0xC0 .ori (fun s x w => s.g x (bits w 16 5) ||| BitVec.ofNat 64 (bits w 0 16))
  ∧ AluSpec 0x100 .slli (fun s x w => s.g x (bits w 16 5) <<< (bits w 0 6))
  ∧ AluSpec 0x140 .srli (fun s x w => s.g x (bits w 16 5) >>> (bits w 0 6))
  ∧ AluSpec 0x180 .srai (fun s x w => BitVec.ofInt 64 ((s.g x (bits w 16 5)).toInt / 2 ^ bits w 0 6))
  ∧ (∀ (s : State) (x w : Nat), SeqReady s x 0x1C0 w → ∃ t v, exec (.lih x .clean) s = .next t ∧ AluRuns s t x (bits w 21 5) v
      ∧ ∀ b, b < 64 → v.getLsbD b = if b / 16 = bits w 16 2 then bit (bits w 0 16) (b % 16) else (s.g x (bits w 21 5)).getLsbD b)

/-- Branches and jumps of the sequencer (11_sequencer_cores.md, 16_watching_a_run.md). -/
def Obligations.SeqBranches : Prop :=
  (∀ (s : State) (x w : Nat), ∀ c ∈ ([(.beq, 0x200, fun a b => decide (a = b)), (.bne, 0x240, fun a b => decide (a ≠ b)),
      (.blt, 0x280, fun a b => decide (a.toInt < b.toInt)), (.bge, 0x2C0, fun a b => decide (b.toInt ≤ a.toInt)),
      (.bltu, 0x300, fun a b => decide (a.toNat < b.toNat)), (.bgeu, 0x340, fun a b => decide (b.toNat ≤ a.toNat))] :
      List ((Nat → Ecc → Instr) × Nat × (BitVec 64 → BitVec 64 → Bool))),
    SeqReady s x c.2.1 w →
    (c.2.2 (s.g x (bits w 21 5)) (s.g x (bits w 16 5)) = true →
      ∃ t, exec (c.1 x .clean) s = .next t ∧ (∀ r, t.g x r = s.g x r)
        ∧ JumpRuns s t x (ofSint 64 ((s.pcOf x : Int) + 4 * sint 16 (bits w 0 16))) 0)
    ∧ (c.2.2 (s.g x (bits w 21 5)) (s.g x (bits w 16 5)) = false →
      ∃ t, exec (c.1 x .clean) s = .next t ∧ (∀ r, t.g x r = s.g x r) ∧ Retired s t x (nextPc s x)
        ∧ (t.ctx x).notTaken = (s.ctx x).notTaken + 1
        ∧ OnlyAt [] [(.SEQ_CTX_STATE_PC, x), (.SEQ_CTX_RETIRED_COUNT, x)] [.ctx x] s t))
  ∧ (∀ (s : State) (x w : Nat), SeqReady s x 0x380 w →
    ∃ t, exec (.jal x .clean) s = .next t ∧ WroteG s t x (bits w 21 5) (BitVec.ofNat 64 (s.pcOf x + 4))
      ∧ JumpRuns s t x (ofSint 64 ((s.pcOf x : Int) + 4 * sint 21 (bits w 0 21))) 1)
  ∧ (∀ (s : State) (x w : Nat), SeqReady s x 0x3C0 w →
    ∃ t, exec (.jalr x .clean) s = .next t ∧ WroteG s t x (bits w 21 5) (BitVec.ofNat 64 (s.pcOf x + 4))
      ∧ JumpRuns s t x (seqEa s x w / 4 * 4) 2)

/-- LD, ST, LDS and STS (11_sequencer_cores.md). -/
def Obligations.SeqMemory : Prop :=
  (∀ (s : State) (x w : Nat), SeqReady s x 0x400 w → seqEa s x w % 8 = 0 → seqEa s x w + 8 ≤ s.winSize x →
    ∃ t, exec (.ld x .clean) s = .next t
      ∧ AluRuns s t x (bits w 21 5) (BitVec.ofNat 64 (ofLE (readBytes (s.ctx x).dmem (seqEa s x w) 8))))
  ∧ (∀ (s : State) (x w : Nat), SeqReady s x 0x440 w → seqEa s x w % 8 = 0 → seqEa s x w + 8 ≤ s.winSize x →
    ∃ t, exec (.st x .clean) s = .next t ∧ Stored (s.ctx x).dmem (t.ctx x).dmem (seqEa s x w) (toLE 8 (s.g x (bits w 21 5)).toNat)
      ∧ (∀ r, t.g x r = s.g x r) ∧ Retired s t x (nextPc s x)
      ∧ ({ t.ctx x with pcHi := 0, lock := none, dmem := [] } : Ctx) = { s.ctx x with pcHi := 0, lock := none, dmem := [] }
      ∧ OnlyAt [] [(.SEQ_CTX_STATE_PC, x), (.SEQ_CTX_RETIRED_COUNT, x)] [.ctx x] s t)
  ∧ (∀ (s : State) (x w : Nat), SeqReady s x 0x480 w → seqEa s x w % 8 = 0 →
    seqEa s x w + 8 ≤ s.shrSize (s.get .SEQ_CTX_BIND_PART x) →
    ∃ t, exec (.lds x .clean) s = .next t ∧ AluRuns s t x (bits w 21 5)
      (BitVec.ofNat 64 (ofLE (readBytes s.shr (64 * s.get .SEQ_SHR_BASE (s.get .SEQ_CTX_BIND_PART x) + seqEa s x w) 8))))
  ∧ (∀ (s : State) (x w : Nat), SeqReady s x 0x4C0 w →
    let q := s.get .SEQ_CTX_BIND_PART x
    let a := seqEa s x w
    a % 8 = 0 → a + 8 ≤ s.shrSize q →
    ∃ t, exec (.sts x .clean) s = .next t ∧ Stored s.shr t.shr (64 * s.get .SEQ_SHR_BASE q + a) (toLE 8 (s.g x (bits w 21 5)).toNat)
      ∧ (∀ y, y ≠ x → t.ctx y = if y ∈ s.ctxsOf q ∧ (s.ctx y).resv = some a then { s.ctx y with resv := none } else s.ctx y)
      ∧ CtxKeeps s t x ∧ (∀ r, t.g x r = s.g x r) ∧ Retired s t x (nextPc s x) ∧ t.hbm = s.hbm
      ∧ OnlyAt [] [(.SEQ_CTX_STATE_PC, x), (.SEQ_CTX_RETIRED_COUNT, x)] [.ctxs, .mem] s t)
  ∧ (∀ (s : State) (x w : Nat), ∀ c ∈ ([(.ld, 0x400, 3), (.st, 0x440, 3), (.lds, 0x480, 5), (.sts, 0x4C0, 5), (.lkl, 0x500, 5)] :
      List ((Nat → Ecc → Instr) × Nat × Nat)),
    NoSem s x → SeqReady s x c.2.1 w →
    let size := if c.2.2 = 3 then s.winSize x else s.shrSize (s.get .SEQ_CTX_BIND_PART x)
    (seqEa s x w % 8 ≠ 0 ∨ size < seqEa s x w + 8) →
    ∃ t, exec (c.1 x .clean) s = .next t ∧ Excepts s t x (if seqEa s x w % 8 ≠ 0 then 2 else c.2.2) 0 w)

/-- LKL and LKS (11_sequencer_cores.md, 16_watching_a_run.md). -/
def Obligations.SeqLocks : Prop :=
  (∀ (s : State) (x w : Nat), SeqReady s x 0x500 w → seqEa s x w % 8 = 0 →
    seqEa s x w + 8 ≤ s.shrSize (s.get .SEQ_CTX_BIND_PART x) →
    let a := seqEa s x w
    ∃ t, exec (.lkl x .clean) s = .next t
      ∧ WroteG s t x (bits w 21 5) (BitVec.ofNat 64 (ofLE (readBytes s.shr (64 * s.get .SEQ_SHR_BASE (s.get .SEQ_CTX_BIND_PART x) + a) 8)))
      ∧ (t.ctx x).lock = some (a, 1) ∧ (t.ctx x).resv = some a
      ∧ ({ t.ctx x with g := [], pcHi := 0, lock := none, resv := none } : Ctx)
          = { s.ctx x with g := [], pcHi := 0, lock := none, resv := none }
      ∧ t.get .SEQ_CTX_STATE_LOCKED x = 1 ∧ t.pcOf x = nextPc s x % 2 ^ 64
      ∧ t.get .SEQ_CTX_RETIRED_COUNT x = satAdd 32 (s.get .SEQ_CTX_RETIRED_COUNT x) 1
      ∧ OnlyAt [] [(.SEQ_CTX_STATE_PC, x), (.SEQ_CTX_RETIRED_COUNT, x), (.SEQ_CTX_STATE_LOCKED, x)] [.ctx x] s t)
  ∧ (∀ (s : State) (x w b n : Nat), SeqReady s x 0x540 w → (s.ctx x).lock = some (b, n) → (s.g x (bits w 16 5)).toNat = b →
    let q := s.get .SEQ_CTX_BIND_PART x
    let won := decide ((s.ctx x).resv = some b)
    ∃ t, exec (.lks x .clean) s = .next t ∧ WroteG s t x (bits w 21 5) (if won then 1 else 0)
      ∧ (won = true → Stored s.shr t.shr (64 * s.get .SEQ_SHR_BASE q + b) (toLE 8 (s.g x (bits w 11 5)).toNat))
      ∧ (won = false → t.shr = s.shr) ∧ (t.ctx x).lock = none ∧ (t.ctx x).resv = none ∧ t.get .SEQ_CTX_STATE_LOCKED x = 0
      ∧ (∀ y, y ≠ x → t.ctx y = if won = true ∧ y ∈ s.ctxsOf q ∧ (s.ctx y).resv = some b then { s.ctx y with resv := none } else s.ctx y)
      ∧ t.pcOf x = nextPc s x % 2 ^ 64 ∧ t.get .SEQ_CTX_RETIRED_COUNT x = satAdd 32 (s.get .SEQ_CTX_RETIRED_COUNT x) 1
      ∧ t.get .SEQ_CTX_LOCKFAIL_COUNT x =
          (if won then s.get .SEQ_CTX_LOCKFAIL_COUNT x else satAdd 32 (s.get .SEQ_CTX_LOCKFAIL_COUNT x) 1)
      ∧ t.get .CHK_NDC_COUNT q = (if won then s.get .CHK_NDC_COUNT q else satAdd 32 (s.get .CHK_NDC_COUNT q) 1)
      ∧ ((s.ctx x).haltPend = false → t.get .SEQ_CTX_STATE_STATE x = 2)
      ∧ ((s.ctx x).haltPend = true → t.get .SEQ_CTX_STATE_STATE x = 11 ∧ (t.ctx x).haltSt = 2 ∧ (t.ctx x).haltPend = false)
      ∧ (t.ctx x).dmem = (s.ctx x).dmem ∧ (t.ctx x).imem = (s.ctx x).imem ∧ (t.ctx x).queue = (s.ctx x).queue ∧ t.hbm = s.hbm
      ∧ OnlyAt [] [(.SEQ_CTX_STATE_PC, x), (.SEQ_CTX_RETIRED_COUNT, x), (.SEQ_CTX_STATE_LOCKED, x), (.SEQ_CTX_LOCKFAIL_COUNT, x),
          (.CHK_NDC_COUNT, q), (.SEQ_CTX_STATE_STATE, x)] [.ctxs, .mem] s t)
  ∧ (∀ (s : State) (x w : Nat), NoSem s x → SeqReady s x 0x540 w →
    ((s.ctx x).lock = none ∨ ∃ b n, (s.ctx x).lock = some (b, n) ∧ (s.g x (bits w 16 5)).toNat ≠ b) →
    ∃ t, exec (.lks x .clean) s = .next t ∧ Excepts s t x 10 0 w)

/-- LDR and STR (11_sequencer_cores.md, 10_control_rings.md). -/
def Obligations.SeqBoard : Prop :=
  (∀ (s : State) (x w tag : Nat) (store : Bool), SeqReady s x (if store then 0x5C0 else 0x580) w →
    let a := seqEa s x w
    let q := s.get .SEQ_CTX_BIND_PART x
    let stop := 8 + x / 16
    let pl := if store then Payload.write (a % 2 ^ 48) (toLE 8 (s.g x (bits w 21 5)).toNat) else Payload.read (a % 2 ^ 48) 8
    a % 8 = 0 → a < 2 ^ 52 → s.freeRtag stop = some tag →
    ∃ t, exec (if store then .str x .clean else .ldr x .clean) s = .next t ∧ t.get .SEQ_CTX_STATE_STATE x = 6
      ∧ t.get .SEQ_CTX_STATE_PC x = s.get .SEQ_CTX_STATE_PC x
      ∧ t.ctx x = { s.ctx x with waitReg := if store then 0 else bits w 21 5 }
      ∧ look [] t.ctl.wait (2 * stop) = look [] s.ctl.wait (2 * stop)
          ++ [{ s.pkTo stop (ownerStop (a % 2 ^ 48)) q (s.coord / 16 * 16 + a / 2 ^ 48 % 16) pl with
                rxp := true, rtag := tag, ctx := some x }]
      ∧ (∀ k, k ≠ 2 * stop → look [] t.ctl.wait k = look [] s.ctl.wait k)
      ∧ (∀ k, look? t.ctl.reqs k = if k = 256 * stop + tag then
          some { purp := if store then .str x else .ldr x (bits w 21 5), due := s.tick + usTicks (max 1 (s.get .CTN_REQ_TO_TIMEOUT)) }
          else look? s.ctl.reqs k)
      ∧ t.ctl.ejq = s.ctl.ejq ∧ t.ctl.retired = s.ctl.retired ∧ t.ctl.bufs = s.ctl.bufs
      ∧ OnlyAt [] [(.SEQ_CTX_STATE_STATE, x)] [.ctx x, .ctl] s t)
  ∧ (∀ (s : State) (x w : Nat) (store : Bool), SeqReady s x (if store then 0x5C0 else 0x580) w → seqEa s x w % 8 = 0 →
    seqEa s x w < 2 ^ 52 → s.freeRtag (8 + x / 16) = none → exec (if store then .str x .clean else .ldr x .clean) s = .next s)
  ∧ (∀ (s : State) (x w : Nat) (store : Bool), NoSem s x → SeqReady s x (if store then 0x5C0 else 0x580) w →
    (seqEa s x w % 8 ≠ 0 ∨ 2 ^ 52 ≤ seqEa s x w) →
    ∃ t, exec (if store then .str x .clean else .ldr x .clean) s = .next t ∧ Excepts s t x 2 0 w)

/-- WAITT, its end, and RDT (11_sequencer_cores.md, 16_watching_a_run.md). -/
def Obligations.SeqTime : Prop :=
  (∀ (s : State) (x w : Nat), SeqReady s x 0x600 w → 0 < cmp32 (s.slotTally (s.get .SEQ_CTX_BIND_PART x) (seqEa s x w)) s.tally →
    ∃ t, exec (.waitt x .clean) s = .next t ∧ t.get .SEQ_CTX_STATE_STATE x = 3
      ∧ t.ctx x = { s.ctx x with waitArg := seqEa s x w, waitReg := bits w 21 5, since := s.tally }
      ∧ OnlyAt [] [(.SEQ_CTX_STATE_STATE, x)] [.ctx x] s t)
  ∧ (∀ (s : State) (x w n : Nat), SeqReady s x 0x600 w →
    let q := s.get .SEQ_CTX_BIND_PART x
    cmp32 (s.slotTally q (seqEa s x w)) s.tally = -(n : Int) →
    ∃ t, exec (.waitt x .clean) s = .next t ∧ WroteG s t x (bits w 21 5) (BitVec.ofNat 64 n) ∧ Retired s t x (nextPc s x)
      ∧ t.get .SEQ_CTX_LATE_COUNT x = (if n = 0 then s.get .SEQ_CTX_LATE_COUNT x else satAdd 32 (s.get .SEQ_CTX_LATE_COUNT x) 1)
      ∧ t.get .CHK_NDC_COUNT q = (if bits w 21 5 = 0 then s.get .CHK_NDC_COUNT q else satAdd 32 (s.get .CHK_NDC_COUNT q) 1)
      ∧ CtxKeeps s t x ∧ OnlyAt [] [(.SEQ_CTX_STATE_PC, x), (.SEQ_CTX_RETIRED_COUNT, x), (.SEQ_CTX_LATE_COUNT, x), (.CHK_NDC_COUNT, q)]
          [.ctx x] s t)
  ∧ (∀ (s : State) (x n : Nat), s.ctxRuns x = true → s.get .SEQ_CTX_STATE_STATE x = 3 →
    let q := s.get .SEQ_CTX_BIND_PART x
    cmp32 (s.slotTally q (s.ctx x).waitArg) s.tally = -(n : Int) →
    ∃ t, exec (.waittComplete x) s = .next t ∧ t.get .SEQ_CTX_STATE_STATE x = 2 ∧ WroteG s t x (s.ctx x).waitReg (BitVec.ofNat 64 n)
      ∧ Retired s t x (nextPc s x) ∧ CtxKeeps s t x
      ∧ t.get .SEQ_CTX_LATE_COUNT x = (if n = 0 then s.get .SEQ_CTX_LATE_COUNT x else satAdd 32 (s.get .SEQ_CTX_LATE_COUNT x) 1)
      ∧ t.get .CHK_NDC_COUNT q = (if (s.ctx x).waitReg = 0 then s.get .CHK_NDC_COUNT q else satAdd 32 (s.get .CHK_NDC_COUNT q) 1)
      ∧ WaitTraced s t x (1 + (s.ctx x).since * 2 ^ 24)
      ∧ (s.getBit .DBG_TRC_CTRL_EN 1 q = false →
          OnlyAt [] [(.SEQ_CTX_STATE_PC, x), (.SEQ_CTX_RETIRED_COUNT, x), (.SEQ_CTX_LATE_COUNT, x), (.SEQ_CTX_STATE_STATE, x),
            (.CHK_NDC_COUNT, q)] [.ctx x] s t)
      ∧ OnlyAt traceFlds [(.SEQ_CTX_STATE_PC, x), (.SEQ_CTX_RETIRED_COUNT, x), (.SEQ_CTX_LATE_COUNT, x), (.SEQ_CTX_STATE_STATE, x),
          (.CHK_NDC_COUNT, q)] (evComps ++ ([.ctx x, .part q, .mem] : List Comp)) s t)
  ∧ (∀ (s : State) (x : Nat), (s.ctxRuns x = false ∨ s.get .SEQ_CTX_STATE_STATE x ≠ 3
      ∨ 0 < cmp32 (s.slotTally (s.get .SEQ_CTX_BIND_PART x) (s.ctx x).waitArg) s.tally) → exec (.waittComplete x) s = .next s)
  ∧ (∀ (s : State) (x w : Nat), SeqReady s x 0x640 w →
    ∃ t, exec (.rdt x .clean) s = .next t
      ∧ WroteG s t x (bits w 21 5) (BitVec.ofNat 64 (if bits w 0 16 = 0 then s.tally
          else (s.tally + 2 ^ 56 - s.get .TIM_LAUNCH_AT_AT (s.get .SEQ_CTX_BIND_PART x)) % 2 ^ 56))
      ∧ Retired s t x (nextPc s x) ∧ CtxKeeps s t x
      ∧ t.get .CHK_NDC_COUNT (s.get .SEQ_CTX_BIND_PART x) = satAdd 32 (s.get .CHK_NDC_COUNT (s.get .SEQ_CTX_BIND_PART x)) 1
      ∧ OnlyAt [] [(.SEQ_CTX_STATE_PC, x), (.SEQ_CTX_RETIRED_COUNT, x), (.CHK_NDC_COUNT, s.get .SEQ_CTX_BIND_PART x)] [.ctx x] s t)

/-- ISSUE and SWITCH (11_sequencer_cores.md, 10_control_rings.md). -/
def Obligations.SeqIssue : Prop :=
  (∀ (s : State) (x w : Nat) (b : List Byte) (i : Instr), SeqQueues s x w i b → (s.ctx x).queue.length < 8 →
    look [] s.ctl.wait (2 * (8 + x / 16)) ≠ [] → s.issuePackets x ((s.ctx x).queue.headD b) ≠ [] →
    ∃ t, exec i s = .next t ∧ (t.ctx x).queue = (s.ctx x).queue ++ [b]
      ∧ (t.ctx x).lastIss = (if b.length = 20 then fieldLE b 0 4 else (s.ctx x).lastIss) ∧ Retired s t x (nextPc s x)
      ∧ (∀ r, t.g x r = s.g x r) ∧ OnlyAt [] [(.SEQ_CTX_STATE_PC, x), (.SEQ_CTX_RETIRED_COUNT, x)] [.ctx x] s t)
  ∧ (∀ (s : State) (x w : Nat) (b : List Byte) (i : Instr), SeqQueues s x w i b → (s.ctx x).queue = [] →
    look [] s.ctl.wait (2 * (8 + x / 16)) = [] →
    ∃ t, exec i s = .next t ∧ (t.ctx x).queue = []
      ∧ (t.ctx x).lastIss = (if b.length = 20 then fieldLE b 0 4 else (s.ctx x).lastIss)
      ∧ Sent (8 + x / 16) false (s.issuePackets x b) s t ∧ t.ctl.ejq = s.ctl.ejq ∧ Retired s t x (nextPc s x) ∧ (∀ r, t.g x r = s.g x r)
      ∧ OnlyAt [] [(.SEQ_CTX_STATE_PC, x), (.SEQ_CTX_RETIRED_COUNT, x)] [.ctx x, .ctl] s t)
  ∧ (∀ (s : State) (x w : Nat) (b c : List Byte) (r : List (List Byte)) (i : Instr), SeqQueues s x w i b → (s.ctx x).queue = c :: r →
    r.length < 7 → look [] s.ctl.wait (2 * (8 + x / 16)) = [] → s.issuePackets x c ≠ [] →
    ∃ t, exec i s = .next t ∧ (t.ctx x).queue = r ++ [b] ∧ Sent (8 + x / 16) false (s.issuePackets x c) s t ∧ t.ctl.ejq = s.ctl.ejq
      ∧ Retired s t x (nextPc s x) ∧ OnlyAt [] [(.SEQ_CTX_STATE_PC, x), (.SEQ_CTX_RETIRED_COUNT, x)] [.ctx x, .ctl] s t)
  ∧ (∀ (s : State) (x w : Nat) (b : List Byte) (i : Instr), SeqQueues s x w i b → 8 ≤ (s.ctx x).queue.length →
    ∃ t, exec i s = .next t ∧ t.get .SEQ_CTX_STATE_STATE x = 8 ∧ OnlyAt [] [(.SEQ_CTX_STATE_STATE, x)] [] s t)
  ∧ (∀ (s : State) (x : Nat) (b : List Byte), b.length = 20 → s.issuePackets x b = (List.range 8).filterMap (fun d =>
      if bit (fieldLE b 16 1) d then
        some { localPk (8 + x / 16) d (s.get .SEQ_CTX_BIND_PART x)
                (.issue (fieldLE b 0 16) (fieldLE b 16 1) (fieldLE b 17 1) (fieldLE b 18 2)) with ctx := some x } else none))
  ∧ (∀ (s : State) (x : Nat) (b : List Byte), b.length = 5 → s.issuePackets x b = [0, 1, 2, 3, 4, 5, 6, 7, 20, 21].map (fun d =>
      { localPk (8 + x / 16) d (s.get .SEQ_CTX_BIND_PART x) (.banksw (fieldLE b 0 4) (fieldLE b 4 1)) with ctx := some x }))
  ∧ (∀ (s : State) (x w : Nat), NoSem s x → SeqReady s x 0x800 w → (seqEa s x w % 4 ≠ 0 ∨ s.winSize x < seqEa s x w + 20) →
    ∃ t, exec (.issue x .clean) s = .next t ∧ Excepts s t x (if seqEa s x w % 4 ≠ 0 then 2 else 3) 0 w)

/-- SEMA, SEMR and HALT (11_sequencer_cores.md, 16_watching_a_run.md). -/
def Obligations.SeqSemaphores : Prop :=
  (∀ (s : State) (x w : Nat), SeqReady s x 0x900 w →
    let q := s.get .SEQ_CTX_BIND_PART x
    let n := bits w 0 16 % 32
    let asks := bit (bits w 0 16) 5 && bits w 21 5 != 0
    s.getBit .SEQ_SEM_HELD n q = false → s.get .SEQ_SEM_HELD q < 2 ^ 32 →
    ∃ t, exec (.sema x .clean) s = .next t ∧ WroteG s t x (bits w 21 5) 1 ∧ Retired s t x (nextPc s x) ∧ CtxKeeps s t x
      ∧ t.get .SEQ_SEM_HELD q = s.get .SEQ_SEM_HELD q + 2 ^ n
      ∧ t.part q = { s.part q with semOwner := ins (s.part q).semOwner n x }
      ∧ t.get .CHK_NDC_COUNT q = (if asks then satAdd 32 (s.get .CHK_NDC_COUNT q) 1 else s.get .CHK_NDC_COUNT q)
      ∧ OnlyAt [] [(.SEQ_CTX_STATE_PC, x), (.SEQ_CTX_RETIRED_COUNT, x), (.SEQ_SEM_HELD, q), (.CHK_NDC_COUNT, q)] [.ctx x, .part q] s t)
  ∧ (∀ (s : State) (x w : Nat), SeqReady s x 0x900 w →
    let q := s.get .SEQ_CTX_BIND_PART x
    let n := bits w 0 16 % 32
    s.getBit .SEQ_SEM_HELD n q = true → look? (s.part q).semOwner n ≠ some x → bit (bits w 0 16) 5 = false →
    ∃ t, exec (.sema x .clean) s = .next t ∧ t.get .SEQ_CTX_STATE_STATE x = 4
      ∧ t.part q = { s.part q with semWait := (s.part q).semWait ++ [x] }
      ∧ t.ctx x = { s.ctx x with waitArg := n, waitReg := bits w 21 5, since := s.tally }
      ∧ OnlyAt [] [(.SEQ_CTX_STATE_STATE, x)] [.ctx x, .part q] s t)
  ∧ (∀ (s : State) (x w : Nat), SeqReady s x 0x900 w →
    let q := s.get .SEQ_CTX_BIND_PART x
    let n := bits w 0 16 % 32
    s.getBit .SEQ_SEM_HELD n q = true → look? (s.part q).semOwner n ≠ some x → bit (bits w 0 16) 5 = true →
    ∃ t, exec (.sema x .clean) s = .next t ∧ WroteG s t x (bits w 21 5) 0 ∧ Retired s t x (nextPc s x) ∧ CtxKeeps s t x
      ∧ t.get .CHK_NDC_COUNT q = (if bits w 21 5 = 0 then s.get .CHK_NDC_COUNT q else satAdd 32 (s.get .CHK_NDC_COUNT q) 1)
      ∧ OnlyAt [] [(.SEQ_CTX_STATE_PC, x), (.SEQ_CTX_RETIRED_COUNT, x), (.CHK_NDC_COUNT, q)] [.ctx x] s t)
  ∧ (∀ (s : State) (x w : Nat), SeqReady s x 0x900 w →
    let q := s.get .SEQ_CTX_BIND_PART x
    let n := bits w 0 16 % 32
    s.getBit .SEQ_SEM_HELD n q = true → look? (s.part q).semOwner n = some x → (∀ y ∈ (s.part q).semWait, (s.ctx y).waitArg ≠ n) →
    ∃ t, exec (.sema x .clean) s = .next t ∧ t.get .SEQ_CTX_EXC_CAUSE x = 11 ∧ t.get .SEQ_CTX_STATE_STATE x = 10
      ∧ t.getBit .SEQ_SEM_HELD n q = false ∧ look? (t.part q).semOwner n = none)
  ∧ (∀ (s : State) (x w : Nat), SeqReady s x 0x940 w →
    let q := s.get .SEQ_CTX_BIND_PART x
    let n := bits w 0 16 % 32
    s.getBit .SEQ_SEM_HELD n q = true → look? (s.part q).semOwner n = some x → s.get .SEQ_SEM_HELD q < 2 ^ 32 →
    (s.part q).semWait.filter (fun y => (s.ctx y).waitArg == n) = [] →
    ∃ t, exec (.semr x .clean) s = .next t ∧ t.get .SEQ_SEM_HELD q = s.get .SEQ_SEM_HELD q - 2 ^ n
      ∧ t.part q = { s.part q with semOwner := del (s.part q).semOwner n }
      ∧ Retired s t x (nextPc s x) ∧ CtxKeeps s t x ∧ (∀ r, t.g x r = s.g x r)
      ∧ OnlyAt [] [(.SEQ_CTX_STATE_PC, x), (.SEQ_CTX_RETIRED_COUNT, x), (.SEQ_SEM_HELD, q)] [.ctx x, .part q] s t)
  ∧ (∀ (s : State) (x w y : Nat) (ys : List Nat), SeqReady s x 0x940 w →
    let q := s.get .SEQ_CTX_BIND_PART x
    let n := bits w 0 16 % 32
    s.getBit .SEQ_SEM_HELD n q = true → look? (s.part q).semOwner n = some x → y ≠ x →
    (s.part q).semWait.filter (fun y => (s.ctx y).waitArg == n) = y :: ys →
    ∃ t, exec (.semr x .clean) s = .next t ∧ look? (t.part q).semOwner n = some y ∧ (t.part q).semWait = (s.part q).semWait.erase y
      ∧ t.getBit .SEQ_SEM_HELD n q = true
      ∧ t.get .CHK_NDC_COUNT q = (if ys = [] then s.get .CHK_NDC_COUNT q else satAdd 32 (s.get .CHK_NDC_COUNT q) 1)
      ∧ (s.get .SEQ_CTX_STATE_STATE y = 4 → t.get .SEQ_CTX_STATE_STATE y = 2)
      ∧ (s.get .SEQ_CTX_STATE_STATE y ≠ 4 → t.get .SEQ_CTX_STATE_STATE y = s.get .SEQ_CTX_STATE_STATE y ∧ (t.ctx y).haltSt = 2)
      ∧ t.pcOf y = nextPc s y % 2 ^ 64 ∧ t.get .SEQ_CTX_RETIRED_COUNT y = satAdd 32 (s.get .SEQ_CTX_RETIRED_COUNT y) 1
      ∧ (∀ j, t.g y j = if j = (s.ctx y).waitReg ∧ j ≠ 0 then 1 else s.g y j)
      ∧ Retired s t x (nextPc s x) ∧ (∀ r, t.g x r = s.g x r)
      ∧ (bit (s.get .DBG_TRC_CTRL_EN q) 1 = true →
          Traced s t q (traceBytes 4 q (5 * 4096 + y) s.tally (s.ctx y).lastIss (s.get .SEQ_CTX_ID_LAYER y) (s.get .SEQ_CTX_ID_OPER y)
            (2 + n * 256 + x * 2 ^ 16 + 2 ^ 23 + (s.ctx y).since * 2 ^ 24)))
      ∧ (bit (s.get .DBG_TRC_CTRL_EN q) 1 = false →
          OnlyAt [] [(.SEQ_CTX_STATE_PC, x), (.SEQ_CTX_RETIRED_COUNT, x), (.SEQ_CTX_STATE_PC, y), (.SEQ_CTX_RETIRED_COUNT, y),
            (.SEQ_CTX_STATE_STATE, y), (.CHK_NDC_COUNT, q)] [.ctx x, .ctx y, .part q] s t))
  ∧ (∀ (s : State) (x w : Nat), NoSem s x → SeqReady s x 0x940 w → ∃ t, exec (.semr x .clean) s = .next t ∧ Excepts s t x 11 0 w)
  ∧ (∀ (s : State) (x w : Nat), NoSem s x → SeqReady s x 0xFC0 w → bits w 0 16 = 0 →
    ∃ t, exec (.halt x .clean) s = .next t ∧ t.get .SEQ_CTX_STATE_STATE x = 9
      ∧ t.get .SEQ_CTX_RETIRED_COUNT x = satAdd 32 (s.get .SEQ_CTX_RETIRED_COUNT x) 1
      ∧ OnlyAt [] [(.SEQ_CTX_STATE_STATE, x), (.SEQ_CTX_RETIRED_COUNT, x)] [] s t)
  ∧ (∀ (s : State) (x w n : Nat), SeqReady s x 0xFC0 w → bits w 0 16 = 0 → n < 32 →
    let q := s.get .SEQ_CTX_BIND_PART x
    s.getBit .SEQ_SEM_HELD n q = true → look? (s.part q).semOwner n = some x → (∀ y ∈ (s.part q).semWait, (s.ctx y).waitArg ≠ n) →
    ∃ t, exec (.halt x .clean) s = .next t ∧ t.get .SEQ_CTX_STATE_STATE x = 9 ∧ t.getBit .SEQ_SEM_HELD n q = false
      ∧ look? (t.part q).semOwner n = none)
  ∧ (∀ (s : State) (x w : Nat), NoSem s x → SeqReady s x 0xFC0 w → bits w 0 16 ≠ 0 →
    ∃ t, exec (.halt x .clean) s = .next t ∧ Excepts s t x 13 (bits w 0 16) w)

/-- INTAKE, EGRESS, its staging, MARK and SEQ_MEM_DATA (11_sequencer_cores.md, 13_same_bits_twice.md, 16_watching_a_run.md). -/
def Obligations.SeqIntakeEgress : Prop :=
  (∀ (s : State) (x w : Nat), SeqReady s x 0xA00 w →
    let q := s.get .SEQ_CTX_BIND_PART x
    let k := bits w 0 16
    k < (s.image q).img.intakes.length → (look? (s.part q).intakes k = some .done ∨ look? (s.part q).intakes k = some .skipped) →
    ∃ t, exec (.intake x .clean) s = .next t ∧ AluRuns s t x (bits w 21 5)
      (BitVec.ofNat 64 (if look? (s.part q).intakes k = some .done then ((s.image q).img.intakes.getD k {}).n else 0)))
  ∧ (∀ (s : State) (x w : Nat), SeqReady s x 0xA00 w →
    let q := s.get .SEQ_CTX_BIND_PART x
    let k := bits w 0 16
    k < (s.image q).img.intakes.length → look? (s.part q).intakes k ≠ some .done → look? (s.part q).intakes k ≠ some .skipped →
    ∃ t, exec (.intake x .clean) s = .next t ∧ t.get .SEQ_CTX_STATE_STATE x = 5
      ∧ t.ctx x = { s.ctx x with waitArg := k, waitReg := bits w 21 5, since := s.tally } ∧ OnlyAt [] [(.SEQ_CTX_STATE_STATE, x)] [.ctx x] s t)
  ∧ (∀ (s : State) (x w : Nat), NoSem s x → SeqReady s x 0xA00 w →
    (s.image (s.get .SEQ_CTX_BIND_PART x)).img.intakes.length ≤ bits w 0 16 →
    ∃ t, exec (.intake x .clean) s = .next t ∧ Excepts s t x 14 0 w)
  ∧ (∀ (s : State) (x w : Nat), SeqReady s x 0xA40 w →
    let q := s.get .SEQ_CTX_BIND_PART x
    let b := readBytes (s.ctx x).dmem (seqEa s x w) 24
    let r := fieldLE b 16 1
    seqEa s x w % 8 = 0 → seqEa s x w + 24 ≤ s.winSize x → fieldLE b 17 7 = 0 → fieldLE b 8 4 ≠ 0 → r ≤ 3 →
    s.get .PRT_HBM_BASE_BASE q * 2 ^ 21 ≤ fieldLE b 0 8 →
    fieldLE b 0 8 + fieldLE b 8 4 ≤ (s.get .PRT_HBM_BASE_BASE q + s.get .PRT_HBM_SIZE_SIZE q) * 2 ^ 21 →
    let f : Frame := { step := (s.ctx x).lastIss, layer := s.get .SEQ_CTX_ID_LAYER x, oper := s.get .SEQ_CTX_ID_OPER x,
                       src := fieldLE b 12 4, bytes := readBytes s.hbm.bytes (fieldLE b 0 8) (fieldLE b 8 4) }
    ∃ t, exec (.egress x .clean) s = .next t ∧ t.get .SEQ_CTX_STATE_STATE x = 7 ∧ t.ctx x = { s.ctx x with egr := some f, egrRing := r }
      ∧ t.part q = { s.part q with lastEgr := ins (s.part q).lastEgr r x }
      ∧ t.get .CHK_NDC_COUNT q = (if (look? (s.part q).lastEgr r).getD x = x then s.get .CHK_NDC_COUNT q
          else satAdd 32 (s.get .CHK_NDC_COUNT q) 1)
      ∧ t.get .DBG_C_HBM_OTHER_BYTES q = (s.get .DBG_C_HBM_OTHER_BYTES q + fieldLE b 8 4) % 2 ^ 64
      ∧ OnlyAt [] [(.SEQ_CTX_STATE_STATE, x), (.CHK_NDC_COUNT, q), (.DBG_C_HBM_OTHER_BYTES, q)] [.ctx x, .part q] s t)
  ∧ (∀ (s : State) (x w : Nat), NoSem s x → SeqReady s x 0xA40 w →
    let q := s.get .SEQ_CTX_BIND_PART x
    let a := seqEa s x w
    let b := readBytes (s.ctx x).dmem a 24
    (a % 8 ≠ 0 → ∃ t, exec (.egress x .clean) s = .next t ∧ Excepts s t x 2 0 w)
    ∧ (a % 8 = 0 → s.winSize x < a + 24 → ∃ t, exec (.egress x .clean) s = .next t ∧ Excepts s t x 3 0 w)
    ∧ (a % 8 = 0 → a + 24 ≤ s.winSize x → (fieldLE b 17 7 ≠ 0 ∨ fieldLE b 8 4 = 0 ∨ 3 < fieldLE b 16 1
        ∨ fieldLE b 0 8 < s.get .PRT_HBM_BASE_BASE q * 2 ^ 21
        ∨ (s.get .PRT_HBM_BASE_BASE q + s.get .PRT_HBM_SIZE_SIZE q) * 2 ^ 21 < fieldLE b 0 8 + fieldLE b 8 4) →
      ∃ t, exec (.egress x .clean) s = .next t ∧ Excepts s t x 14 0 w))
  ∧ (∀ (s : State) (x : Nat) (f : Frame), (s.ctx x).egr = some f → s.ctxRuns x = true →
    (s.get .SEQ_CTX_STATE_STATE x = 7 ∨ (s.get .SEQ_CTX_STATE_STATE x = 11 ∧ (s.ctx x).haltSt = 7)) →
    let q := s.get .SEQ_CTX_BIND_PART x
    let k := (s.ctx x).egrRing
    let r := 12 + k
    let fn := (s.part q).ringFn
    let fits := decide ((s.part q).staged + f.bytes.length ≤ (s.image q).img.egSize)
    let g := settleGap (s.ring fn r).gap
      ((s.ring fn r).frames ++ [{ f with fseq := (s.ring fn r).fseq, part := q, dropped := !fits, due := none }])
    ∃ t, exec (.egressStaged x) s = .next t
      ∧ (s.get .SEQ_CTX_STATE_STATE x = 7 → t.get .SEQ_CTX_STATE_STATE x = 2)
      ∧ (s.get .SEQ_CTX_STATE_STATE x = 11 → t.get .SEQ_CTX_STATE_STATE x = 11 ∧ (t.ctx x).haltSt = 2)
      ∧ Retired s t x (nextPc s x) ∧ (t.ctx x).egr = none ∧ (∀ j, t.g x j = s.g x j)
      ∧ t.part q =
          { s.part q with
            outRings := ins (s.part q).outRings k (look [] (s.part q).outRings k ++ toLE 4 (s.ring fn r).fseq ++ toLE 4 f.bytes.length
              ++ toLE 4 f.src ++ f.bytes),
            outSum := ((s.part q).outSum + ofBE (sha256 (toLE 4 f.src ++ f.bytes))) % 2 ^ 256, nFrames := (s.part q).nFrames + 1,
            staged := (s.part q).staged + (if fits then f.bytes.length else 0), nDrops := (s.part q).nDrops + b2n (!fits && !f.watch) }
      ∧ (t.ring fn r).fseq = ((s.ring fn r).fseq + 1) % 2 ^ 32 ∧ (t.ring fn r).gap = g.1
      ∧ (t.ring fn r).frames.map (fun y => { y with due := none }) = g.2.map (fun y => { y with due := none })
      ∧ t.get .RING_DROP_COUNT (16 * fn + r) =
          (if fits then s.get .RING_DROP_COUNT (16 * fn + r) else satAdd 32 (s.get .RING_DROP_COUNT (16 * fn + r)) 1)
      ∧ OnlyAt [] [(.SEQ_CTX_STATE_PC, x), (.SEQ_CTX_RETIRED_COUNT, x), (.SEQ_CTX_STATE_STATE, x), (.RING_DROP_COUNT, 16 * fn + r)]
          [.ctx x, .part q, .hre] s t)
  ∧ (∀ (s : State) (x : Nat), ((s.ctx x).egr = none ∨ s.ctxRuns x = false
      ∨ (s.get .SEQ_CTX_STATE_STATE x ≠ 7 ∧ s.get .SEQ_CTX_STATE_STATE x ≠ 11)) → exec (.egressStaged x) s = .next s)
  ∧ (∀ (s : State) (x w : Nat), SeqReady s x 0xA80 w →
    let q := s.get .SEQ_CTX_BIND_PART x
    let v := (s.g x (bits w 11 5)).toNat
    ∃ t, exec (.cmark x .clean) s = .next t ∧ t.get .SEQ_CTX_ID_LAYER x = v % 2 ^ 16
      ∧ t.get .SEQ_CTX_ID_OPER x = v / 2 ^ 16 % 2 ^ 16 ∧ Retired s t x (nextPc s x) ∧ CtxKeeps s t x ∧ (∀ j, t.g x j = s.g x j)
      ∧ Traced s t q (traceBytes 2 q (5 * 4096 + x) s.tally (s.ctx x).lastIss (v % 2 ^ 16) (v / 2 ^ 16 % 2 ^ 16)
          ((s.g x (bits w 16 5)).toNat % 2 ^ 32))
      ∧ (s.get .DBG_TRC_SIZE_TSIZE q = 0 →
          OnlyAt [] [(.SEQ_CTX_STATE_PC, x), (.SEQ_CTX_RETIRED_COUNT, x), (.SEQ_CTX_ID_LAYER, x), (.SEQ_CTX_ID_OPER, x)] [.ctx x] s t)
      ∧ OnlyAt traceFlds [(.SEQ_CTX_STATE_PC, x), (.SEQ_CTX_RETIRED_COUNT, x), (.SEQ_CTX_ID_LAYER, x), (.SEQ_CTX_ID_OPER, x)]
          (evComps ++ ([.ctx x, .part q, .mem] : List Comp)) s t)
  ∧ (∀ (s : State) (who v x a : Nat), privileged who = true → s.domOn 75 = true → s.get .SEQ_MEM_SEL_CTX = x → 8 * s.get .SEQ_MEM_ADDR_ADDR = a →
    (s.is .SEQ_CTX_BIND_BOUND x && s.busy (s.get .SEQ_CTX_BIND_PART x)) = false → a + 8 ≤ s.winSize x →
    (s.get .SEQ_MEM_SEL_SPACE = 0 →
      ∃ t, exec (.seqMemDataWrite who v) s = .next t ∧ Stored (s.ctx x).imem (t.ctx x).imem a (toLE 8 v)
        ∧ ({ t.ctx x with imem := [] } : Ctx) = { s.ctx x with imem := [] } ∧ OnlyChanges [] [.ctx x] s t)
    ∧ (s.get .SEQ_MEM_SEL_SPACE = 1 →
      ∃ t, exec (.seqMemDataWrite who v) s = .next t ∧ Stored (s.ctx x).dmem (t.ctx x).dmem a (toLE 8 v)
        ∧ ({ t.ctx x with dmem := [] } : Ctx) = { s.ctx x with dmem := [] } ∧ OnlyChanges [] [.ctx x] s t))
  ∧ (∀ (s : State) (who v x a : Nat), privileged who = true → s.domOn 75 = true → s.get .SEQ_MEM_SEL_CTX = x → 8 * s.get .SEQ_MEM_ADDR_ADDR = a →
    (s.is .SEQ_CTX_BIND_BOUND x && s.busy (s.get .SEQ_CTX_BIND_PART x)) = false →
    (s.get .SEQ_MEM_SEL_SPACE = 2 → s.is .SEQ_CTX_BIND_BOUND x = true → a + 8 ≤ s.shrSize (s.get .SEQ_CTX_BIND_PART x) →
      ∃ t, exec (.seqMemDataWrite who v) s = .next t ∧ t.hbm = s.hbm
        ∧ Stored s.shr t.shr (64 * s.get .SEQ_SHR_BASE (s.get .SEQ_CTX_BIND_PART x) + a) (toLE 8 v) ∧ OnlyChanges [] [.mem] s t)
    ∧ ((3 ≤ s.get .SEQ_MEM_SEL_SPACE ∨ (s.get .SEQ_MEM_SEL_SPACE ≤ 1 ∧ s.winSize x < a + 8)
        ∨ (s.get .SEQ_MEM_SEL_SPACE = 2 ∧ (s.is .SEQ_CTX_BIND_BOUND x = false ∨ s.shrSize (s.get .SEQ_CTX_BIND_PART x) < a + 8))) →
      exec (.seqMemDataWrite who v) s = .next s))
  ∧ (∀ (s : State) (who v : Nat), privileged who = true → s.domOn 75 = true →
    (s.is .SEQ_CTX_BIND_BOUND (s.get .SEQ_MEM_SEL_CTX) && s.busy (s.get .SEQ_CTX_BIND_PART (s.get .SEQ_MEM_SEL_CTX))) = true →
    ∃ t, exec (.seqMemDataWrite who v) s = .next t ∧ t.get .SEQ_MEM_SEL_REFUSED = 1 ∧ OnlyChanges [.SEQ_MEM_SEL_REFUSED] [] s t)
  ∧ (∀ (s : State) (who v : Nat), (privileged who = false ∨ s.domOn 75 = false) → exec (.seqMemDataWrite who v) s = .next s)

/-- Resets of functions and of PCI Express, the link and VF enables (09_host_rings.md, 17_reset_boot_package.md). -/
def Obligations.FunctionResets : Prop :=
  (∀ (s : State) (f : Nat), f < 128 → s.busy f = false →
    ∃ t, exec (.flrVf f) s = .next t ∧ FuncReset s t (f + 1) ∧ t.getBit .PCX_FLR_BUSY (f % 32) (f / 32) = true
      ∧ (∀ j < 32, j ≠ f % 32 → t.getBit .PCX_FLR_BUSY j (f / 32) = s.getBit .PCX_FLR_BUSY j (f / 32))
      ∧ OnlyAt [] ((.PCX_FLR_BUSY, f / 32) :: (List.range 16).flatMap (fun r => ringSet.map (fun g => (g, 16 * (f + 1) + r)))) [.hre] s t)
  ∧ (∀ (s : State) (f : Nat), f < 128 → s.busy f = true →
    ∃ t, exec (.flrVf f) s = .next t ∧ t.part f = resetMarks s f false ∧ ResetStops s t [f]
      ∧ t.func (f + 1) = { s.func (f + 1) with cq := [], backlog := [], lost := 0, flr := true }
      ∧ t.getBit .PCX_FLR_BUSY (f % 32) (f / 32) = true
      ∧ (∀ j < 32, j ≠ f % 32 → t.getBit .PCX_FLR_BUSY j (f / 32) = s.getBit .PCX_FLR_BUSY j (f / 32))
      ∧ (s.runSt f ≠ 3 → t.hre.rings = s.hre.rings ∧ (∀ k, k ≠ f + 1 → look? t.hre.funcs k = look? s.hre.funcs k)
          ∧ OnlyAt [] [(.PCX_FLR_BUSY, f / 32)] [.hre, .part f] s t)
      ∧ OnlyAt evFlds [(.PCX_FLR_BUSY, f / 32)] (evComps ++ ([.part f, .ctl] : List Comp)) s t)
  ∧ (∀ (s : State) (f : Nat), f < 128 → (s.func (f + 1)).flr = false →
    ∃ t, exec (.functionLevelResetDone f) s = .next t ∧ t.getBit .PCX_FLR_BUSY (f % 32) (f / 32) = false
      ∧ (∀ j < 32, j ≠ f % 32 → t.getBit .PCX_FLR_BUSY j (f / 32) = s.getBit .PCX_FLR_BUSY j (f / 32))
      ∧ OnlyAt [] [(.PCX_FLR_BUSY, f / 32)] [] s t)
  ∧ (∀ (s : State) (f : Nat), f < 128 → (s.func (f + 1)).flr = true → s.busy f = false →
    ∃ t, exec (.functionLevelResetDone f) s = .next t ∧ FuncReset s t (f + 1) ∧ t.getBit .PCX_FLR_BUSY (f % 32) (f / 32) = false
      ∧ (∀ j < 32, j ≠ f % 32 → t.getBit .PCX_FLR_BUSY j (f / 32) = s.getBit .PCX_FLR_BUSY j (f / 32))
      ∧ OnlyAt [] ((.PCX_FLR_BUSY, f / 32) :: (List.range 16).flatMap (fun r => ringSet.map (fun g => (g, 16 * (f + 1) + r)))) [.hre] s t)
  ∧ (∀ (s : State) (f : Nat), (128 ≤ f ∨ ((s.func (f + 1)).flr = true ∧ s.busy f = true)) → exec (.functionLevelResetDone f) s = .next s)
  ∧ (∀ (s : State) (f : Nat) (on : Bool), f < 128 →
    ∃ t, exec (.vfEnable f on) s = .next t ∧ t.func (f + 1) = { s.func (f + 1) with vfEn := on }
      ∧ (∀ k, k ≠ f + 1 → look? t.hre.funcs k = look? s.hre.funcs k) ∧ { t.hre with funcs := s.hre.funcs } = s.hre
      ∧ t.getBit .PCX_VF_ACT_ACTIVE (f % 32) (f / 32) = on
      ∧ (∀ j < 32, j ≠ f % 32 → t.getBit .PCX_VF_ACT_ACTIVE j (f / 32) = s.getBit .PCX_VF_ACT_ACTIVE j (f / 32))
      ∧ OnlyAt [] [(.PCX_VF_ACT_ACTIVE, f / 32)] [.hre] s t)
  ∧ (∀ (s : State) (f : Nat) (on : Bool), 128 ≤ f → exec (.vfEnable f on) s = .next s ∧ exec (.flrVf f) s = .next s)
  ∧ (∀ (s : State), ∃ t, exec .flrPf s = .next t
      ∧ (∀ g ∈ ringSet, ∀ fn < 129, ∀ r < 16, t.get g (16 * fn + r) = g.info.reset)
      ∧ (∀ fn < 129, ∀ r < 16, t.ring fn r = { fseq := (s.ring fn r).fseq, frames := (s.ring fn r).frames, gap := (s.ring fn r).gap,
                                               part := (s.ring fn r).part })
      ∧ t.func 0 = { s.func 0 with cq := [], backlog := [], lost := 0, flr := false }
      ∧ (∀ f < 128, t.func (f + 1) = { s.func (f + 1) with cq := [], backlog := [], lost := 0, flr := false, vfEn := false }
          ∧ t.getBit .PCX_VF_ACT_ACTIVE (f % 32) (f / 32) = false ∧ t.getBit .PCX_FLR_BUSY (f % 32) (f / 32) = true)
      ∧ (∀ fn < 129, look? t.hre.loads fn = none)
      ∧ (∀ g d, look? s.hre.dma g = some d → look? t.hre.dma g =
          some (if (List.range 129).any (fun fn => s.readFor fn d.purp) then { d with purp := .void } else d))
      ∧ ResetStops s t (List.range 128) ∧ (∀ q < 128, t.part q = resetMarks s q false) ∧ (∀ q, t.runSt q = s.runSt q)
      ∧ OnlyChanges (ringSet ++ evFlds ++ ([.PCX_VF_ACT_ACTIVE, .PCX_FLR_BUSY] : List Fld)) (evComps ++ ([.parts, .ctl] : List Comp)) s t)
  ∧ (∀ (s : State), ∃ t, exec .pcieReset s = .next t ∧ t.hre = {} ∧ t.boot = { s.boot with perst := true }
      ∧ (∀ f i, f.info.blk = .HRE ∨ f.info.blk = .PCX → t.get f i = f.info.reset)
      ∧ ResetStops s t (List.range 128) ∧ (∀ q < 128, t.part q = { resetMarks s q true with staged := 0 }) ∧ (∀ q, t.runSt q = s.runSt q)
      ∧ OnlyChanges (evFlds ++ Fld.all.filter (fun f => f.info.blk == .HRE || f.info.blk == .PCX))
          (evComps ++ ([.parts, .ctl, .boot] : List Comp)) s t)
  ∧ (∀ (s : State), s.boot.powered = true →
    ∃ t, exec .perstRelease s = .next t ∧ t.boot = { s.boot with perst := false } ∧ OnlyChanges [] [.boot] s t)
  ∧ (∀ (s : State), s.boot.powered = false → exec .perstRelease s = .next s)
  ∧ (∀ (s : State), ∃ t, exec .pcieLinkDown s = .next t ∧ t.get .PCX_LINK_RATE = 0 ∧ OnlyAt [] [(.PCX_LINK_RATE, 0)] [] s t)
  ∧ (∀ (s : State) (rate width : Nat) (flit : Bool),
    ∃ t, exec (.pcieLinkUp rate width flit) s = .next t ∧ t.get .PCX_LINK_RATE = rate % 16 ∧ t.get .PCX_LINK_WIDTH = width % 32
      ∧ t.get .PCX_LINK_FLIT = b2n flit
      ∧ (rate % 16 ≠ 0 → t.out = s.out
            ++ (List.range 129).flatMap (fun fn => ((List.range 16).filter (fun r => (s.ring fn r).owed)).map (fun r =>
                .hostWrite fn (s.dbAddr fn r + 8) (s.shadowBytes fn r)))
            ++ ((List.range 129).filter (fun fn => (s.func fn).msix.pending && !(s.func fn).msix.masked)).map (fun fn =>
                .msix fn (s.func fn).msix.addr (s.func fn).msix.data)
          ∧ ∀ fn < 129, (∀ r < 16, t.ring fn r = { s.ring fn r with owed := false })
              ∧ t.func fn = { s.func fn with
                              msix := { (s.func fn).msix with pending := (s.func fn).msix.pending && (s.func fn).msix.masked } })
      ∧ (rate % 16 = 0 → t.out = s.out ∧ ∀ fn, (∀ r, t.ring fn r = s.ring fn r) ∧ t.func fn = s.func fn)
      ∧ { t.hre with rings := s.hre.rings, funcs := s.hre.funcs } = s.hre
      ∧ OnlyAt [] [(.PCX_LINK_RATE, 0), (.PCX_LINK_WIDTH, 0), (.PCX_LINK_FLIT, 0)] [.hre, .out] s t)

/-- Entry, hops, ejection, gateways and port frames of the control rings (10_control_rings.md). -/
def Obligations.ControlRings : Prop :=
  (∀ (s : State) (reply : Bool) (stop : Nat) (pk : Packet), s.mayEnter stop reply = some pk →
    pk ∈ s.waiting stop reply ∧ (s.bufs stop reply (pkUrgent pk)).length + 2 ≤ (if pkUrgent pk then 2 else 4)
      ∧ (pkUrgent pk = true ∨ s.bufs stop reply true ≠ [] ∨ ∀ p ∈ s.waiting stop reply, pkUrgent p = false))
  ∧ (∀ (s : State) (reply : Bool) (stop : Nat) (pk : Packet), s.mayEnter stop reply = some pk →
    s.inTransit reply stop (pkUrgent pk) = false → (reply = true ∨ QuadStill s stop ((s.waiting stop reply).erase pk)) →
    ∃ t, exec (.ringEntry reply stop) s = .next t ∧ t.ctl.ejq = s.ctl.ejq
      ∧ RingsElse s t [2 * stop + b2n reply, 2 * stop + 1] [bufKey stop reply (pkUrgent pk)]
      ∧ (checkBytes (pkBytes pk) = 0 → t.bufs stop reply (pkUrgent pk) = s.bufs stop reply (pkUrgent pk) ++ [pk]
          ∧ t.waiting stop reply = (s.waiting stop reply).erase pk ∧ (reply = false → t.waiting stop true = s.waiting stop true)
          ∧ OnlyChanges [] [.ctl] s t)
      ∧ (checkBytes (pkBytes pk) ≠ 0 → t.bufs stop reply (pkUrgent pk) = s.bufs stop reply (pkUrgent pk)
          ∧ Dropped s t stop (checkBytes (pkBytes pk)) (plKind pk.payload) pk.src
          ∧ (reply = false → t.waiting stop reply = (s.waiting stop reply).erase pk)
          ∧ t.waiting stop true = (if reply then (s.waiting stop true).erase pk else s.waiting stop true)
              ++ Replies s stop pk (.error (checkBytes (pkBytes pk)))
          ∧ OnlyChanges dropFlds [.ctl] s t))
  ∧ (∀ (s : State) (stop i : Nat) (pk : Packet) (b : List Byte) (r : List (List Byte)), s.mayEnter stop false = some pk →
    s.inTransit false stop (pkUrgent pk) = false → checkBytes (pkBytes pk) = 0 → (s.waiting stop false).erase pk = [] → 8 ≤ stop →
    stop < 16 → QuadHeads s stop → i < 16 → (∀ j < i, (s.ctx (16 * (stop - 8) + j)).queue = []) →
    (s.ctx (16 * (stop - 8) + i)).queue = b :: r →
    ∃ t, exec (.ringEntry false stop) s = .next t
      ∧ t.bufs stop false (pkUrgent pk) = s.bufs stop false (pkUrgent pk) ++ [pk] ∧ t.ctl.ejq = s.ctl.ejq
      ∧ t.waiting stop false = s.issuePackets (16 * (stop - 8) + i) b ∧ (t.ctx (16 * (stop - 8) + i)).queue = r
      ∧ RingsElse s t [2 * stop] [bufKey stop false (pkUrgent pk)]
      ∧ (s.ctxRuns (16 * (stop - 8) + i) = true → s.get .SEQ_CTX_STATE_STATE (16 * (stop - 8) + i) = 8 →
          t.get .SEQ_CTX_STATE_STATE (16 * (stop - 8) + i) = 2)
      ∧ (s.get .SEQ_CTX_STATE_STATE (16 * (stop - 8) + i) ≠ 8 → OnlyChanges [] [.ctl, .ctx (16 * (stop - 8) + i)] s t)
      ∧ OnlyAt [] [(.SEQ_CTX_STATE_STATE, 16 * (stop - 8) + i)] [.ctl, .ctx (16 * (stop - 8) + i)] s t)
  ∧ (∀ (s : State) (reply : Bool) (stop : Nat), s.mayEnter stop reply = none → exec (.ringEntry reply stop) s = .next s)
  ∧ (∀ (s : State) (reply : Bool) (stop : Nat) (pk : Packet), s.mayEnter stop reply = some pk → s.inTransit reply stop (pkUrgent pk) = true →
    exec (.ringEntry reply stop) s = .next s)
  ∧ (∀ (s : State) (reply u : Bool) (stop : Nat) (pk : Packet), s.mayHop reply stop u = some pk →
    pk ∈ s.bufs stop reply u ∧ (s.bufs (nextStop reply stop) reply u).length < (if u then 2 else 4))
  ∧ (∀ (s : State) (reply u : Bool) (stop : Nat) (pk : Packet), s.mayHop reply stop u = some pk →
    (u = true ∨ s.mayHop reply stop true = none) →
    ∃ t, exec (.ringHop reply stop u) s = .next t ∧ t.bufs stop reply u = (s.bufs stop reply u).erase pk
      ∧ t.bufs (nextStop reply stop) reply u = s.bufs (nextStop reply stop) reply u
          ++ [{ pk with circuits := pk.circuits + (if s.target pk = stop then 1 else 0) }]
      ∧ (s.target pk = stop → t.get .CTN_RECIRC_COUNT = satAdd 32 (s.get .CTN_RECIRC_COUNT) 1)
      ∧ (s.target pk ≠ stop → OnlyChanges [] [.ctl] s t)
      ∧ RingsElse s t [] [bufKey stop reply u, bufKey (nextStop reply stop) reply u] ∧ t.ctl.ejq = s.ctl.ejq
      ∧ OnlyAt [] [(.CTN_RECIRC_COUNT, 0)] [.ctl] s t)
  ∧ (∀ (s : State) (reply u : Bool) (stop : Nat), (s.mayHop reply stop u = none ∨ (u = false ∧ (s.mayHop reply stop true).isSome)) →
    exec (.ringHop reply stop u) s = .next s)
  ∧ (∀ (s : State) (reply u : Bool) (stop : Nat) (pk : Packet), (s.bufs stop reply u).find? (fun p => s.target p == stop) = some pk →
    checkBytes (pkBytes pk) ≠ 0 →
    ∃ t, exec (.packetEject reply stop u) s = .next t ∧ t.bufs stop reply u = (s.bufs stop reply u).erase pk ∧ t.ctl.ejq = s.ctl.ejq
      ∧ Dropped s t stop (checkBytes (pkBytes pk)) (plKind pk.payload) pk.src ∧ RingsElse s t [2 * stop + 1] [bufKey stop reply u]
      ∧ t.waiting stop true = s.waiting stop true ++ Replies s stop pk (.error (checkBytes (pkBytes pk))) ∧ OnlyChanges dropFlds [.ctl] s t)
  ∧ (∀ (s : State) (reply u : Bool) (stop : Nat) (pk : Packet), (s.bufs stop reply u).find? (fun p => s.target p == stop) = some pk →
    checkBytes (pkBytes pk) = 0 → (reply = true ∨ (s.ejected stop reply).length < 8) → NoneLeaves s →
    (stop = 20 ∨ stop = 21 → s.leaves pk = true →
      ∃ c n p, s.exitPort pk.dcoord = some p ∧ pk.tunnel = some (c, n + 1) ∧ 8 ≤ (s.port p).txFrames.length) →
    ∃ t, exec (.packetEject reply stop u) s = .next t ∧ t.bufs stop reply u = (s.bufs stop reply u).erase pk
      ∧ t.ejected stop reply = s.ejected stop reply ++ [{ pk with circuits := 0 }]
      ∧ (∀ k, k ≠ 2 * stop + b2n reply → look [] t.ctl.ejq k = look [] s.ctl.ejq k) ∧ RingsElse s t [] [bufKey stop reply u]
      ∧ ((∀ x, pk.dbg ≠ some (true, x)) ∨ s.getBit .DBG_TRC_CTRL_EN 3 pk.part = false → OnlyChanges [] [.ctl] s t)
      ∧ (∀ x, pk.dbg = some (true, x) → s.getBit .DBG_TRC_CTRL_EN 3 pk.part = true →
          Traced s t pk.part (traceBytes 6 pk.part (8 * 4096 + stop) s.tally 0 0 0
            (plKind pk.payload + pk.dst % 256 * 2 ^ 8 + pk.src % 256 * 2 ^ 16 + (if pk.remote then pk.dcoord % 4096 else 0) * 2 ^ 24
              + pkLen pk % 4096 * 2 ^ 36 + pk.rtag % 256 * 2 ^ 48)))
      ∧ OnlyChanges traceFlds (evComps ++ ([.ctl, .part pk.part, .mem] : List Comp)) s t)
  ∧ (∀ (s : State) (reply u : Bool) (stop c n p : Nat) (pk : Packet),
    (s.bufs stop reply u).find? (fun p => s.target p == stop) = some pk → checkBytes (pkBytes pk) = 0 →
    (reply = true ∨ (s.ejected stop reply).length < 8) → NoneLeaves s → (stop = 20 ∨ stop = 21) → s.leaves pk = true →
    (∀ x, pk.dbg ≠ some (true, x)) → s.exitPort pk.dcoord = some p → pk.tunnel = some (c, n + 1) → (s.port p).txFrames.length < 8 →
    ∃ t, exec (.packetEject reply stop u) s = .next t ∧ t.bufs stop reply u = (s.bufs stop reply u).erase pk
      ∧ (∀ k, look [] t.ctl.ejq k = look [] s.ctl.ejq k) ∧ RingsElse s t [] [bufKey stop reply u]
      ∧ (let bs := pkBytes { pk with circuits := 0, tunnel := some (c, n) }
         let fr := fragsOf (s.port p).txNext bs 0 (bs.length / 32)
         t.port p = { s.port p with
                      txFrames := (s.port p).txFrames ++ [((s.port p).txNext, fr)], txNext := ((s.port p).txNext + 1) % 16,
                      msgs := (s.port p).msgs ++ fr.map MaintMsg.frag })
      ∧ OnlyChanges [] [.ctl, .port p] s t)
  ∧ (∀ (s : State) (reply u : Bool) (stop : Nat) (pk : Packet),
    (s.bufs stop reply u).find? (fun p => s.target p == stop) = some pk → checkBytes (pkBytes pk) = 0 →
    (reply = true ∨ (s.ejected stop reply).length < 8) → NoneLeaves s → (stop = 20 ∨ stop = 21) → s.leaves pk = true →
    (∀ x, pk.dbg ≠ some (true, x)) → (s.exitPort pk.dcoord = none ∨ pk.tunnel = none ∨ ∃ c, pk.tunnel = some (c, 0)) →
    ∃ t, exec (.packetEject reply stop u) s = .next t ∧ t.bufs stop reply u = (s.bufs stop reply u).erase pk
      ∧ (∀ k, look [] t.ctl.ejq k = look [] s.ctl.ejq k) ∧ RingsElse s t [2 * stop + 1] [bufKey stop reply u]
      ∧ Dropped s t stop 4 (plKind pk.payload) pk.src
      ∧ t.waiting stop true = s.waiting stop true ++ Replies s stop { pk with circuits := 0 } (.error 4) ∧ OnlyChanges dropFlds [.ctl] s t)
  ∧ (∀ (s : State) (u : Bool) (stop : Nat) (pk : Packet), (s.bufs stop false u).find? (fun p => s.target p == stop) = some pk →
    checkBytes (pkBytes pk) = 0 → 8 ≤ (s.ejected stop false).length → (s.bufs (nextStop false stop) false u).length < bufCap u →
    pk.circuits < 256 → (u = true ∨ s.mayHop false stop true = none) →
    ∃ t, exec (.packetEject false stop u) s = .next t ∧ t.get .CTN_RECIRC_COUNT = satAdd 32 (s.get .CTN_RECIRC_COUNT) 1
      ∧ t.bufs stop false u = (s.bufs stop false u).erase pk
      ∧ t.bufs (nextStop false stop) false u = s.bufs (nextStop false stop) false u ++ [{ pk with circuits := pk.circuits + 1 }]
      ∧ RingsElse s t [] [bufKey stop false u, bufKey (nextStop false stop) false u] ∧ t.ctl.ejq = s.ctl.ejq
      ∧ OnlyChanges [.CTN_RECIRC_COUNT] [.ctl] s t)
  ∧ (∀ (s : State) (u : Bool) (stop : Nat) (pk : Packet), (s.bufs stop false u).find? (fun p => s.target p == stop) = some pk →
    checkBytes (pkBytes pk) = 0 → 8 ≤ (s.ejected stop false).length →
    (bufCap u ≤ (s.bufs (nextStop false stop) false u).length ∨ 256 ≤ pk.circuits ∨ (u = false ∧ (s.mayHop false stop true).isSome)) →
    exec (.packetEject false stop u) s = .next s)
  ∧ (∀ (s : State) (reply u : Bool) (stop : Nat), (∀ p ∈ s.bufs stop reply u, s.target p ≠ stop) →
    exec (.packetEject reply stop u) s = .next s)
  ∧ (∀ (s : State) (stop : Nat) (u : Bool) (pk : Packet),
    (s.bufs stop false u).find? (fun p => s.target p == stop && decide (256 ≤ p.circuits)) = some pk →
    (u = true → ∀ p ∈ s.bufs stop false false, ¬ (s.target p = stop ∧ 256 ≤ p.circuits)) →
    ∃ t, exec (.recirculationLimit stop) s = .next t ∧ t.bufs stop false u = (s.bufs stop false u).erase pk
      ∧ Dropped s t stop 6 (plKind pk.payload) pk.src ∧ RingsElse s t [2 * stop + 1] [bufKey stop false u] ∧ t.ctl.ejq = s.ctl.ejq
      ∧ t.waiting stop true = s.waiting stop true ++ Replies s stop pk (.error 6) ∧ OnlyChanges dropFlds [.ctl] s t)
  ∧ (∀ (s : State) (stop : Nat), (∀ u, ∀ p ∈ s.bufs stop false u, ¬ (s.target p = stop ∧ 256 ≤ p.circuits)) →
    exec (.recirculationLimit stop) s = .next s)
  ∧ (∀ (s : State) (stop : Nat) (crossed : Bool) (bs : List Byte), checkBytes bs = 0 →
    ∃ t, exec (.gatewayIngress stop crossed bs) s = .next t
      ∧ (let pk := readPacket s.coord bs
         Sent stop (pkReply pk) [if crossed then pk else { pk with tunnel := if s.leaves pk then pk.tunnel else none }] s t)
      ∧ t.ctl.ejq = s.ctl.ejq ∧ OnlyChanges [] [.ctl] s t)
  ∧ (∀ (s : State) (stop : Nat) (crossed : Bool) (bs : List Byte), checkBytes bs ≠ 0 →
    ∃ t, exec (.gatewayIngress stop crossed bs) s = .next t ∧ DropsBytes s t stop (checkBytes bs) crossed bs
      ∧ OnlyChanges dropFlds [.ctl] s t)
  ∧ (∀ (s : State) (p : Nat) (bs : List Byte), NoneLeaves s → checkBytes bs = 0 →
    ∃ t, exec (.portControlFrame p (fragsOf ((s.port p).rxFrames % 16) bs 0 (bs.length / 32))) s = .next t
      ∧ ((s.bufs (gatewayOf p) (pkReply (readPacket s.coord bs)) false).length < 4 →
          t.port p = { s.port p with rxCount := 0, rxFrags := [], rxFrames := ((s.port p).rxFrames + 1) % 16, rxAny := true, ackDue := true }
            ∧ Sent (gatewayOf p) (pkReply (readPacket s.coord bs)) [readPacket s.coord bs] s t)
      ∧ (4 ≤ (s.bufs (gatewayOf p) (pkReply (readPacket s.coord bs)) false).length →
          t.port p = { s.port p with rxCount := 0, rxFrags := [] } ∧ t.ctl = s.ctl)
      ∧ t.ctl.ejq = s.ctl.ejq ∧ OnlyChanges [] [.port p, .ctl] s t)
  ∧ (∀ (s : State) (p : Nat) (f : Fragment), NoneLeaves s → f.ackOnly = false → f.ackv = false → f.fseq = (s.port p).rxFrames % 16 →
    f.fidx = 0 → f.last = true → f.data.length = 32 → checkBytes f.data ≠ 0 → (s.bufs (gatewayOf p) false false).length < 4 →
    ∃ t, exec (.portControlFrame p [f]) s = .next t
      ∧ t.port p = { s.port p with rxCount := 0, rxFrags := [], rxFrames := ((s.port p).rxFrames + 1) % 16, rxAny := true, ackDue := true }
      ∧ DropsBytes s t (gatewayOf p) (checkBytes f.data) true f.data ∧ OnlyChanges dropFlds [.port p, .ctl] s t)
  ∧ (∀ (s : State) (p : Nat) (f : Fragment), NoneLeaves s → f.ackOnly = false → f.ackv = false →
    ∃ t, exec (.portControlFrame p [f]) s = .next t
      ∧ (f.fseq ≠ (s.port p).rxFrames % 16 → t.port p =
          { s.port p with
            rxCount := 0, rxFrags := [], ackDue := (s.port p).ackDue || decide (((s.port p).rxFrames + 16 - f.fseq) % 16 ≤ 8) })
      ∧ (f.fseq = (s.port p).rxFrames % 16 → f.fidx ≠ 0 → f.fidx ≠ (s.port p).rxCount →
          t.port p = { s.port p with rxCount := 0, rxFrags := [] })
      ∧ (f.fseq = (s.port p).rxFrames % 16 → f.last = false → (f.fidx = 0 ∨ f.fidx = (s.port p).rxCount) → f.data.length = 32 →
          t.port p = { s.port p with rxCount := f.fidx + 1, rxFrags := (if f.fidx = 0 then [] else (s.port p).rxFrags) ++ f.data })
      ∧ ((f.last = false ∨ f.fseq ≠ (s.port p).rxFrames % 16 ∨ (f.fidx ≠ 0 ∧ f.fidx ≠ (s.port p).rxCount)) →
          OnlyChanges [] [.port p] s t))
  ∧ (∀ (s : State) (p : Nat) (f : Fragment), NoneLeaves s → f.ackOnly = true → f.ackv = true →
    ∃ t, exec (.portControlFrame p [f]) s = .next t
      ∧ (∀ a b fr, (s.port p).txFrames = a ++ (f.ackseq, fr) :: b → (∀ e ∈ a, e.1 ≠ f.ackseq) →
          t.port p = { s.port p with txFrames := b, txSince := 0 })
      ∧ ((∀ e ∈ (s.port p).txFrames, e.1 ≠ f.ackseq) → t.port p = s.port p) ∧ OnlyChanges [] [.port p] s t)
  ∧ (∀ (s : State) (p : Nat), 64 ≤ (s.port p).txSince → (s.port p).txFrames ≠ [] →
    ∃ t, exec (.portControlResend p) s = .next t
      ∧ t.port p = { s.port p with
                     txSince := 0,
                     msgs := (s.port p).msgs.filter (fun m => match m with
                         | .frag _ => false
                         | _ => true) ++ (s.port p).txFrames.flatMap (fun f => f.2.map MaintMsg.frag) }
      ∧ t.get .CTN_PORT_RTX_COUNT = satAdd 32 (s.get .CTN_PORT_RTX_COUNT) (s.port p).txFrames.length
      ∧ OnlyChanges [.CTN_PORT_RTX_COUNT] [.port p] s t)
  ∧ (∀ (s : State) (p : Nat), ((s.port p).txSince < 64 ∨ (s.port p).txFrames = []) → exec (.portControlResend p) s = .next s)

/-- READ, WRITE and their replies (10_control_rings.md, 07_inside_the_hood.md, 11_sequencer_cores.md, 16_watching_a_run.md). -/
def Obligations.Requests : Prop :=
  (∀ (s : State) (stop a n : Nat) (pk : Packet), pk.payload = .read a n → s.boardCheck stop pk a n false = .ok → a < hbmEnd →
    s.boot.tripped = false →
    (∃ t, exec (.read stop pk .clean) s = .next t ∧ Sent stop true (Replies s stop pk (.data (readBytes s.hbm.bytes a n))) s t
      ∧ Took stop false (fun p => p == pk) s t ∧ CountsOther s t a n [] [.ctl, .caps, .free])
    ∧ (∃ t, exec (.read stop pk .single) s = .next t ∧ Sent stop true (Replies s stop pk (.data (readBytes s.hbm.bytes a n))) s t
      ∧ Took stop false (fun p => p == pk) s t
      ∧ t.get .MEM_S_CE_COUNT (stackOf (s.eccWord a n)) = satAdd 32 (s.get .MEM_S_CE_COUNT (stackOf (s.eccWord a n))) 1
      ∧ (∀ q, s.hbmOwner a n = some q → t.get .CHK_CE_CNT_COUNT q = satAdd 64 (s.get .CHK_CE_CNT_COUNT q) 1)
      ∧ Noted { code := 0x5004, part := s.hbmOwner a n, skind := 10, sindex := stackOf (s.eccWord a n) } s t
      ∧ CountsOther s t a n (([.MEM_S_CE_COUNT, .CHK_CE_CNT_COUNT] : List Fld) ++ evFlds) (evComps ++ ([.ctl, .caps, .free] : List Comp)))
    ∧ (∃ t st, exec (.read stop pk .double) s = .next t ∧ 1 ≤ st ∧ st ≤ 255 ∧ Sent stop true (Replies s stop pk (.error st)) s t
      ∧ Took stop false (fun p => p == pk) s t
      ∧ t.get .MEM_S_UE_COUNT (stackOf (s.eccWord a n)) = satAdd 32 (s.get .MEM_S_UE_COUNT (stackOf (s.eccWord a n))) 1
      ∧ t.get .MEM_S_ADDR_ADDR (stackOf (s.eccWord a n)) = stackLocal (s.eccWord a n) % 2 ^ 36
      ∧ Raised { code := 0x5005, part := s.hbmOwner a n, skind := 10, sindex := stackOf (s.eccWord a n),
                 detail := stackLocal (s.eccWord a n) } s t
      ∧ CountsOther s t a n (([.MEM_S_UE_COUNT, .MEM_S_ADDR_ADDR] : List Fld) ++ evFlds) (evComps ++ ([.ctl, .caps, .free] : List Comp)))
    ∧ (∀ u, achk u = achk (s.eccWord a n / 2048) →
      ∃ t, exec (.read stop pk (.unit u)) s = .next t ∧ Took stop false (fun p => p == pk) s t
        ∧ Sent stop true (Replies s stop pk (.data (readBytes s.hbm.bytes (unitAddr (stackOf a) u + a % 256) n))) s t)
    ∧ (∀ e, ∃ t pl, exec (.read stop pk e) s = .next t ∧ Took stop false (fun p => p == pk) s t ∧ Sent stop true (Replies s stop pk pl) s t
        ∧ ((∃ d, pl = .data d ∧ d.length = n) ∨ ∃ st, pl = .error st ∧ 1 ≤ st ∧ st ≤ 255)))
  ∧ (∀ (s : State) (stop a n : Nat) (pk : Packet), pk.payload = .read a n → s.boardCheck stop pk a n false = .ok → hbmEnd ≤ a → a < regBase →
    let w := s.winOfLog ((a - panelBase) / 0x80000)
    let bs := (List.range n).map (fun j => (s.panel w).heldByte w ((a - panelBase) % 0x80000 + j))
    (∃ t, exec (.read stop pk .clean) s = .next t ∧ Sent stop true (Replies s stop pk (.data bs)) s t
      ∧ Took stop false (fun p => p == pk) s t ∧ OnlyChanges [] [.ctl, .free] s t)
    ∧ (∃ t, exec (.read stop pk .single) s = .next t ∧ Sent stop true (Replies s stop pk (.data bs)) s t
      ∧ Took stop false (fun p => p == pk) s t
      ∧ (∀ q, (s.panel w).part = some q → t.get .CHK_CE_CNT_COUNT q = satAdd 64 (s.get .CHK_CE_CNT_COUNT q) 1
          ∧ Noted { code := 0x200A, part := some q, skind := 0, sindex := idOf w } s t
          ∧ OnlyAt evFlds [(.CHK_CE_CNT_COUNT, q)] (evComps ++ ([.ctl, .free] : List Comp)) s t)
      ∧ ((s.panel w).part = none → OnlyChanges [] [.ctl, .free] s t))
    ∧ (∃ t st, exec (.read stop pk .double) s = .next t ∧ 1 ≤ st ∧ st ≤ 255 ∧ t.get .PNL_HOOD_FENCED w = 1
      ∧ Took stop false (fun p => p == pk) s t
      ∧ (∀ q, (s.panel w).part = some q →
          t.get .PNL_SL_ERRID_LAYER w = 0xFFFF ∧ t.get .PNL_SL_ERRID_OPER w = 0xFFFF
          ∧ Raised { code := 0x2007, part := some q, skind := 0, sindex := idOf w,
                     detail := FaultMsg.detail (pnlMsg w q 0x2007 (s.curStep q) 0xFFFF 0xFFFF) } s t
          ∧ (∀ k, look [] t.ctl.wait k = look [] s.ctl.wait k
              ++ (if k = 2 * (idOf w / 256 % 8) then
                    [localPk (idOf w / 256 % 8) 18 q (.fault (pnlMsg w q 0x2007 (s.curStep q) 0xFFFF 0xFFFF))] else [])
              ++ (if k = 2 * stop + 1 then Replies s stop pk (.error st) else []))
          ∧ OnlyAt evFlds [(.PNL_HOOD_FENCED, w), (.PNL_SL_ERRID_LAYER, w), (.PNL_SL_ERRID_OPER, w)] (evComps ++ ([.ctl, .free] : List Comp)) s t)
      ∧ ((s.panel w).part = none → Sent stop true (Replies s stop pk (.error st)) s t
          ∧ OnlyAt [] [(.PNL_HOOD_FENCED, w)] [.ctl, .free] s t))
    ∧ (∀ e, ∃ t pl, exec (.read stop pk e) s = .next t ∧ Took stop false (fun p => p == pk) s t
        ∧ look [] t.ctl.wait (2 * stop + 1) = look [] s.ctl.wait (2 * stop + 1) ++ Replies s stop pk pl
        ∧ ((∃ d, pl = .data d ∧ d.length = n) ∨ ∃ st, pl = .error st ∧ 1 ≤ st ∧ st ≤ 255)))
  ∧ (∀ (s : State) (stop a n : Nat) (pk : Packet) (e : Ecc), pk.payload = .read a n → s.boardCheck stop pk a n false = .ok → regBase ≤ a →
    hbmEnd ≤ a →
    ∃ t u v, exec (.read stop pk e) s = .next t ∧ OnlyTook stop false (fun p => p == pk) s u
      ∧ (s.readsQuietly pk = true → v = u)
      ∧ (s.readsQuietly pk = false → v = (wordsFrom (a - regBase) n).foldl (fun u o => u.readEffect (viewOf pk) o 0) u)
      ∧ Sent stop true (Replies v stop pk (.data ((wordsFrom (a - regBase) n).flatMap (fun o => toLE 4 (u.word (viewOf pk) o))))) v t
      ∧ t.ctl.ejq = v.ctl.ejq ∧ OnlyChanges [] [.ctl] v t)
  ∧ (∀ (s : State) (stop a n st k i : Nat) (pk : Packet) (e : Ecc), pk.payload = .read a n → s.boardCheck stop pk a n false = .memErr st k i →
    (hbmEnd ≤ a ∨ s.boot.tripped = false) →
    ∃ t, exec (.read stop pk e) s = .next t ∧ Sent stop true (Replies s stop pk (.error st)) s t ∧ Took stop false (fun p => p == pk) s t
      ∧ Noted { code := 0x5006, part := if pk.priv then none else some pk.part, skind := k, sindex := i } s t
      ∧ OnlyChanges evFlds (evComps ++ ([.ctl, .free] : List Comp)) s t)
  ∧ (∀ (s : State) (stop a : Nat) (bs : List Byte) (st k i : Nat) (pk : Packet), pk.payload = .write a bs →
    s.boardCheck stop pk a bs.length true = .memErr st k i → (hbmEnd ≤ a ∨ s.boot.tripped = false) →
    ∃ t, exec (.write stop pk) s = .next t ∧ Sent stop true (Replies s stop pk (.error st)) s t ∧ Took stop false (fun p => p == pk) s t
      ∧ Noted { code := 0x5006, part := if pk.priv then none else some pk.part, skind := k, sindex := i } s t
      ∧ OnlyChanges evFlds (evComps ++ ([.ctl, .free] : List Comp)) s t)
  ∧ (∀ (s : State) (stop a n : Nat) (pk : Packet) (e : Ecc), pk.payload = .read a n → s.boardCheck stop pk a n false = .denied →
    (hbmEnd ≤ a ∨ s.boot.tripped = false) →
    ∃ t, exec (.read stop pk e) s = .next t ∧ Sent stop true (Replies s stop pk (.error 5)) s t ∧ Dropped s t stop 5 3 pk.src
      ∧ Took stop false (fun p => p == pk) s t ∧ OnlyChanges dropFlds [.ctl, .free] s t)
  ∧ (∀ (s : State) (stop a : Nat) (pk : Packet) (bs : List Byte), pk.payload = .write a bs → s.boardCheck stop pk a bs.length true = .denied →
    (hbmEnd ≤ a ∨ s.boot.tripped = false) →
    ∃ t, exec (.write stop pk) s = .next t ∧ Sent stop true (Replies s stop pk (.error 5)) s t ∧ Dropped s t stop 5 4 pk.src
      ∧ Took stop false (fun p => p == pk) s t ∧ OnlyChanges dropFlds [.ctl, .free] s t)
  ∧ (∀ (s : State) (stop a n : Nat) (w : Bool) (pk : Packet),
    (ownerStop a ≠ stop → s.boardCheck stop pk a n w = .memErr 7 8 stop)
    ∧ (ownerStop a = stop → a < hbmEnd → pk.priv = false →
        ¬ ((s.hbmRange pk.part).1 ≤ a ∧ a + n ≤ (s.hbmRange pk.part).1 + (s.hbmRange pk.part).2) → s.boardCheck stop pk a n w = .denied)
    ∧ (ownerStop a = stop → a < hbmEnd → pk.priv = true → hbmEnd < a + n → s.boardCheck stop pk a n w = .memErr 7 10 (stackOf a))
    ∧ (ownerStop a = stop → panelBase ≤ a → a < panelBase + 2 ^ 29 → pk.priv = false →
        s.holdsGran pk.part (granOf ((a - panelBase) / 0x80000)) = false → s.boardCheck stop pk a n w = .denied)
    ∧ (ownerStop a = stop → panelBase ≤ a → a < panelBase + 2 ^ 29 → pk.priv = true → 0x80000 < (a - panelBase) % 0x80000 + n →
        s.boardCheck stop pk a n w = .memErr 7 0 (idOf (s.winOfLog ((a - panelBase) / 0x80000)))))
  ∧ (∀ (s : State) (stop a : Nat) (pk : Packet) (bs : List Byte), pk.payload = .write a bs → s.boardCheck stop pk a bs.length true = .ok →
    a < hbmEnd → s.boot.tripped = false →
    ∃ t, exec (.write stop pk) s = .next t ∧ Stored s.hbm.bytes t.hbm.bytes a bs ∧ t.shr = s.shr
      ∧ (∀ w, look false t.hbm.poison w =
          if bs ≠ [] ∧ a ≤ 32 * w ∧ 32 * w + 32 ≤ a + bs.length then false else look false s.hbm.poison w)
      ∧ Sent stop true (Replies s stop pk .ack) s t ∧ Took stop false (fun p => p == pk) s t
      ∧ CountsOther s t a bs.length [] [.mem, .ctl])
  ∧ (∀ (s : State) (stop a : Nat) (pk : Packet) (bs : List Byte), pk.payload = .write a bs → s.boardCheck stop pk a bs.length true = .ok →
    hbmEnd ≤ a → a < regBase →
    let w := s.winOfLog ((a - panelBase) / 0x80000)
    ∃ t, exec (.write stop pk) s = .next t ∧ t.panel w = (s.panel w).holdBytes ((a - panelBase) % 0x80000) bs
      ∧ (∀ j < bs.length, look 0 (t.panel w).mem ((a - panelBase) % 0x80000 + j) = bs.getD j 0)
      ∧ Took stop false (fun p => p == pk) s t ∧ Sent stop true (Replies s stop pk .ack) s t ∧ OnlyChanges [] [.panel w, .ctl] s t)
  ∧ (∀ (s : State) (stop a : Nat) (pk : Packet) (bs : List Byte), pk.payload = .write a bs → s.boardCheck stop pk a bs.length true = .ok →
    hbmEnd ≤ a → regBase ≤ a →
    ∃ t u v, exec (.write stop pk) s = .next t ∧ OnlyTook stop false (fun p => p == pk) s u
      ∧ v = (imageParts (a - regBase) bs bs.length).foldl (fun u p => u.writeBar0 (viewOf pk) p.1 p.2.1 p.2.2) u
      ∧ Sent stop true (Replies v stop pk .ack) v t ∧ t.ctl.ejq = v.ctl.ejq ∧ OnlyChanges [] [.ctl] v t)
  ∧ (∀ (s : State) (stop : Nat) (pk : Packet) (e : Ecc),
    ((∀ a n, pk.payload = .read a n → a < hbmEnd ∧ s.boot.tripped = true) → exec (.read stop pk e) s = .next s)
    ∧ ((∀ a bs, pk.payload = .write a bs → a < hbmEnd ∧ s.boot.tripped = true) → exec (.write stop pk) s = .next s))
  ∧ (∀ (s : State) (i : Instr) (stop st : Nat) (pk : Packet) (b : List Byte) (r : Req), Brings i stop pk st b →
    look? s.ctl.reqs (256 * stop + pk.rtag % 256) = some r →
    ∃ t u, exec i s = .next t ∧ Took stop true (fun p => p == pk) s u
      ∧ (∀ k, look? u.ctl.reqs k = if k = 256 * stop + pk.rtag % 256 then none else look? s.ctl.reqs k)
      ∧ u = { s with ctl := { s.ctl with ejq := u.ctl.ejq, reqs := u.ctl.reqs } } ∧ ReqEnds u t r.purp st b)
  ∧ (∀ (s : State) (i : Instr) (stop st : Nat) (pk : Packet) (b : List Byte), Brings i stop pk st b →
    look? s.ctl.reqs (256 * stop + pk.rtag % 256) = none →
    ∃ t, exec i s = .next t ∧ t.get .CTN_LATE_RPL_COUNT = satAdd 32 (s.get .CTN_LATE_RPL_COUNT) 1
      ∧ Took stop true (fun p => p == pk) s t ∧ Sent stop true [] s t ∧ OnlyChanges [.CTN_LATE_RPL_COUNT] [.ctl] s t)
  ∧ (∀ (s : State) (stop : Nat) (pk : Packet), ((∀ b, pk.payload ≠ .data b) → exec (.data stop pk) s = .next s)
    ∧ (pk.payload ≠ .ack → exec (.ack stop pk) s = .next s) ∧ ((∀ st, pk.payload ≠ .error st) → exec (.error stop pk) s = .next s))
  ∧ (∀ (s : State) (stop rtag : Nat) (r : Req), look? s.ctl.reqs (256 * stop + rtag) = some r → r.due ≤ s.tick →
    ∃ t u, exec (.requestTimeout stop rtag) s = .next t ∧ u.get .CTN_TIMEOUT_COUNT = satAdd 32 (s.get .CTN_TIMEOUT_COUNT) 1
      ∧ (∀ k, look? u.ctl.reqs k = if k = 256 * stop + rtag then none else look? s.ctl.reqs k)
      ∧ (∀ k, look? u.ctl.retired k = if k = 256 * stop + rtag then
          some (r.due + 4 * (max 1 (s.get .CTN_REQ_TO_TIMEOUT) * 3125 / 4)) else look? s.ctl.retired k)
      ∧ u.ctl = { s.ctl with reqs := u.ctl.reqs, retired := u.ctl.retired } ∧ OnlyAt [] [(.CTN_TIMEOUT_COUNT, 0)] [.ctl] s u
      ∧ ReqEnds u t r.purp 8 [])
  ∧ (∀ (s : State) (stop rtag : Nat), (∀ r, look? s.ctl.reqs (256 * stop + rtag) = some r → s.tick < r.due) →
    exec (.requestTimeout stop rtag) s = .next s)
  ∧ (∀ (s : State) (stop rtag t0 : Nat), look? s.ctl.retired (256 * stop + rtag) = some t0 → t0 ≤ s.tick →
    ∃ t, exec (.rtagRelease stop rtag) s = .next t
      ∧ (∀ k, look? t.ctl.retired k = if k = 256 * stop + rtag then none else look? s.ctl.retired k)
      ∧ t.ctl = { s.ctl with retired := t.ctl.retired } ∧ OnlyChanges [] [.ctl] s t)
  ∧ (∀ (s : State) (stop rtag : Nat), (∀ t0, look? s.ctl.retired (256 * stop + rtag) = some t0 → s.tick < t0) →
    exec (.rtagRelease stop rtag) s = .next s)

/-- Fault packets, stop notes, the halt of a member and the fault completion (12_block_image_to_stamp.md, 10_control_rings.md, 16_watching_a_run.md). -/
def Obligations.FaultStops : Prop :=
  (∀ (s : State) (m : FaultMsg) (k : Nat), Stops s m.part →
    k = (if 2 ≤ s.get .DBG_HALT_STATE m.part then s.get .DBG_HSTEP_STEP m.part - 1 else m.step.getD (s.curStep m.part)) → Lower s m.part k →
    ∃ t, exec (.faultPacket m) s = .next t ∧ Took 18 false (fun p => p.payload == .fault m) s t
      ∧ StopLearned s t m.part
        { part := m.part, stopStep := k, boundary := s.slotTally m.part (s.boundary m.part (k + 1)), srck := m.srck, fcoord := s.coord,
          panel := m.panel, code := m.code, layer := m.layer, oper := m.oper, launch := s.get .TIM_LAUNCH_AT_AT m.part })
  ∧ (∀ (s : State) (m : FaultMsg) (k : Nat),
    k = (if 2 ≤ s.get .DBG_HALT_STATE m.part then s.get .DBG_HSTEP_STEP m.part - 1 else m.step.getD (s.curStep m.part)) →
    (¬ Stops s m.part ∨ ∃ h, (s.part m.part).stop = some h ∧ h.stopStep ≤ k) →
    ∃ t, exec (.faultPacket m) s = .next t ∧ Took 18 false (fun p => p.payload == .fault m) s t ∧ Sent 18 false [] s t
      ∧ OnlyChanges [] [.ctl] s t)
  ∧ (∀ (s : State) (m : StopNote), Stops s m.part → m.launch = s.get .TIM_LAUNCH_AT_AT m.part → Lower s m.part m.stopStep →
    ∃ t, exec (.stopnote m) s = .next t ∧ Took 18 false (fun p => p.payload == .stopnote m) s t ∧ StopLearned s t m.part m)
  ∧ (∀ (s : State) (m : StopNote), (¬ Stops s m.part ∨ m.launch ≠ s.get .TIM_LAUNCH_AT_AT m.part
      ∨ ∃ h, (s.part m.part).stop = some h ∧ h.stopStep ≤ m.stopStep) →
    ∃ t, exec (.stopnote m) s = .next t ∧ Took 18 false (fun p => p.payload == .stopnote m) s t ∧ Sent 18 false [] s t
      ∧ OnlyChanges [] [.ctl] s t)
  ∧ (∀ (s : State) (q : Nat) (n : StopNote), (s.part q).stop = some n → s.runSt q = 3 → (s.part q).haltedAt = none →
    (2 ≤ s.get .DBG_HALT_STATE q ∨ s.boundary q (s.image q).steps ≤ s.curSlot q
      ∨ (s.slotTally q (s.curSlot q) = s.tally ∧ s.curSlot q ∈ (s.image q).img.grid ∧ s.boundary q (n.stopStep + 1) ≤ s.curSlot q)) →
    ∃ t, exec (.memberHalt q) s = .next t ∧ MemberHalted s t q)
  ∧ (∀ (s : State) (q : Nat), ((s.part q).stop = none ∨ s.runSt q ≠ 3 ∨ (s.part q).haltedAt ≠ none) → exec (.memberHalt q) s = .next s)
  ∧ (∀ (s : State) (q : Nat) (n : StopNote), (s.part q).stop = some n → s.get .DBG_HALT_STATE q < 2 →
    s.curSlot q < s.boundary q (s.image q).steps →
    (s.slotTally q (s.curSlot q) ≠ s.tally ∨ s.curSlot q ∉ (s.image q).img.grid ∨ s.curSlot q < s.boundary q (n.stopStep + 1)) →
    exec (.memberHalt q) s = .next s)
  ∧ (∀ (s : State) (q b : Nat) (n : StopNote), (s.part q).haltedAt = some b → (s.part q).stop = some n → (s.part q).faulted = false →
    s.reached q (b + (s.image q).stopreach) = true →
    ∃ t, exec (.faultCompletion q) s = .next t ∧ t.part q = { s.part q with faulted := true }
      ∧ Raised { code := 0x9001, part := some q, detail := n.stopStep + n.code * 2 ^ 32 + n.fcoord % 4096 * 2 ^ 48 } s t
      ∧ (s.boot.perst = false → Formed (if (s.part q).flrStop then 0 else (s.part q).loadFn)
          { kind := 5, irq := true, detail := toLE 1 q ++ toLE 1 0 ++ toLE 2 n.fcoord ++ toLE 2 n.panel ++ toLE 2 0 ++ toLE 4 n.stopStep
              ++ toLE 2 n.layer ++ toLE 2 n.oper ++ toLE 2 n.code ++ toLE 6 0 ++ toLE 7 n.boundary } s t)
      ∧ OnlyChanges evFlds (([.part q] : List Comp) ++ evComps) s t)
  ∧ (∀ (s : State) (q : Nat), ((s.part q).haltedAt = none ∨ (s.part q).stop = none ∨ (s.part q).faulted = true
      ∨ ∃ b, (s.part q).haltedAt = some b ∧ s.reached q (b + (s.image q).stopreach) = false) → exec (.faultCompletion q) s = .next s)

/-- Checkpoints, the finish boundary, reports and the stamp (12_block_image_to_stamp.md, 13_same_bits_twice.md). -/
def Obligations.RunEnds : Prop :=
  (∀ (s : State) (q c : Nat), s.dueCk q = some c → s.runSt q = 3 → (s.part q).haltedAt = none →
    let a := if (s.part q).ckArea % 2 = 0 then (s.image q).img.ckA else (s.image q).img.ckB
    let st := s.ckState q
    let body := st ++ readBytes s.hbm.bytes (a + 256 + st.length) (s.image q).img.tensor
    ∃ t dseq, exec (.checkpointWrite q) s = .next t
      ∧ (s.boot.tripped = false → Stored s.hbm.bytes t.hbm.bytes a (s.ckHeader q c 1 body dseq ++ st)
          ∧ t.get .DBG_C_HBM_OTHER_BYTES q = (s.get .DBG_C_HBM_OTHER_BYTES q
              + (s.ckHeader q c 1 body dseq).length + body.length) % 2 ^ 64)
      ∧ (s.boot.tripped = true → ∀ x, look 0 t.hbm.bytes x = look 0 s.hbm.bytes x)
      ∧ t.part q = { s.part q with ckArea := (s.part q).ckArea + 1, ckDone := (s.part q).ckDone ++ [c],
                                   ckPend := (s.part q).ckPend ++ [(c, a)] }
      ∧ Sent 22 false (mirrored s q 0 (s.ckHeader q c 1 body dseq ++ st)) s t ∧ t.ctl.ejq = s.ctl.ejq ∧ t.shr = s.shr
      ∧ OnlyAt [] [(.DBG_C_HBM_OTHER_BYTES, q)] [.mem, .part q, .ctl, .free] s t)
  ∧ (∀ (s : State) (q : Nat), (s.dueCk q = none ∨ s.runSt q ≠ 3 ∨ (s.part q).haltedAt ≠ none) → exec (.checkpointWrite q) s = .next s)
  ∧ (∀ (s : State) (q c a : Nat) (r : List (Nat × Nat)), (s.part q).ckPend = (c, a) :: r →
    s.reached q (s.boundary q (c + 1) + (s.image q).stopreach) = true → Lower s q c →
    let bs := if s.boot.tripped then readBytes s.hbm.bytes (a + 136) 8
      else readBytes s.hbm.bytes (a + 136) 6 ++ [2] ++ readBytes s.hbm.bytes (a + 143) 1
    ∃ t, exec (.checkpointCommit q) s = .next t
      ∧ (s.boot.tripped = false → Stored s.hbm.bytes t.hbm.bytes (a + 142) [2]
          ∧ t.get .DBG_C_HBM_OTHER_BYTES q = (s.get .DBG_C_HBM_OTHER_BYTES q + 1) % 2 ^ 64)
      ∧ (s.boot.tripped = true → OnlyChanges [] [.part q, .ctl] s t) ∧ t.shr = s.shr ∧ Sent 22 false (mirrored s q 136 bs) s t
      ∧ t.ctl.ejq = s.ctl.ejq ∧ t.part q = { s.part q with ckPend := r }
      ∧ OnlyAt [] [(.DBG_C_HBM_OTHER_BYTES, q)] [.mem, .part q, .ctl] s t)
  ∧ (∀ (s : State) (q c a : Nat) (r : List (Nat × Nat)) (n : StopNote), (s.part q).ckPend = (c, a) :: r →
    s.reached q (s.boundary q (c + 1) + (s.image q).stopreach) = true → (s.part q).stop = some n → n.stopStep ≤ c →
    ∃ t, exec (.checkpointCommit q) s = .next t ∧ t.part q = { s.part q with ckPend := r } ∧ OnlyChanges [] [.part q] s t)
  ∧ (∀ (s : State) (q : Nat), (∀ c a r, (s.part q).ckPend = (c, a) :: r →
      s.reached q (s.boundary q (c + 1) + (s.image q).stopreach) = false) → exec (.checkpointCommit q) s = .next s)
  ∧ (∀ (s : State) (q : Nat), s.runSt q = 3 → (s.part q).haltedAt = none → (s.part q).stop = none → (s.part q).finished = false →
    s.reached q (s.boundary q (s.image q).steps) = true →
    ∃ t, exec (.finishBoundary q) s = .next t ∧ CtxsStopped s t q
      ∧ t.part q = { s.part q with finished := true, semWait := [], semOwner := [] }
      ∧ (((∀ x ∈ s.ctxsOf q, s.get .SEQ_CTX_STATE_STATE x = 9)
            ∧ ∀ w x, (w, x) ∈ s.panels → x.part = some q → x.prev ≠ none → s.is .PNL_SL_STAT_LASTSEEN w = true) →
          Sent 22 false [s.pkTo 22 22 q (s.part q).msg.src (.report (s.part q).msg (s.report q))] s t
            ∧ OnlyAt [] [(.SEQ_SEM_HELD, q)] [.part q, .ctxs, .ctl] s t)
      ∧ ((∃ x ∈ s.ctxsOf q, s.get .SEQ_CTX_STATE_STATE x ≠ 9)
          ∨ (∃ w x, (w, x) ∈ s.panels ∧ x.part = some q ∧ x.prev ≠ none ∧ s.is .PNL_SL_STAT_LASTSEEN w = false) →
          EngineFault s t q (s.home q) 0x9007 ((s.image q).steps - 1) ((s.image q).steps - 1))
      ∧ t.ctl.ejq = s.ctl.ejq ∧ OnlyAt evFlds [(.SEQ_SEM_HELD, q)] (([.part q, .ctxs, .ctl] : List Comp) ++ evComps) s t)
  ∧ (∀ (s : State) (q : Nat), (s.runSt q ≠ 3 ∨ (s.part q).finished = true ∨ (s.part q).haltedAt ≠ none ∨ (s.part q).stop ≠ none
      ∨ s.reached q (s.boundary q (s.image q).steps) = false) → exec (.finishBoundary q) s = .next s)
  ∧ (∀ (s : State) (m : FinishRep),
    ∃ t, exec (.finishReport m) s = .next t ∧ Sent 22 false [] s t
      ∧ Took 22 false (fun p => match p.payload with
          | .report _ m' => m' == m
          | _ => false) s t
      ∧ ((s.part m.part).crowned = true → s.runSt m.part = 3 → (∀ r ∈ (s.part m.part).reports, r.member ≠ m.member) →
          t.part m.part = { s.part m.part with reports := (s.part m.part).reports ++ [m] } ∧ OnlyChanges [] [.part m.part, .ctl] s t)
      ∧ (((s.part m.part).crowned = false ∨ s.runSt m.part ≠ 3 ∨ ∃ r ∈ (s.part m.part).reports, r.member = m.member) →
          OnlyChanges [] [.ctl] s t))
  ∧ (∀ (s : State) (q : Nat), (s.part q).crowned = true → s.runSt q = 3 → (s.part q).stop = none → (s.part q).stamped = false →
    (∀ x ∈ (s.image q).members, ∃ r ∈ (s.part q).reports, r.member = x) →
    s.reached q (s.boundary q (s.image q).steps + (s.image q).stopreach) = true →
    ∃ t, exec (.stampForm q) s = .next t ∧ StampStands s t q (s.stampBytes q) ∧ t.ctl.ejq = s.ctl.ejq
      ∧ Sent 22 false (((s.memberCoords q).filter (· ≠ s.coord)).map
          (fun c => s.pkTo 22 22 q c (.stamp (s.part q).msg (s.stampBytes q)))) s t)
  ∧ (∀ (s : State) (q : Nat), ((s.part q).crowned = false ∨ s.runSt q ≠ 3 ∨ (s.part q).stop ≠ none ∨ (s.part q).stamped = true
      ∨ (∃ x ∈ (s.image q).members, ∀ r ∈ (s.part q).reports, r.member ≠ x)
      ∨ s.reached q (s.boundary q (s.image q).steps + (s.image q).stopreach) = false) → exec (.stampForm q) s = .next s)
  ∧ (∀ (s : State) (q : Nat) (bytes : List Byte),
    ∃ t, exec (.stamp q bytes) s = .next t ∧ Sent 22 false [] s t
      ∧ Took 22 false (fun p => match p.payload with
          | .stamp _ b => b == bytes && p.part == q
          | _ => false) s t
      ∧ (s.runSt q = 3 → (s.part q).stop = none → (s.part q).stamped = false → StampStands s t q bytes)
      ∧ ((s.runSt q ≠ 3 ∨ (s.part q).stop ≠ none ∨ (s.part q).stamped = true) → OnlyChanges [] [.ctl] s t))
  ∧ (∀ (s : State) (q x : Nat), (s.image q).members.find? (fun x => !(s.part q).reports.any (fun r => r.member == x)) = some x →
    (s.part q).crowned = true → s.runSt q = 3 → (s.part q).stop = none → (s.part q).stamped = false →
    s.reached q (s.boundary q (s.image q).steps + 2 * (s.image q).stopreach) = true →
    ∃ t, exec (.finishReportMissing q) s = .next t ∧ EngineFault s t q (s.home q) 0x9008 ((s.image q).steps - 1) x
      ∧ t.ctl.ejq = s.ctl.ejq ∧ OnlyChanges evFlds (([.ctl] : List Comp) ++ evComps) s t)
  ∧ (∀ (s : State) (q : Nat), ((∀ x ∈ (s.image q).members, ∃ r ∈ (s.part q).reports, r.member = x) ∨ (s.part q).crowned = false
      ∨ s.runSt q ≠ 3 ∨ (s.part q).stop ≠ none ∨ (s.part q).stamped = true
      ∨ s.reached q (s.boundary q (s.image q).steps + 2 * (s.image q).stopreach) = false) → exec (.finishReportMissing q) s = .next s)

/-- Allotments, power domains and shelf state (14_partitions_power_monitors.md). -/
def Obligations.AllotmentsAndPower : Prop :=
  (∀ (s : State) (who q o v : Nat), privileged who = true → q < 128 → o < 0x30 → s.allotHeld q = true →
    ∃ t, exec (.allotmentWrite who (addrOf .PRT_GRAN_GRAN + 64 * q + o) v) s = .next t ∧ t.get .PRT_STAT_HELD q = 1
      ∧ OnlyAt [] [(.PRT_STAT_HELD, q)] [] s t)
  ∧ (∀ (s : State) (who off v : Nat), (privileged who = false ∨ off < addrOf .PRT_GRAN_GRAN ∨ addrOf .PRT_GRAN_GRAN + 64 * 128 ≤ off
      ∨ 0x30 ≤ (off - addrOf .PRT_GRAN_GRAN) % 64) → exec (.allotmentWrite who off v) s = .next s)
  ∧ (∀ (s : State) (who q w v : Nat), privileged who = true → q < 128 → w < 4 → s.allotHeld q = false →
    (∀ p < 128, p ≠ q → s.get .PRT_GRAN_GRAN (4 * p + w) &&& (v % 2 ^ 32) = 0) →
    ∃ t, exec (.allotmentWrite who (addrOf .PRT_GRAN_GRAN + 64 * q + 4 * w) v) s = .next t ∧ t.get .PRT_GRAN_GRAN (4 * q + w) = v % 2 ^ 32
      ∧ (∀ x < 4, ∀ b < 32, (t.getBit .PRT_FREE_FREE b x = true ↔ ∀ p < 128, t.getBit .PRT_GRAN_GRAN b (4 * p + x) = false))
      ∧ OnlyAt [.PRT_FREE_FREE] [(.PRT_GRAN_GRAN, 4 * q + w)] [] s t)
  ∧ (∀ (s : State) (who q w v p : Nat), privileged who = true → q < 128 → w < 4 → s.allotHeld q = false → p < 128 → p ≠ q →
    s.get .PRT_GRAN_GRAN (4 * p + w) &&& (v % 2 ^ 32) ≠ 0 →
    ∃ t, exec (.allotmentWrite who (addrOf .PRT_GRAN_GRAN + 64 * q + 4 * w) v) s = .next t ∧ t.get .PRT_STAT_CONFLICT q = 1
      ∧ OnlyAt [] [(.PRT_STAT_CONFLICT, q)] [] s t)
  ∧ (∀ (s : State) (who q v : Nat), privileged who = true → q < 128 → s.allotHeld q = false →
    let b := v % 2 ^ 18
    let n := s.get .PRT_HBM_SIZE_SIZE q
    let clash := 0 < n ∧ (0x24000 < b + n ∨ ∃ p < 128, p ≠ q ∧ 0 < s.get .PRT_HBM_SIZE_SIZE p
      ∧ b < s.get .PRT_HBM_BASE_BASE p + s.get .PRT_HBM_SIZE_SIZE p ∧ s.get .PRT_HBM_BASE_BASE p < b + n)
    ∃ t, exec (.allotmentWrite who (addrOf .PRT_GRAN_GRAN + 64 * q + 0x10) v) s = .next t
      ∧ (clash → t.get .PRT_STAT_CONFLICT q = 1 ∧ OnlyAt [] [(.PRT_STAT_CONFLICT, q)] [] s t)
      ∧ (¬ clash → t.get .PRT_HBM_BASE_BASE q = b ∧ OnlyAt [] [(.PRT_HBM_BASE_BASE, q)] [] s t))
  ∧ (∀ (s : State) (who q v : Nat), privileged who = true → q < 128 → s.allotHeld q = false →
    let b := s.get .PRT_HBM_BASE_BASE q
    let n := v % 2 ^ 18
    let clash := 0 < n ∧ (0x24000 < b + n ∨ ∃ p < 128, p ≠ q ∧ 0 < s.get .PRT_HBM_SIZE_SIZE p
      ∧ b < s.get .PRT_HBM_BASE_BASE p + s.get .PRT_HBM_SIZE_SIZE p ∧ s.get .PRT_HBM_BASE_BASE p < b + n)
    ∃ t, exec (.allotmentWrite who (addrOf .PRT_GRAN_GRAN + 64 * q + 0x14) v) s = .next t
      ∧ (clash → t.get .PRT_STAT_CONFLICT q = 1 ∧ OnlyAt [] [(.PRT_STAT_CONFLICT, q)] [] s t)
      ∧ (¬ clash → t.get .PRT_HBM_SIZE_SIZE q = n ∧ OnlyAt [] [(.PRT_HBM_SIZE_SIZE, q)] [] s t))
  ∧ (∀ (s : State) (who q v : Nat), privileged who = true → q < 128 → s.allotHeld q = false →
    let clash := ∃ p < 128, p ≠ q ∧ s.get .PRT_PORTS_PORTS p &&& (v % 2 ^ 32) ≠ 0
    ∃ t, exec (.allotmentWrite who (addrOf .PRT_GRAN_GRAN + 64 * q + 0x18) v) s = .next t
      ∧ (clash → t.get .PRT_STAT_CONFLICT q = 1 ∧ OnlyAt [] [(.PRT_STAT_CONFLICT, q)] [] s t)
      ∧ (¬ clash → t.get .PRT_PORTS_PORTS q = v % 2 ^ 32 ∧ OnlyAt [] [(.PRT_PORTS_PORTS, q)] [] s t))
  ∧ (∀ (s : State) (who q w v : Nat), privileged who = true → q < 128 → w < 3 → s.allotHeld q = false →
    let x := v % 2 ^ (if w = 2 then 24 else 32)
    let clash := ∃ p < 128, p ≠ q ∧ s.get .PRT_LANES_LANES (3 * p + w) &&& x ≠ 0
    ∃ t, exec (.allotmentWrite who (addrOf .PRT_GRAN_GRAN + 64 * q + 0x1C + 4 * w) v) s = .next t
      ∧ (clash → t.get .PRT_STAT_CONFLICT q = 1 ∧ OnlyAt [] [(.PRT_STAT_CONFLICT, q)] [] s t)
      ∧ (¬ clash → t.get .PRT_LANES_LANES (3 * q + w) = x ∧ OnlyAt [] [(.PRT_LANES_LANES, 3 * q + w)] [] s t))
  ∧ (∀ (s : State) (who q v : Nat), privileged who = true → q < 128 → s.allotHeld q = false →
    let clash := ∃ p m k, p < 128 ∧ p ≠ q ∧ (s.part p).image = some m ∧ k ∈ m.memPorts
      ∧ bit (s.get .PRT_MPORT_MPORT p &&& (v % 2 ^ 16)) k = true
    ∃ t, exec (.allotmentWrite who (addrOf .PRT_GRAN_GRAN + 64 * q + 0x28) v) s = .next t
      ∧ (clash → t.get .PRT_STAT_CONFLICT q = 1 ∧ OnlyAt [] [(.PRT_STAT_CONFLICT, q)] [] s t)
      ∧ (¬ clash → t.get .PRT_MPORT_MPORT q = v % 2 ^ 16 ∧ OnlyAt [] [(.PRT_MPORT_MPORT, q)] [] s t))
  ∧ (∀ (s : State) (who q v b : Nat), privileged who = true → q < 128 → s.allotHeld q = false → 0 < bits v 16 13 →
    let fits (b : Nat) : Prop := b + bits v 16 13 ≤ 4096 ∧ ∀ p < 128, p ≠ q → s.get .SEQ_SHR_SIZE p = 0
      ∨ b + bits v 16 13 ≤ s.get .SEQ_SHR_BASE p ∨ s.get .SEQ_SHR_BASE p + s.get .SEQ_SHR_SIZE p ≤ b
    fits b → (∀ a < b, ¬ fits a) →
    ∃ t, exec (.shrWrite who q v) s = .next t ∧ t.get .SEQ_SHR_BASE q = b ∧ t.get .SEQ_SHR_SIZE q = bits v 16 13
      ∧ t.get .PRT_LIMITS_SHR q = bits v 16 13 ∧ t.get .PRT_LIMITS_CTXMAX q = bits v 0 4
      ∧ OnlyAt [] [(.PRT_LIMITS_CTXMAX, q), (.PRT_LIMITS_SHR, q), (.SEQ_SHR_BASE, q), (.SEQ_SHR_SIZE, q)] [] s t)
  ∧ (∀ (s : State) (who q v : Nat), privileged who = true → q < 128 → s.allotHeld q = false →
    (∀ b, b + bits v 16 13 ≤ 4096 → ∃ p < 128, p ≠ q ∧ s.get .SEQ_SHR_SIZE p ≠ 0 ∧ s.get .SEQ_SHR_BASE p < b + bits v 16 13
      ∧ b < s.get .SEQ_SHR_BASE p + s.get .SEQ_SHR_SIZE p) →
    0 < bits v 16 13 →
    ∃ t, exec (.shrWrite who q v) s = .next t ∧ t.get .PRT_STAT_CONFLICT q = 1 ∧ t.get .SEQ_SHR_SIZE q = 0 ∧ t.get .SEQ_SHR_BASE q = 0
      ∧ t.get .PRT_LIMITS_SHR q = 0 ∧ t.get .PRT_LIMITS_CTXMAX q = bits v 0 4
      ∧ OnlyAt [] [(.PRT_LIMITS_CTXMAX, q), (.PRT_LIMITS_SHR, q), (.SEQ_SHR_BASE, q), (.SEQ_SHR_SIZE, q), (.PRT_STAT_CONFLICT, q)] [] s t)
  ∧ (∀ (s : State) (who q v : Nat), privileged who = true → q < 128 →
    ∃ t, exec (.shrWrite who q v) s = .next t
      ∧ (s.allotHeld q = true → t.get .PRT_STAT_HELD q = 1 ∧ OnlyAt [] [(.PRT_STAT_HELD, q)] [] s t)
      ∧ (s.allotHeld q = false → bits v 16 13 = 0 → t.get .PRT_LIMITS_CTXMAX q = bits v 0 4 ∧ t.get .PRT_LIMITS_SHR q = 0
          ∧ t.get .SEQ_SHR_BASE q = 0 ∧ t.get .SEQ_SHR_SIZE q = 0
          ∧ OnlyAt [] [(.PRT_LIMITS_CTXMAX, q), (.PRT_LIMITS_SHR, q), (.SEQ_SHR_BASE, q), (.SEQ_SHR_SIZE, q)] [] s t))
  ∧ (∀ (s : State) (who q v : Nat), (privileged who = false ∨ 128 ≤ q) → exec (.shrWrite who q v) s = .next s)
  ∧ (∀ (s : State) (who w v : Nat), privileged who = true → w < 5 →
    ∃ t, exec (.domainModeWrite who w v) s = .next t
      ∧ (∀ i < 16, 16 * w + i < 78 → t.get .PWR_DOM_MODE_MODE (16 * w + i) = bits v (2 * i) 2)
      ∧ (∀ i < 16, 78 ≤ 16 * w + i → t.get .PWR_DOM_MODE_MODE (16 * w + i) = s.get .PWR_DOM_MODE_MODE (16 * w + i))
      ∧ DomainsFollow s t ∧ PortsFell s t (portsOff s t)
      ∧ OnlyAt powerFlds ((List.range 16).map (fun i => (.PWR_DOM_MODE_MODE, 16 * w + i))) powerComps s t)
  ∧ (∀ (s : State) (who w v : Nat), (privileged who = false ∨ 5 ≤ w) → exec (.domainModeWrite who w v) s = .next s)
  ∧ (∀ (s : State) (d : Nat), d < 78 → s.wantOn d = true → s.domOn d = false →
    ∃ t, exec (.domainOn d) s = .next t ∧ t.domOn d = true ∧ (∀ e, e ≠ d → t.domOn e = s.domOn e)
      ∧ OnlyAt [] [(.PWR_DOM_STAT_ON, d / 32)] [] s t)
  ∧ (∀ (s : State) (d : Nat), (s.wantOn d = false ∨ s.domOn d = true ∨ 78 ≤ d) → exec (.domainOn d) s = .next s)
  ∧ (∀ (s : State) (who v : Nat), privileged who = true → bit v 0 = true → (∀ q < 128, s.allotHeld q = false) →
    s.is .LNK_CONF_STAT_BUSY = false → s.get .PWR_SHELF_STATE = 0 →
    ∃ t, exec (.shelfEnter who v) s = .next t ∧ t.get .PWR_SHELF_STATE = 1 ∧ PortsFell s t (portsUp s)
      ∧ t.get .PWR_SHELF_REFUSED = (if bit v 6 then 0 else s.get .PWR_SHELF_REFUSED % 2)
      ∧ t.boot = (if bit v 1 then { s.boot with wake := some (if who = 129 then 3 else 1) } else s.boot)
      ∧ OnlyChanges (evFlds ++ ([.PWR_SHELF_REFUSED, .PWR_SHELF_STATE, .LNK_P_STAT_UP, .LNK_P_CONF_STATE] : List Fld))
          (.boot :: powerComps) s t)
  ∧ (∀ (s : State) (who v : Nat), privileged who = true → bit v 0 = true → ((∃ q < 128, s.allotHeld q = true) ∨ s.is .LNK_CONF_STAT_BUSY = true
      ∨ s.get .PWR_SHELF_STATE ≠ 0) →
    ∃ t, exec (.shelfEnter who v) s = .next t ∧ t.get .PWR_SHELF_REFUSED = 1
      ∧ (bit v 1 = false → OnlyAt [] [(.PWR_SHELF_REFUSED, 0)] [] s t)
      ∧ (bit v 1 = true → s.get .PWR_SHELF_STATE = 1 → t.boot = { s.boot with wake := some (if who = 129 then 3 else 1) })
      ∧ (bit v 1 = true → s.get .PWR_SHELF_STATE = 2 → t.get .PWR_SHELF_STATE = 3 ∧ t.get .PWR_SHELF_SRC = (if who = 129 then 3 else 1)))
  ∧ (∀ (s : State) (who v : Nat), privileged who = true → bit v 0 = false →
    ∃ t, exec (.shelfEnter who v) s = .next t ∧ t.get .PWR_SHELF_REFUSED = (if bit v 6 then 0 else s.get .PWR_SHELF_REFUSED % 2)
      ∧ (bit v 1 = true → s.get .PWR_SHELF_STATE = 1 → t.boot = { s.boot with wake := some (if who = 129 then 3 else 1) }
          ∧ OnlyAt [] [(.PWR_SHELF_REFUSED, 0)] [.boot] s t)
      ∧ (bit v 1 = true → s.get .PWR_SHELF_STATE = 2 → t.get .PWR_SHELF_STATE = 3 ∧ t.get .PWR_SHELF_SRC = (if who = 129 then 3 else 1)
          ∧ OnlyAt [] [(.PWR_SHELF_REFUSED, 0), (.PWR_SHELF_STATE, 0), (.PWR_SHELF_SRC, 0)] [] s t)
      ∧ ((bit v 1 = false ∨ s.get .PWR_SHELF_STATE = 0 ∨ s.get .PWR_SHELF_STATE = 3) → OnlyAt [] [(.PWR_SHELF_REFUSED, 0)] [] s t))
  ∧ (∀ (s : State) (who v : Nat), privileged who = false → exec (.shelfEnter who v) s = .next s)
  ∧ (∀ (s : State), s.get .PWR_SHELF_STATE = 1 →
    ∃ t, exec .shelfEntryDone s = .next t ∧ t.get .MEM_STAT_IN_SR = 0xFF ∧ t.is .TIM_STATUS_LOCK = false
      ∧ (∀ d < 78, ((d < 72 ∧ d % 9 ≠ 8) ∨ 73 ≤ d) → t.domOn d = false) ∧ PortsFell s t (portsOff s t)
      ∧ t.tb = { s.tb with lockOk := false, goodExch := 0, exch := [] }
      ∧ (∀ w, t.panel w = if w ∈ retention ∧ s.unusable w = true then { s.panel w with mem := [], lost := true } else s.panel w)
      ∧ ((∀ p < 32, s.is .LNK_P_STAT_UP p = false) → Raised { code := 0xB002 } s t)
      ∧ (s.boot.wake = none → t.get .PWR_SHELF_STATE = 2 ∧ DomainsFollow s t ∧ t.boot = s.boot
          ∧ OnlyChanges (powerFlds ++ ([.PWR_SHELF_STATE, .MEM_STAT_IN_SR, .TIM_STATUS_LOCK] : List Fld))
              (powerComps ++ ([.tb, .panels] : List Comp)) s t)
      ∧ (∀ src, s.boot.wake = some src → t.get .PWR_SHELF_STATE = 3 ∧ t.get .PWR_SHELF_SRC = src % 4 ∧ t.boot = { s.boot with wake := none }
          ∧ OnlyChanges (powerFlds ++ ([.PWR_SHELF_STATE, .PWR_SHELF_SRC, .MEM_STAT_IN_SR, .TIM_STATUS_LOCK] : List Fld))
              (powerComps ++ ([.tb, .panels, .boot] : List Comp)) s t))
  ∧ (∀ (s : State), s.get .PWR_SHELF_STATE ≠ 1 → exec .shelfEntryDone s = .next s)
  ∧ (∀ (s : State) (src : Nat), s.get .PWR_SHELF_STATE = 2 →
    ∃ t, exec (.shelfWake src) s = .next t ∧ t.get .PWR_SHELF_STATE = 3 ∧ t.get .PWR_SHELF_SRC = src % 4
      ∧ OnlyAt [] [(.PWR_SHELF_STATE, 0), (.PWR_SHELF_SRC, 0)] [] s t)
  ∧ (∀ (s : State) (src : Nat), s.get .PWR_SHELF_STATE = 1 →
    ∃ t, exec (.shelfWake src) s = .next t ∧ t.boot = { s.boot with wake := some src } ∧ OnlyChanges [] [.boot] s t)
  ∧ (∀ (s : State) (src : Nat), s.get .PWR_SHELF_STATE ≠ 1 → s.get .PWR_SHELF_STATE ≠ 2 → exec (.shelfWake src) s = .next s)
  ∧ (∀ (s : State), s.get .PWR_SHELF_STATE = 3 → (∀ d < 78, s.wantOn d = true → s.domOn d = true) →
    ∃ t, exec .shelfWakeDone s = .next t ∧ t.get .PWR_SHELF_STATE = 0 ∧ t.get .MEM_STAT_IN_SR = 0 ∧ t.get .MEM_CTRL_SR_REQ = 0
      ∧ Raised { code := 0xB003, detail := s.get .PWR_SHELF_SRC } s t
      ∧ OnlyChanges (evFlds ++ ([.PWR_SHELF_STATE, .MEM_STAT_IN_SR, .MEM_CTRL_SR_REQ] : List Fld)) evComps s t)
  ∧ (∀ (s : State), (s.get .PWR_SHELF_STATE ≠ 3 ∨ ∃ d < 78, s.wantOn d = true ∧ s.domOn d = false) → exec .shelfWakeDone s = .next s)

/-- Monitors, rails, capture units, watch buffers, snapshots and debug reads (14_partitions_power_monitors.md, 16_watching_a_run.md, 17_reset_boot_package.md). -/
def Obligations.Observing : Prop :=
  (∀ (s : State) (r : Readings), r.mcDown = false → ∃ t, exec (.monitorRefresh r) s = .next t
      ∧ (∀ d < 8, ∀ x, r.tj[d]? = some x → t.get .MON_DIE_TJ d = min x 255)
      ∧ (∀ d < 8, ∀ x, r.power[d]? = some x → t.get .MON_DIE_POWER d = min x 65535)
      ∧ (∀ d < 8, ∀ x, r.pace[d]? = some x → t.get .MON_DIE_PACE d = min x 511)
      ∧ (∀ d < 8, ∀ x, r.hbmTemp[d]? = some x → t.get .MEM_S_TEMP_TEMP d = min x 255)
      ∧ (∀ d < 8, (r.tj[d]? = none → t.get .MON_DIE_TJ d = s.get .MON_DIE_TJ d)
          ∧ (r.power[d]? = none → t.get .MON_DIE_POWER d = s.get .MON_DIE_POWER d)
          ∧ (r.pace[d]? = none → t.get .MON_DIE_PACE d = s.get .MON_DIE_PACE d)
          ∧ (r.hbmTemp[d]? = none → t.get .MEM_S_TEMP_TEMP d = s.get .MEM_S_TEMP_TEMP d))
      ∧ t.get .MON_BAND_TJ = min r.bandTj 255 ∧ t.get .MON_BAND_PKGPWR = min r.pkgPwr 65535
      ∧ (t.is .MBX_FAULT_OVERTEMP = true ↔ ∃ d < 8, 105 < t.get .MON_DIE_TJ d) ∧ FaultShown t ∧ FaultPut s t
      ∧ (∀ d < 8, ∀ x, r.tj[d]? = some x → s.get .MON_DIE_TJ d < 95 → 95 ≤ x → t.getBit .PWR_PACE_EVT_THERM_WARN d = true
          ∧ ((∀ e < 8, ∀ y, e ≠ d → r.tj[e]? = some y → 95 ≤ s.get .MON_DIE_TJ e ∨ y < 95) →
              Noted { code := 0xB001, skind := 13, sindex := d } s t))
      ∧ (∀ d < 8, (∀ x, r.tj[d]? = some x → 95 ≤ s.get .MON_DIE_TJ d ∨ x < 95) →
          t.getBit .PWR_PACE_EVT_THERM_WARN d = s.getBit .PWR_PACE_EVT_THERM_WARN d)
      ∧ t.boot = { s.boot with mcDown := false, faultLow := t.boot.faultLow }
      ∧ OnlyChanges (evFlds ++ ([.MON_DIE_TJ, .MON_DIE_POWER, .MON_DIE_PACE, .MEM_S_TEMP_TEMP, .MON_BAND_TJ, .MON_BAND_PKGPWR,
          .MBX_FAULT_OVERTEMP, .MBX_BOOT_FAULT_IN, .PWR_PACE_EVT_THERM_WARN] : List Fld)) (evComps ++ ([.boot] : List Comp)) s t)
  ∧ (∀ (s : State) (r : Readings), r.mcDown = true →
    ∃ t, exec (.monitorRefresh r) s = .next t ∧ t.boot = { s.boot with mcDown := true } ∧ OnlyChanges [] [.boot] s t)
  ∧ (∀ (s : State) (r mv : Nat), r ≤ 8 → s.railOk r mv = true → s.boot.released = true → 600 ≤ s.rail r → s.rail r ≤ 900 →
    ∃ t l, exec (.avsWrite r mv []) s = .next t ∧ t.rail r = mv ∧ (∀ x, x ≠ r → t.rail x = s.rail x)
      ∧ RailSteps mv (s.rail r) l ∧ t.out = s.out ++ l.map (fun v => .avs r v) ∧ t.boot = { s.boot with rails := t.boot.rails }
      ∧ OnlyChanges [] [.boot, .out] s t)
  ∧ (∀ (s : State) (r mv : Nat), r ≤ 8 → s.railOk r mv = true → s.boot.released = true → s.rail r < mv → mv ≤ s.rail r + 50 →
    ∃ t, exec (.avsWrite r mv [false]) s = .next t ∧ t.rail r = mv ∧ t.out = s.out ++ ([.avs r mv, .avs r mv] : List Out)
      ∧ OnlyChanges [] [.boot, .out] s t)
  ∧ (∀ (s : State) (r mv : Nat), r ≤ 8 → s.railOk r mv = true → s.boot.released = true → s.rail r ≠ mv →
    ∃ t, exec (.avsWrite r mv [false, false, false]) s = .next t ∧ t.rail r = s.rail r ∧ t.is .MBX_FAULT_AVS = true ∧ FaultShown t
      ∧ FaultPut s t
      ∧ (let nx := if s.rail r < mv then min mv (s.rail r + 50) else max mv (s.rail r - 50)
         t.out = s.out ++ ([.avs r nx, .avs r nx, .avs r nx] : List Out)
           ++ (if t.boot.faultLow = s.boot.faultLow then [] else [.pin "FAULT_N" (!t.boot.faultLow)]))
      ∧ OnlyChanges [.MBX_FAULT_AVS, .MBX_BOOT_FAULT_IN] [.boot, .out] s t)
  ∧ (∀ (s : State) (r mv : Nat) (l : List Bool), (8 < r ∨ s.boot.released = false ∨ (r = 8 ∧ (mv < 700 ∨ 850 < mv))
      ∨ (r < 8 ∧ (mv < 600 ∨ 900 < mv)) ∨ (r < 8 ∧ mv < 730 ∧ ∃ q < 128, s.allotHeld q = true) ∨ s.rail r = mv) →
    exec (.avsWrite r mv l) s = .next s)
  ∧ (∀ (s : State) (n : Nat), (s.cap n).snaps = [] →
    ∃ t, exec (.captureDrain n) s = .next t ∧ (t.cap n).queue = [] ∧ (t.cap n).snaps = []
      ∧ Entered s n (s.cap n) (s.cap n).queue (t.cap n) ∧ OnlyChanges [] [.cap n] s t)
  ∧ (∀ (s : State) (n k : Nat) (clr : Bool), n < 16 → (s.cap n).snaps = [(k, clr)] →
    ∃ t live, exec (.captureDrain n) s = .next t ∧ (t.cap n).queue = [] ∧ (t.cap n).snaps = []
      ∧ Entered s n (s.cap n) ((s.cap n).queue.take k) live ∧ Snapped s t n live
      ∧ Entered s n (if clr then {} else live) ((s.cap n).queue.drop k) (t.cap n) ∧ OnlyAt [] (snapFlds n) [.cap n] s t)
  ∧ (∀ (s : State) (n : Nat), n < 16 →
    ∃ t, exec (.captureDrain n) s = .next t ∧ (t.cap n).queue = [] ∧ (t.cap n).snaps = [] ∧ OnlyAt [] (snapFlds n) [.cap n] s t)
  ∧ (∀ (s : State) (i : Instr) (who n v : Nat), (i = .cuEnable who n v ∨ i = .cuSnap who n v) → privileged who = true → n < 16 →
    let was := s.is .CU_CTRL_EN n
    let c := if was = false ∧ bit v 0 = true then { queue := (s.cap n).queue, snaps := (s.cap n).snaps } else s.cap n
    ∃ t, exec i s = .next t ∧ t.get .CU_CTRL_EN n = bits v 0 1 ∧ t.get .CU_CTRL_CLRSNAP n = bits v 2 1
      ∧ (was = false → t.get .CU_CTRL_MODE n = bits v 3 1 ∧ t.get .CU_CTRL_PSCOPE n = bits v 4 1 ∧ t.get .CU_CTRL_PART n = bits v 8 7
          ∧ t.get .CU_CTRL_SRC n = bits v 16 4)
      ∧ (was = true → OnlyAt [] ((.CU_CTRL_EN, n) :: (.CU_CTRL_CLRSNAP, n) :: snapFlds n) [.cap n] s t)
      ∧ (bit v 1 = false → t.cap n = c ∧ ∀ e ∈ snapFlds n, t.get e.1 e.2 = s.get e.1 e.2)
      ∧ (bit v 1 = true → (s.cap n).queue = [] → Snapped s t n c ∧ t.cap n = if bit v 2 then { snaps := c.snaps } else c)
      ∧ (bit v 1 = true → (s.cap n).queue ≠ [] → t.cap n = { c with snaps := c.snaps ++ [(c.queue.length, bit v 2)] }
          ∧ ∀ e ∈ snapFlds n, t.get e.1 e.2 = s.get e.1 e.2)
      ∧ OnlyAt [] ([(.CU_CTRL_EN, n), (.CU_CTRL_CLRSNAP, n), (.CU_CTRL_MODE, n), (.CU_CTRL_PSCOPE, n), (.CU_CTRL_PART, n),
          (.CU_CTRL_SRC, n)] ++ snapFlds n) [.cap n] s t)
  ∧ (∀ (s : State) (who n v : Nat), (privileged who = false ∨ 16 ≤ n) →
    exec (.cuEnable who n v) s = .next s ∧ exec (.cuSnap who n v) s = .next s)
  ∧ (∀ (s : State) (q p w : Nat) (d : Dump), look? (s.panel p).dumps w = some d → (s.panel p).part = some q →
    ceilDiv d.bytes.length 256 * 256 ≤ (s.part q).obwTok →
    let fn := (s.part q).ringFn
    let r := 12 + d.ring
    let fits := decide ((s.part q).staged + d.bytes.length ≤ (s.image q).img.egSize)
    let g := settleGap (s.ring fn r).gap ((s.ring fn r).frames
      ++ [{ fseq := (s.ring fn r).fseq, part := q, watch := true, step := fieldLE d.bytes 4 4, layer := d.layer, oper := d.oper, src := w,
            bytes := d.bytes, due := none, dropped := !fits }])
    ∃ t, exec (.watchDrain q p w) s = .next t
      ∧ (∀ x, look? (t.panel p).dumps x = if x = w then none else look? (s.panel p).dumps x)
      ∧ t.panel p = { s.panel p with dumps := (t.panel p).dumps }
      ∧ t.part q = { s.part q with obwTok := (s.part q).obwTok - ceilDiv d.bytes.length 256 * 256,
                                   staged := (s.part q).staged + (if fits then d.bytes.length else 0) }
      ∧ t.get .DBG_C_OBS_BYTES q = (s.get .DBG_C_OBS_BYTES q + ceilDiv d.bytes.length 256 * 256) % 2 ^ 64
      ∧ (t.ring fn r).fseq = ((s.ring fn r).fseq + 1) % 2 ^ 32 ∧ (t.ring fn r).gap = g.1
      ∧ (t.ring fn r).frames.map (fun y => { y with due := none }) = g.2.map (fun y => { y with due := none })
      ∧ (∀ k, k ≠ 16 * fn + r → look? t.hre.rings k = look? s.hre.rings k) ∧ { t.hre with rings := s.hre.rings } = s.hre
      ∧ t.get .RING_DROP_COUNT (16 * fn + r) =
          (if fits then s.get .RING_DROP_COUNT (16 * fn + r) else satAdd 32 (s.get .RING_DROP_COUNT (16 * fn + r)) 1)
      ∧ OnlyAt [] [(.DBG_C_OBS_BYTES, q), (.RING_DROP_COUNT, 16 * fn + r)] [.panel p, .part q, .hre] s t)
  ∧ (∀ (s : State) (q p w : Nat), (look? (s.panel p).dumps w = none ∨ (s.panel p).part ≠ some q
      ∨ ∃ d, look? (s.panel p).dumps w = some d ∧ (s.part q).obwTok < ceilDiv d.bytes.length 256 * 256) →
    exec (.watchDrain q p w) s = .next s)
  ∧ (∀ (s : State) (q : Nat), (s.part q).obwPrev + 128 ≤ s.tb.slots →
    ∃ t, exec (.obsBucketRefill q) s = .next t
      ∧ t.part q = { s.part q with obwTok := min (s.get .DBG_OBW_BYTES q) ((s.part q).obwTok + s.get .DBG_OBW_BYTES q), obwPrev := s.tb.slots }
      ∧ OnlyChanges [] [.part q] s t)
  ∧ (∀ (s : State) (q : Nat), s.tb.slots < (s.part q).obwPrev + 128 → exec (.obsBucketRefill q) s = .next s)
  ∧ (∀ (s : State) (who v : Nat), privileged who = true → bit v 0 = true → s.domOn 77 = true → (∀ d < 8, s.get .MON_DIE_TJ d < 256) →
    let q := bits v 8 7
    ∃ t, exec (.counterSnapshot who v) s = .next t ∧ t.get .DBG_SNAP_TALLY_TALLY = s.tally % 2 ^ 56 ∧ t.get .DBG_SNAP_CTRL_PART = q
      ∧ t.get .DBG_SNAP_CNT_COUNT 0 = s.get .DBG_C_HBM_SRD_BYTES q % 2 ^ 64 ∧ t.get .DBG_SNAP_CNT_COUNT 1 = s.get .DBG_C_HBM_SWR_BYTES q % 2 ^ 64
      ∧ t.get .DBG_SNAP_CNT_COUNT 2 = s.get .DBG_C_HBM_OTHER_BYTES q % 2 ^ 64 ∧ t.get .DBG_SNAP_CNT_COUNT 3 = s.get .DBG_C_PORT_TX_TUFTS q % 2 ^ 64
      ∧ t.get .DBG_SNAP_CNT_COUNT 4 = s.get .DBG_C_PORT_RX_TUFTS q % 2 ^ 64 ∧ t.get .DBG_SNAP_CNT_COUNT 5 = s.get .DBG_C_STITCH_TUFTS q % 2 ^ 64
      ∧ t.get .DBG_SNAP_CNT_COUNT 6 = s.get .DBG_C_OBS_BYTES q % 2 ^ 64 ∧ t.get .DBG_SNAP_ENV_PKGPWR = s.get .MON_BAND_PKGPWR % 2 ^ 16
      ∧ (∀ d < 8, s.get .MON_DIE_TJ d ≤ t.get .DBG_SNAP_ENV_TJMAX) ∧ (∃ d < 8, t.get .DBG_SNAP_ENV_TJMAX = s.get .MON_DIE_TJ d)
      ∧ OnlyChanges [.DBG_SNAP_CTRL_PART, .DBG_SNAP_TALLY_TALLY, .DBG_SNAP_CNT_COUNT, .DBG_SNAP_ENV_TJMAX, .DBG_SNAP_ENV_PKGPWR] [] s t)
  ∧ (∀ (s : State) (who v : Nat), (bit v 0 = false ∨ privileged who = false ∨ s.domOn 77 = false) →
    ∃ t, exec (.counterSnapshot who v) s = .next t ∧ OnlyChanges [.DBG_SNAP_CTRL_PART] [] s t
      ∧ (privileged who = true → s.domOn 77 = true → t.get .DBG_SNAP_CTRL_PART = bits v 8 7))
  ∧ (∀ (s : State) (who v tag : Nat), privileged who = true → bit v 0 = true → s.domOn 77 = true → s.is .DBG_DACC_CTRL_BUSY = false →
    s.freeRtag 19 = some tag →
    let a := s.get .DBG_DACC_ADDR_ADDR % 2 ^ 52
    let far := a / 2 ^ 48 != s.coord % 16
    let pk : Packet := { s.pkTo 19 (ownerStop (a % 2 ^ 48)) (bits v 4 7) (s.coord / 16 * 16 + a / 2 ^ 48) (.read (a % 2 ^ 48) 8) with
                         rxp := true, rtag := tag, dbg := if bit v 1 && far then none else some (false, s.get .DBG_CTRL_SESSION) }
    ∃ t, exec (.debugRead who v) s = .next t ∧ t.is .DBG_DACC_CTRL_BUSY = true ∧ t.get .DBG_DACC_CTRL_SIDE = bits v 1 1
      ∧ t.get .DBG_DACC_CTRL_PART = bits v 4 7 ∧ (bit v 3 = true → t.get .DBG_DACC_CTRL_ERR = 0)
      ∧ (∀ k, look [] t.ctl.wait k = if k = 38 then look [] s.ctl.wait k ++ [pk] else look [] s.ctl.wait k)
      ∧ (∀ k, look? t.ctl.reqs k = if k = 256 * 19 + tag then
          some { purp := .dacc (bit v 1), due := s.tick + usTicks (max 1 (s.get .CTN_REQ_TO_TIMEOUT)) } else look? s.ctl.reqs k)
      ∧ t.ctl.bufs = s.ctl.bufs ∧ t.ctl.ejq = s.ctl.ejq ∧ t.ctl.retired = s.ctl.retired
      ∧ (bit v 1 = true → Raised { code := 0xD008, part := some (bits v 4 7), skind := 8, sindex := 19, detail := a } s t)
      ∧ (bit v 1 = false → OnlyChanges [.DBG_DACC_CTRL_BUSY, .DBG_DACC_CTRL_SIDE, .DBG_DACC_CTRL_PART, .DBG_DACC_CTRL_ERR] [.ctl] s t)
      ∧ OnlyChanges (evFlds ++ ([.DBG_DACC_CTRL_BUSY, .DBG_DACC_CTRL_SIDE, .DBG_DACC_CTRL_PART, .DBG_DACC_CTRL_ERR] : List Fld)) (evComps ++ ([.ctl] : List Comp)) s t)
  ∧ (∀ (s : State) (who v : Nat), (s.is .DBG_DACC_CTRL_BUSY = true ∨ bit v 0 = false ∨ privileged who = false ∨ s.domOn 77 = false
      ∨ s.freeRtag 19 = none) →
    ∃ t, exec (.debugRead who v) s = .next t ∧ OnlyChanges [.DBG_DACC_CTRL_SIDE, .DBG_DACC_CTRL_PART, .DBG_DACC_CTRL_ERR] [] s t
      ∧ (privileged who = true → s.domOn 77 = true → t.get .DBG_DACC_CTRL_SIDE = bits v 1 1 ∧ t.get .DBG_DACC_CTRL_PART = bits v 4 7
          ∧ (bit v 3 = true → t.get .DBG_DACC_CTRL_ERR = 0)))

/-- The event log: records, freezing and clearing (15_event_recorder.md). -/
def Obligations.EventLog : Prop :=
  (∀ (s : State) (e : Ev), ∃ t, exec (.event e) s = .next t ∧ Raised e s t ∧ OnlyChanges evFlds (evComps ++ ([.ctl] : List Comp)) s t)
  ∧ (∀ (s : State) (e : Ev), s.is .EVR_FREEZE_FREEZE = false →
    ∃ t u, exec (.event e) s = .next t ∧ OnlyTook 17 false (fun p => p.payload == .event e) s u ∧ EventTakes u t e)
  ∧ (∀ (s : State) (e : Ev), s.is .EVR_FREEZE_FREEZE = true →
    ∃ t u, exec (.event e) s = .next t ∧ OnlyTook 17 false (fun p => p.payload == .event e) s u
      ∧ Copies u t { s.mkRec e with froze := true }
      ∧ (evSev e.code = 3 → s.evr.hold.length < 8 →
          t.evr = { s.evr with hold := s.evr.hold ++ [s.mkRec e] } ∧ OnlyChanges [.RING_STAT_DIDX] evComps u t)
      ∧ (evSev e.code = 3 → 8 ≤ s.evr.hold.length → t.get .EVR_OVF_COUNT = satAdd 32 (s.get .EVR_OVF_COUNT) 1
          ∧ OnlyChanges [.RING_STAT_DIDX, .EVR_OVF_COUNT] [.hre, .out] u t)
      ∧ (evSev e.code ≠ 3 → t.get .EVR_FRZ_CNT_COUNT = satAdd 32 (s.get .EVR_FRZ_CNT_COUNT) 1
          ∧ OnlyChanges [.RING_STAT_DIDX, .EVR_FRZ_CNT_COUNT] [.hre, .out] u t))
  ∧ (∀ (s : State) (who v : Nat), privileged who = true → bit v 0 = true → s.is .EVR_FREEZE_FREEZE = false →
    ∃ t, exec (.evrFreeze who v) s = .next t ∧ t.is .EVR_FREEZE_FREEZE = true ∧ t.is .EVR_STAT_FROZEN = true
      ∧ t.get .EVR_FRZ_CNT_COUNT = 0 ∧ t.get .EVR_FREEZE_LIMIT = bits v 16 16
      ∧ t.evr = { s.evr with deadline := s.tick + usTicks (max 1 (bits v 16 16)) }
      ∧ OnlyAt [] [(.EVR_FREEZE_FREEZE, 0), (.EVR_FREEZE_LIMIT, 0), (.EVR_STAT_FROZEN, 0), (.EVR_FRZ_CNT_COUNT, 0)] [.evr] s t)
  ∧ (∀ (s : State) (who v : Nat), privileged who = true → bit v 0 = true → s.is .EVR_FREEZE_FREEZE = true →
    ∃ t, exec (.evrFreeze who v) s = .next t ∧ t.get .EVR_FREEZE_LIMIT = bits v 16 16 ∧ OnlyAt [] [(.EVR_FREEZE_LIMIT, 0)] [] s t)
  ∧ (∀ (s : State) (who v : Nat), privileged who = true → bit v 0 = false → s.is .EVR_FREEZE_FREEZE = true →
    ∃ t, exec (.evrUnfreeze who v) s = .next t ∧ LogReleased s t (bits v 16 16))
  ∧ (∀ (s : State) (who v : Nat), privileged who = true → bit v 0 = false → s.is .EVR_FREEZE_FREEZE = false →
    ∃ t, exec (.evrUnfreeze who v) s = .next t ∧ t.get .EVR_FREEZE_LIMIT = bits v 16 16 ∧ OnlyAt [] [(.EVR_FREEZE_LIMIT, 0)] [] s t)
  ∧ (∀ (s : State) (who v : Nat), privileged who = false →
    ∃ t u, exec (.evrFreeze who v) s = .next t ∧ OnlyChanges [] [] s t ∧ exec (.evrUnfreeze who v) s = .next u ∧ OnlyChanges [] [] s u)
  ∧ (∀ (s : State) (who v : Nat), bit v 0 = false → exec (.evrFreeze who v) s = .next s)
  ∧ (∀ (s : State) (who v : Nat), bit v 0 = true → exec (.evrUnfreeze who v) s = .next s)
  ∧ (∀ (s : State), s.is .EVR_FREEZE_FREEZE = true → s.evr.deadline ≤ s.tick →
    ∃ t u w, exec .freezeLimit s = .next t ∧ LogReleased s u (s.get .EVR_FREEZE_LIMIT) ∧ w.is .EVR_STAT_FRZ_TO = true
      ∧ OnlyAt [] [(.EVR_STAT_FRZ_TO, 0)] [] u w
      ∧ EventTakes w t { code := 0xC003, skind := 12, detail := s.get .EVR_FRZ_CNT_COUNT })
  ∧ (∀ (s : State), s.is .EVR_FREEZE_FREEZE = false ∨ s.tick < s.evr.deadline → exec .freezeLimit s = .next s)
  ∧ (∀ (s : State) (quote : Nat), ∃ t, exec (.clearArm 129 quote) s = .next t ∧ t.is .EVR_STAT_ARMED = true
      ∧ t.evr = { s.evr with armed := some (quote % 2 ^ 32, s.tick + usTicks 1000) } ∧ OnlyAt [] [(.EVR_STAT_ARMED, 0)] [.evr] s t)
  ∧ (∀ (s : State) (who quote : Nat), who ≠ 129 → s.is .EVR_FREEZE_FREEZE = false →
    ∃ t, exec (.clearArm who quote) s = .next t ∧ exec (.clearCommit who quote) s = .next t ∧ EventTakes s t (refusedClear quote 1))
  ∧ (∀ (s : State) (who quote : Nat), who ≠ 129 → s.is .EVR_FREEZE_FREEZE = true →
    ∃ t, exec (.clearArm who quote) s = .next t ∧ exec (.clearCommit who quote) s = .next t
      ∧ t.evr = { s.evr with kept := s.evr.kept ++ [refusedClear quote 1] } ∧ OnlyChanges [] [.evr] s t)
  ∧ (∀ (s : State) (quote t0 : Nat), s.is .EVR_FREEZE_FREEZE = false → s.evr.armed = some (quote % 2 ^ 32, t0) → s.tick < t0 →
    s.get .EVR_WRITTEN_COUNT = quote % 2 ^ 32 →
    ∃ t u, exec (.clearCommit 129 quote) s = .next t ∧ u.evr = { s.evr with log := [], last := [], armed := none }
      ∧ u.is .EVR_STAT_ARMED = false ∧ u.get .EVR_NEXT_SLOT = 0 ∧ u.get .EVR_WRITTEN_COUNT = 0 ∧ u.get .EVR_DROP_COUNT = 0
      ∧ u.get .EVR_OVF_COUNT = 0
      ∧ OnlyAt [] [(.EVR_STAT_ARMED, 0), (.EVR_NEXT_SLOT, 0), (.EVR_WRITTEN_COUNT, 0), (.EVR_DROP_COUNT, 0), (.EVR_OVF_COUNT, 0)] [.evr] s u
      ∧ EventTakes u t { code := 0xC001, skind := 12, detail := quote % 2 ^ 32 + s.get .EVR_OVF_COUNT * 2 ^ 32 }
      ∧ ∃ r, t.evr.log = [(0, r)] ∧ r.code = 0xC001 ∧ r.sev = 3)
  ∧ (∀ (s : State) (quote reason : Nat), s.is .EVR_FREEZE_FREEZE = false →
    ((∀ t0, s.evr.armed = some (quote % 2 ^ 32, t0) → t0 ≤ s.tick) ∧ reason = 2)
      ∨ ((∃ t0, s.evr.armed = some (quote % 2 ^ 32, t0) ∧ s.tick < t0) ∧ s.get .EVR_WRITTEN_COUNT ≠ quote % 2 ^ 32 ∧ reason = 3) →
    ∃ t u, exec (.clearCommit 129 quote) s = .next t ∧ u.is .EVR_STAT_STALE = true ∧ u.is .EVR_STAT_ARMED = false
      ∧ u.evr = { s.evr with armed := none } ∧ OnlyAt [] [(.EVR_STAT_STALE, 0), (.EVR_STAT_ARMED, 0)] [.evr] s u
      ∧ EventTakes u t (refusedClear quote reason))
  ∧ (∀ (s : State) (quote : Nat), s.is .EVR_FREEZE_FREEZE = true →
    ∃ t, exec (.clearCommit 129 quote) s = .next t ∧ t.evr = { s.evr with armed := none, kept := s.evr.kept ++ [refusedClear quote 4] }
      ∧ t.is .EVR_STAT_STALE = true ∧ t.is .EVR_STAT_ARMED = false
      ∧ OnlyAt [] [(.EVR_STAT_STALE, 0), (.EVR_STAT_ARMED, 0)] [.evr] s t)
  ∧ (∀ (s : State) (quote t0 : Nat), s.evr.armed = some (quote, t0) → t0 ≤ s.tick →
    ∃ t, exec .clearArmLapse s = .next t ∧ t.evr = { s.evr with armed := none } ∧ t.is .EVR_STAT_ARMED = false
      ∧ OnlyAt [] [(.EVR_STAT_ARMED, 0)] [.evr] s t)
  ∧ (∀ (s : State), (∀ quote t0, s.evr.armed = some (quote, t0) → s.tick < t0) → exec .clearArmLapse s = .next s)

/-- Resets and the stages of boot (17_reset_boot_package.md, 07_inside_the_hood.md, 08_boards_racks_slices.md, 15_event_recorder.md). Which of
the failing groups the event of a stitch that is down names is free (log entry 117). -/
def Obligations.Boot : Prop :=
  (∀ (s : State) (p : Bool), ∃ t, exec (if p then .coldReset else .powerDown) s = .next t ∧ Emptied t ∧ (∀ f i, t.get f i = f.info.reset)
      ∧ t.tb = {} ∧ t.evr = {} ∧ t.panels = [] ∧ t.boot = { bareBoot s.boot with powered := p } ∧ t.out = s.out ∧ t.free = s.free
      ∧ t.pending = s.pending)
  ∧ (∀ (s : State) (pwrOk : Bool), s.boot.powered = true → ∃ t, exec (.systemReset pwrOk) s = .next t ∧ SystemReset s t pwrOk
      ∧ t.boot.tapInstr = s.boot.tapInstr)
  ∧ (∀ (s : State) (pwrOk : Bool), s.boot.powered = false → exec (.systemReset pwrOk) s = .next s)
  ∧ (∀ (s : State) (st : Straps), s.boot.powered = true → s.boot.released = false → holdsReset s.boot.tapInstr = false →
    ∃ t, exec (.resetRelease st) s = .next t
      ∧ t.boot = { s.boot with straps := st, released := true, faultLow := t.boot.faultLow } ∧ t.get .MBX_BOOT_STAGE = 1
      ∧ t.get .LNK_COORD_SLOT = st.slot % 16 ∧ t.get .LNK_COORD_BOARD = st.board % 16 ∧ t.get .LNK_COORD_BSIZE = b2n st.bsize
      ∧ t.get .MBX_BOOT_BOOTSEL = st.bootSrc % 4 ∧ t.get .MBX_BOOT_TEST = b2n st.testEn ∧ FaultShown t ∧ FaultPut s t
      ∧ OnlyChanges [.LNK_COORD_SLOT, .LNK_COORD_BOARD, .LNK_COORD_BSIZE, .MBX_BOOT_BOOTSEL, .MBX_BOOT_TEST, .MBX_BOOT_STAGE,
          .MBX_BOOT_FAULT_IN] [.boot, .out] s t)
  ∧ (∀ (s : State) (st : Straps), s.boot.powered = false ∨ s.boot.released = true ∨ holdsReset s.boot.tapInstr = true →
    exec (.resetRelease st) s = .next s)
  ∧ (∀ (s : State), s.inStage 1 = true →
    ∃ t, exec .bootRom s = .next t ∧ t.get .IDN_DEV_STEPPING = s.boot.fuseStep % 2 ^ 8 ∧ t.get .IDN_DEV_GRADE = s.boot.fuseGrade % 4
      ∧ t.get .IDN_DEV_DCLASS = s.boot.fuseClass % 2 ^ 8 ∧ t.get .CHK_CLASS_DCLASS = s.boot.fuseClass % 2 ^ 8
      ∧ t.get .IDN_SVN_SVN_MIN = s.boot.fuseSvn % 2 ^ 16 ∧ (∀ k < 6, t.get .IDN_KEYDIG_KEYDIG k = look 0 s.boot.fuseKey k % 2 ^ 64)
      ∧ (∀ k < 9, t.get .IDN_DIE_POS k = s.fusePos k % 16 ∧ t.get .IDN_SERIAL_SERIAL k = look 0 s.boot.fuseSer k % 2 ^ 64)
      ∧ (∀ k < 64, t.get .IDN_FAIL_FAILCOL k = look 0x1F s.boot.fuseFail k % 32
          ∧ t.get .IDN_FAIL_SPARE_BAD k = look 0 s.boot.fuseBad k % 2
          ∧ t.get .PNL_HOOD_FUSED (136 * (k / 8) + 17 * (k % 8) + 16) = look 0 s.boot.fuseBad k % 2
          ∧ ∀ c < 16, t.get .PNL_HOOD_FUSED (136 * (k / 8) + 17 * (k % 8) + c) =
              if look 0x1F s.boot.fuseFail k = c then 1 else s.get .PNL_HOOD_FUSED (136 * (k / 8) + 17 * (k % 8) + c))
      ∧ (s.boot.fuseGrade = 1 → t.get .PWR_PACE_FLOOR_FLOOR = 0xB8
          ∧ ∀ d < 8, t.get .PWR_PACE_CTRL_TARGET d = 0xB8 ∧ t.get .PWR_PACE_CTRL_APPLIED d = 0xB8)
      ∧ (s.boot.fuseGrade ≠ 1 → t.get .PWR_PACE_FLOOR_FLOOR = s.get .PWR_PACE_FLOOR_FLOOR
          ∧ ∀ d, t.get .PWR_PACE_CTRL_TARGET d = s.get .PWR_PACE_CTRL_TARGET d ∧ t.get .PWR_PACE_CTRL_APPLIED d = s.get .PWR_PACE_CTRL_APPLIED d)
      ∧ StageDone s t 2 [.IDN_DEV_STEPPING, .IDN_DEV_GRADE, .IDN_DEV_DCLASS, .IDN_SVN_SVN_MIN, .CHK_CLASS_DCLASS, .IDN_KEYDIG_KEYDIG,
          .IDN_DIE_POS, .IDN_SERIAL_SERIAL, .IDN_FAIL_FAILCOL, .IDN_FAIL_SPARE_BAD, .PNL_HOOD_FUSED, .PWR_PACE_FLOOR_FLOOR,
          .PWR_PACE_CTRL_TARGET, .PWR_PACE_CTRL_APPLIED] [] [])
  ∧ (∀ (s : State) (a b : Bool), s.inStage 2 = true → s.boot.wait = false → s.get .MBX_BOOT_BOOTSEL = 0 → a = true ∨ b = true →
    ∃ t, exec (.firmware a b) s = .next t ∧ FirmwareIn s t (if a then 0 else 1) [])
  ∧ (∀ (s : State), s.inStage 2 = true → s.boot.wait = false → s.get .MBX_BOOT_BOOTSEL = 0 →
    ∃ t, exec (.firmware false false) s = .next t ∧ t.get .MBX_BOOT_ERR = 1 ∧ FaultShown t ∧ FaultPut s t
      ∧ t.boot = { s.boot with wait := true, faultLow := t.boot.faultLow }
      ∧ OnlyChanges [.MBX_BOOT_ERR, .MBX_BOOT_FAULT_IN] [.boot, .out] s t)
  ∧ (∀ (s : State) (a b : Bool), s.inStage 2 = true → s.boot.wait = false → s.get .MBX_BOOT_BOOTSEL ≠ 0 →
    ∃ t, exec (.firmware a b) s = .next t ∧ t.boot = { s.boot with wait := true } ∧ OnlyChanges [] [.boot] s t)
  ∧ (∀ (s : State) (who v : Nat), privileged who = true → bit v 0 = true → s.waitsPush = true → s.is .MBX_PUSH_CTRL_BUSY = false →
    s.linkUp = true →
    ∃ t, exec (.pushGo who v) s = .next t ∧ t.is .MBX_PUSH_CTRL_BUSY = true ∧ t.boot = { s.boot with pushSrc := 2 }
      ∧ t.get .MBX_PUSH_CTRL_FAIL = (if bit v 2 then 0 else s.get .MBX_PUSH_CTRL_FAIL % 2)
      ∧ (∀ x ∈ pieces s.readMax (s.get .MBX_PUSH_ADDR_ADDR) (s.get .MBX_PUSH_LEN_LEN),
          Reading .push (s.get .MBX_PUSH_ADDR_ADDR + x.1) x.2 s t)
      ∧ t.hre.rings = s.hre.rings ∧ t.hre.funcs = s.hre.funcs ∧ OnlyAt [] [(.MBX_PUSH_CTRL_BUSY, 0), (.MBX_PUSH_CTRL_FAIL, 0)] [.boot, .hre, .out] s t)
  ∧ (∀ (s : State) (who v : Nat), privileged who = true → bit v 0 = true → s.waitsPush = true → s.is .MBX_PUSH_CTRL_BUSY = false →
    s.linkUp = false → 0 < s.get .MBX_PUSH_LEN_LEN →
    ∃ t, exec (.pushGo who v) s = .next t ∧ t.is .MBX_PUSH_CTRL_BUSY = false ∧ t.is .MBX_PUSH_CTRL_FAIL = true
      ∧ t.boot = { s.boot with pushSrc := 2 } ∧ t.hre.rings = s.hre.rings ∧ t.hre.funcs = s.hre.funcs
      ∧ OnlyAt [] [(.MBX_PUSH_CTRL_BUSY, 0), (.MBX_PUSH_CTRL_FAIL, 0)] [.boot, .hre] s t)
  ∧ (∀ (s : State) (who v : Nat), privileged who = true → bit v 0 = true → s.waitsPush = false ∨ s.is .MBX_PUSH_CTRL_BUSY = true →
    ∃ t, exec (.pushGo who v) s = .next t ∧ t.is .MBX_PUSH_CTRL_FAIL = true ∧ OnlyAt [] [(.MBX_PUSH_CTRL_FAIL, 0)] [] s t)
  ∧ (∀ (s : State) (who v : Nat), privileged who = true → bit v 0 = false →
    ∃ t, exec (.pushGo who v) s = .next t ∧ t.get .MBX_PUSH_CTRL_FAIL = (if bit v 2 then 0 else s.get .MBX_PUSH_CTRL_FAIL % 2)
      ∧ OnlyAt [] [(.MBX_PUSH_CTRL_FAIL, 0)] [] s t)
  ∧ (∀ (s : State) (who v : Nat), privileged who = false → exec (.pushGo who v) s = .next s ∧ exec (.setupCommit who v) s = .next s)
  ∧ (∀ (s : State), s.waitsPush = true → s.is .MBX_PUSH_CTRL_BUSY = true → (∀ x ∈ s.hre.dma, x.2.purp ≠ .push) →
    (∀ x ∈ s.hre.dmaWait, x.1 ≠ .push) →
    ∃ t u, exec (.pushVerifyDone true) s = .next t ∧ FirmwareIn s t s.boot.pushSrc [.MBX_PUSH_CTRL_BUSY]
      ∧ t.is .MBX_PUSH_CTRL_BUSY = false
      ∧ exec (.pushVerifyDone false) s = .next u ∧ u.is .MBX_PUSH_CTRL_FAIL = true ∧ u.is .MBX_PUSH_CTRL_BUSY = false ∧ u.waitsPush = true
      ∧ OnlyAt [] [(.MBX_PUSH_CTRL_BUSY, 0), (.MBX_PUSH_CTRL_FAIL, 0)] [] s u)
  ∧ (∀ (s : State) (ok : Bool), s.waitsPush = false ∨ s.is .MBX_PUSH_CTRL_BUSY = false ∨ (∃ x ∈ s.hre.dma, x.2.purp = .push)
      ∨ (∃ x ∈ s.hre.dmaWait, x.1 = .push) → exec (.pushVerifyDone ok) s = .next s)
  ∧ (∀ (s : State) (ok : Bool), s.inStage 3 = true → (∀ k, ¬ DieBad s k) →
    ∃ t, exec (.fuseAndStrapChecks ok) s = .next t
      ∧ (ok = false → BootStopped s t 6 [] [])
      ∧ (ok = true → s.boot.straps.bsize = false → 8 ≤ s.boot.straps.slot → BootStopped s t 5 (.LNK_COORD_STRAP_BAD :: evFlds) evComps
          ∧ t.is .LNK_COORD_STRAP_BAD = true ∧ Raised { code := 0x4004, detail := s.boot.straps.slot } s t)
      ∧ (ok = true → s.boot.straps.bsize = true ∨ s.boot.straps.slot < 8 → StageDone s t 4 [] [] []))
  ∧ (∀ (s : State) (ok : Bool) (k : Nat), s.inStage 3 = true → DieBad s k → (∀ j < k, ¬ DieBad s j) →
    ∃ t, exec (.fuseAndStrapChecks ok) s = .next t ∧ BootStopped s t 2 evFlds evComps
      ∧ Raised { code := 0x5001, skind := 13, sindex := k, detail := s.fusePos k } s t)
  ∧ (∀ (s : State) (m : Nat), s.inStage 4 = true →
    ∃ t, exec (.hbmTraining m) s = .next t ∧ t.get .MEM_STAT_TRAINED = m % 256
      ∧ (m % 256 = 255 → StageDone s t 5 [.MEM_STAT_TRAINED] [] [])
      ∧ (m % 256 ≠ 255 → BootStopped s t 3 (.MEM_STAT_TRAINED :: evFlds) evComps
          ∧ RaisedAll (((List.range 8).filter (fun d => !bit m d)).map (fun d => { code := 0x5003, skind := 10, sindex := d })) s t))
  ∧ (∀ (s : State) (l : List (Nat × Bool × Nat)), s.inStage 5 = true →
    ∃ t, exec (.stitchTraining l) s = .next t
      ∧ (∀ x < 22, SpareIs l x true (t.get .MEM_T_STAT_SPARE_E x) ∧ SpareIs l x false (t.get .MEM_T_STAT_SPARE_W x)
          ∧ (TwoFailed l x → t.is .MEM_T_STAT_UP x = false) ∧ (¬ TwoFailed l x → t.is .MEM_T_STAT_UP x = true))
      ∧ ((∀ x < 22, ¬ StitchPosBad s x ∧ ¬ TwoFailed l x) → t.is .MEM_STAT_STITCH_OK = true ∧ t.is .MEM_STAT_ID_OK = true
          ∧ StageDone s t 6 (trainFlds ++ ([.MEM_STAT_STITCH_OK, .MEM_STAT_ID_OK] : List Fld)) [] [])
      ∧ (∀ bad : List Nat, bad ≠ [] → bad.Nodup → (∀ x, x ∈ bad ↔ x < 22 ∧ StitchPosBad s x) →
          BootStopped s t 2 (trainFlds ++ evFlds) evComps
            ∧ RaisedAll (bad.map (fun x => { code := 0x5001, skind := 9, sindex := x,
                                             detail := s.fusePos (if x < 6 then stitchDie x 1 else (x - 6) / 2) })) s t)
      ∧ ((∀ x < 22, ¬ StitchPosBad s x) → ∀ down : List Nat, down ≠ [] → down.Nodup → (∀ x, x ∈ down ↔ x < 22 ∧ TwoFailed l x) →
          BootStopped s t 4 (trainFlds ++ evFlds) (.free :: evComps)
            ∧ ∃ g : Nat → Nat, (∀ x ∈ down, g x < 16 ∧ ∃ east, (x, east, g x) ∈ l)
                ∧ RaisedAll (down.map (fun x => { code := 0x5002, skind := 9, sindex := x, detail := g x })) s t))
  ∧ (∀ (s : State) (m : Nat), s.inStage 6 = true →
    ∃ t, exec (.portTraining m) s = .next t
      ∧ (∀ p < 32, bit m p = true → s.spare p = false → t.is .LNK_P_STAT_UP p = true ∧ t.get .LNK_P_CONF_STATE p = 0
          ∧ t.port p = { crown := (s.port p).crown, unanswered := (s.port p).unanswered, probes := (s.port p).probes })
      ∧ (∀ p, 32 ≤ p ∨ bit m p = false ∨ s.spare p = true → t.get .LNK_P_STAT_UP p = s.get .LNK_P_STAT_UP p
          ∧ t.get .LNK_P_CONF_STATE p = s.get .LNK_P_CONF_STATE p ∧ look? t.ports p = look? s.ports p)
      ∧ StageDone s t 7 [.LNK_P_STAT_UP, .LNK_P_CONF_STATE] [] [.ports])
  ∧ (∀ (s : State) (a b : Bool) (m : Nat) (l : List (Nat × Bool × Nat)),
    (s.inStage 1 = false → exec .bootRom s = .next s)
    ∧ (s.inStage 2 = false ∨ s.boot.wait = true → exec (.firmware a b) s = .next s)
    ∧ (s.inStage 3 = false → exec (.fuseAndStrapChecks a) s = .next s) ∧ (s.inStage 4 = false → exec (.hbmTraining m) s = .next s)
    ∧ (s.inStage 5 = false → exec (.stitchTraining l) s = .next s) ∧ (s.inStage 6 = false → exec (.portTraining m) s = .next s))
  ∧ (∀ (s : State) (who v : Nat), privileged who = true → bit v 0 = true → s.get .MBX_BOOT_STAGE = 7 → s.is .LNK_COORD_RACKSET = true →
    ∃ t, exec (.setupCommit who v) s = .next t ∧ t.is .MBX_SETUP_COMMITTED = true ∧ t.get .MBX_BOOT_STAGE = 8
      ∧ t.get .MBX_SETUP_REFUSED = (if bit v 2 then 0 else s.get .MBX_SETUP_REFUSED % 2)
      ∧ (s.is .LNK_COORD_STRAP_BAD = false → s.is .LNK_CONF_STAT_BUSY = false → s.anyBusy = false → ConfStarted s t
          ∧ OnlyChanges (confFlds ++ ([.MBX_SETUP_COMMITTED, .MBX_SETUP_REFUSED, .MBX_BOOT_STAGE] : List Fld)) [.ports, .boot] s t)
      ∧ (s.is .LNK_COORD_STRAP_BAD = true ∨ s.is .LNK_CONF_STAT_BUSY = true ∨ s.anyBusy = true → t.is .LNK_CONF_STAT_REFUSED = true
          ∧ OnlyChanges [.LNK_CONF_STAT_REFUSED, .MBX_SETUP_COMMITTED, .MBX_SETUP_REFUSED, .MBX_BOOT_STAGE] [] s t))
  ∧ (∀ (s : State) (who v : Nat), privileged who = true → bit v 0 = true → s.get .MBX_BOOT_STAGE ≠ 7 ∨ s.is .LNK_COORD_RACKSET = false →
    ∃ t, exec (.setupCommit who v) s = .next t ∧ t.is .MBX_SETUP_REFUSED = true ∧ OnlyAt [] [(.MBX_SETUP_REFUSED, 0)] [] s t)
  ∧ (∀ (s : State) (who v : Nat), privileged who = true → bit v 0 = false →
    ∃ t, exec (.setupCommit who v) s = .next t ∧ t.get .MBX_SETUP_REFUSED = (if bit v 2 then 0 else s.get .MBX_SETUP_REFUSED % 2)
      ∧ OnlyAt [] [(.MBX_SETUP_REFUSED, 0)] [] s t)

/-- SMBus commands, the thermal trip and the TAP (17_reset_boot_package.md, 16_watching_a_run.md). The levels sampled at the lands are free
values (log entry 8). -/
def Obligations.Package : Prop :=
  (∀ (s : State), s.boot.released = true →
    (∃ t, exec .bootStatus s = .next t ∧ OnlyChanges [] [.out] s t ∧ t.out = s.out ++ ([.smbus (toLE 2 (s.get .MBX_BOOT_STAGE
        + s.get .MBX_BOOT_ERR * 2 ^ 8 + s.get .MBX_BOOT_SRC * 2 ^ 12 + s.get .MBX_BOOT_BOOTSEL * 2 ^ 14))] : List Out))
    ∧ (∃ t, exec .coord s = .next t ∧ OnlyChanges [] [.out] s t ∧ t.out = s.out ++ ([.smbus (toLE 2 (s.coord
        + s.get .LNK_COORD_BSIZE * 2 ^ 12 + s.get .LNK_COORD_RACKSET * 2 ^ 13 + s.get .LNK_COORD_STRAP_BAD * 2 ^ 14))] : List Out))
    ∧ (∃ t, exec .fault s = .next t ∧ OnlyChanges [] [.out] s t ∧ t.out = s.out ++ ([.smbus (toLE 1 (s.get .MBX_FAULT_FORCE
        + s.get .MBX_FAULT_OVERTEMP * 2 + s.get .MBX_FAULT_AVS * 4 + s.get .MBX_FAULT_TRIP * 8))] : List Out)))
  ∧ (∀ (s : State), s.boot.released = false → exec .bootStatus s = .next s ∧ exec .coord s = .next s ∧ exec .fault s = .next s)
  ∧ (∀ (s : State) (bs : List Byte), s.waitsPush = true → bs.length = 36 → fieldLE bs 0 4 % 32 = 0 →
    ∃ t, exec (.fwBlock bs) s = .next t ∧ Stored s.boot.push t.boot.push (fieldLE bs 0 4) (bs.drop 4)
      ∧ t.boot = { s.boot with push := t.boot.push } ∧ OnlyChanges [] [.boot] s t)
  ∧ (∀ (s : State) (bs : List Byte), s.waitsPush = false ∨ bs.length ≠ 36 ∨ fieldLE bs 0 4 % 32 ≠ 0 → exec (.fwBlock bs) s = .next s)
  ∧ (∀ (s : State) (n : Nat), s.waitsPush = true → s.is .MBX_PUSH_CTRL_BUSY = false → n < 256 →
    ∃ t, exec (.fwDone n) s = .next t ∧ t.is .MBX_PUSH_CTRL_BUSY = true ∧ t.boot = { s.boot with pushSrc := 3 }
      ∧ OnlyAt [] [(.MBX_PUSH_CTRL_BUSY, 0)] [.boot] s t)
  ∧ (∀ (s : State) (n : Nat), s.waitsPush = false ∨ s.is .MBX_PUSH_CTRL_BUSY = true ∨ 256 ≤ n → exec (.fwDone n) s = .next s)
  ∧ (∀ (s : State), s.boot.released = true → (∀ q < 128, s.allotHeld q = false) → s.is .LNK_CONF_STAT_BUSY = false →
    s.get .PWR_SHELF_STATE = 0 →
    ∃ t, exec (.shelf 1) s = .next t ∧ t.get .PWR_SHELF_STATE = 1 ∧ PortsFell s t (portsUp s)
      ∧ OnlyChanges (evFlds ++ ([.PWR_SHELF_STATE, .LNK_P_STAT_UP, .LNK_P_CONF_STATE] : List Fld)) powerComps s t)
  ∧ (∀ (s : State), s.boot.released = true → (∃ q < 128, s.allotHeld q = true) ∨ s.is .LNK_CONF_STAT_BUSY = true
      ∨ s.get .PWR_SHELF_STATE ≠ 0 →
    ∃ t, exec (.shelf 1) s = .next t ∧ t.is .PWR_SHELF_REFUSED = true ∧ OnlyAt [] [(.PWR_SHELF_REFUSED, 0)] [] s t)
  ∧ (∀ (s : State), s.boot.released = true → s.get .PWR_SHELF_STATE = 2 →
    ∃ t, exec (.shelf 2) s = .next t ∧ t.get .PWR_SHELF_STATE = 3 ∧ t.get .PWR_SHELF_SRC = 2
      ∧ OnlyAt [] [(.PWR_SHELF_STATE, 0), (.PWR_SHELF_SRC, 0)] [] s t)
  ∧ (∀ (s : State), s.boot.released = true → s.get .PWR_SHELF_STATE = 1 →
    ∃ t, exec (.shelf 2) s = .next t ∧ t.boot = { s.boot with wake := some 2 } ∧ OnlyChanges [] [.boot] s t)
  ∧ (∀ (s : State) (code : Nat), s.boot.released = false ∨ (code ≠ 1 ∧ code ≠ 2)
      ∨ (code = 2 ∧ s.get .PWR_SHELF_STATE ≠ 1 ∧ s.get .PWR_SHELF_STATE ≠ 2) → exec (.shelf code) s = .next s)
  ∧ (∀ (s : State) (code : Nat), exec (.smbusPecReject code) s = .next s)
  ∧ (∀ (s : State) (die : Nat), s.boot.powered = true → s.boot.tripped = false → die ≤ 8 →
    ∃ t, exec (.thermalTrip die) s = .next t ∧ t.is .MBX_FAULT_TRIP = true
      ∧ t.boot = { s.boot with tripped := true, faultLow := t.boot.faultLow } ∧ FaultShown t ∧ FaultPut s t
      ∧ .pin "THERMTRIP_N" false ∈ t.out ∧ OnlyChanges [.MBX_FAULT_TRIP, .MBX_BOOT_FAULT_IN] [.boot, .out] s t)
  ∧ (∀ (s : State) (die : Nat), s.boot.powered = false ∨ s.boot.tripped = true ∨ 8 < die → exec (.thermalTrip die) s = .next s)
  ∧ (∀ (s : State), s.boot.released = true → ∀ c ∈ ([(.extest, 0), (.highz, 3), (.clamp, 4), (.extestPulse, 5), (.extestTrain, 6)] : List (Instr × Nat)),
    ∃ t, exec c.1 s = .next t ∧ SystemReset s t true ∧ t.boot.tapInstr = c.2 ∧ holdsReset t.boot.tapInstr = true)
  ∧ (∀ (s : State), s.boot.released = false → ∀ c ∈ ([(.extest, 0), (.highz, 3), (.clamp, 4), (.extestPulse, 5), (.extestTrain, 6)] : List (Instr × Nat)),
    ∃ t, exec c.1 s = .next t ∧ t.boot = { s.boot with tapInstr := c.2 } ∧ OnlyChanges [] [.boot] s t)
  ∧ (∀ (s : State) (v : Nat), ∃ t w, exec (.samplePreload v) s = .next t ∧ t.boot = { s.boot with tapInstr := 1, boundary := v }
      ∧ t.out = s.out ++ ([.tdo w] : List Out) ∧ t.free = s.free + 1 ∧ OnlyChanges [] [.boot, .out, .free] s t)
  ∧ (∀ (s : State), ∃ t, exec .idcode s = .next t ∧ t.out = s.out ++ ([.tdo 0x2E710B47] : List Out) ∧ t.boot = { s.boot with tapInstr := 2 }
      ∧ OnlyChanges [] [.boot, .out] s t)
  ∧ (∀ (s : State) (code v e : Nat), ∃ t, exec (.bypass code) s = .next t ∧ t.boot = { s.boot with tapInstr := 0xFF } ∧ OnlyChanges [] [.boot] s t
      ∧ (s.is .MBX_BOOT_TEST = false → exec (.diesel v) s = .next t ∧ exec (.stitchtest v e) s = .next t ∧ exec (.porttest v e) s = .next t))
  ∧ (∀ (s : State) (v : Nat), s.is .MBX_BOOT_TEST = true → v % 16 ≤ 8 →
    ∃ t, exec (.diesel v) s = .next t ∧ t.boot = { s.boot with tapInstr := 0x10, tapDie := v % 16 } ∧ OnlyChanges [] [.boot] s t)
  ∧ (∀ (s : State) (v : Nat), s.is .MBX_BOOT_TEST = true → 9 ≤ v % 16 → exec (.diesel v) s = .fault (.reservedOperand (v % 16)))
  ∧ (∀ (s : State) (v e : Nat), s.is .MBX_BOOT_TEST = true → bits v 5 3 < 4 → dieHas s.boot.tapDie (bits v 0 5) = true →
    ∃ t, exec (.stitchtest v e) s = .next t ∧ t.get .MEM_T_TEST_MODE (bits v 0 5) = bits v 5 3
      ∧ t.get .MEM_T_TEST_ERRS (bits v 0 5) =
          (if bits v 5 3 = 0 then s.get .MEM_T_TEST_ERRS (bits v 0 5) else satAdd 16 (s.get .MEM_T_TEST_ERRS (bits v 0 5)) e)
      ∧ t.out = s.out ++ ([.tdo (bits v 0 5 + bits v 5 3 * 2 ^ 5 + t.get .MEM_T_TEST_ERRS (bits v 0 5) * 2 ^ 8)] : List Out)
      ∧ t.boot = { s.boot with tapInstr := 0x11 }
      ∧ OnlyAt [] [(.MEM_T_TEST_MODE, bits v 0 5), (.MEM_T_TEST_ERRS, bits v 0 5)] [.boot, .out] s t)
  ∧ (∀ (s : State) (v e : Nat), s.is .MBX_BOOT_TEST = true → bits v 5 3 < 4 → dieHas s.boot.tapDie (bits v 0 5) = false →
    ∃ t, exec (.stitchtest v e) s = .next t ∧ t.boot = { s.boot with tapInstr := 0x11 } ∧ OnlyChanges [] [.boot] s t)
  ∧ (∀ (s : State) (v e : Nat), s.is .MBX_BOOT_TEST = true → 4 ≤ bits v 5 3 → exec (.stitchtest v e) s = .fault (.reservedOperand (bits v 5 3)))
  ∧ (∀ (s : State) (v e : Nat), s.is .MBX_BOOT_TEST = true →
    let p := bits v 0 5
    let n := if bits v 5 2 = 0 then (look (0, 0) s.boot.ptest p).2 else min e 65535
    ∃ t, exec (.porttest v e) s = .next t ∧ t.boot = { s.boot with tapInstr := 0x12, ptest := t.boot.ptest }
      ∧ (∀ k, look (0, 0) t.boot.ptest k = if k = p then (bits v 5 2, n) else look (0, 0) s.boot.ptest k)
      ∧ PortsFell s t (if bits v 5 2 ≠ 0 ∧ s.is .LNK_P_STAT_UP p = true then [p] else [])
      ∧ .tdo (p + bits v 5 2 * 2 ^ 5 + n * 2 ^ 8) ∈ t.out
      ∧ OnlyAt evFlds [(.LNK_P_STAT_UP, p), (.LNK_P_CONF_STATE, p)] (evComps ++ ([.boot, .ctl, .port p] : List Comp)) s t)
  ∧ (∀ (s : State) (v tag : Nat), s.tapBusy = false → s.boot.released = true → s.freeRtag 19 = some tag →
    let a := bits v 0 52
    let far := a / 2 ^ 48 != s.coord % 16
    let pk : Packet := { s.pkTo 19 (ownerStop (a % 2 ^ 48)) (bits v 52 7) (s.coord / 16 * 16 + a / 2 ^ 48) (.read (a % 2 ^ 48) 8) with
                         rxp := true, rtag := tag, dbg := if bit v 59 && far then none else some (false, s.get .DBG_CTRL_SESSION) }
    ∃ t, exec (.dbgacc v) s = .next t ∧ t.boot = { s.boot with tapInstr := 0x20 } ∧ t.tapBusy = true
      ∧ (∀ k, look [] t.ctl.wait k = if k = 38 then look [] s.ctl.wait k ++ [pk] else look [] s.ctl.wait k)
      ∧ (∀ k, look? t.ctl.reqs k = if k = 256 * 19 + tag then
          some { purp := .tap (bit v 59), due := s.tick + usTicks (max 1 (s.get .CTN_REQ_TO_TIMEOUT)) } else look? s.ctl.reqs k)
      ∧ t.ctl.bufs = s.ctl.bufs ∧ t.ctl.ejq = s.ctl.ejq ∧ t.ctl.retired = s.ctl.retired
      ∧ .tdo (s.boot.tapData % 2 ^ 72) ∈ t.out
      ∧ (bit v 59 = true → Raised { code := 0xD008, part := some (bits v 52 7), skind := 8, sindex := 19, detail := a } s t)
      ∧ (bit v 59 = false → OnlyChanges [] [.boot, .ctl, .out] s t)
      ∧ OnlyChanges evFlds (evComps ++ ([.boot, .ctl] : List Comp)) s t)
  ∧ (∀ (s : State) (v : Nat), s.tapBusy = true ∨ s.boot.released = false ∨ s.freeRtag 19 = none →
    ∃ t, exec (.dbgacc v) s = .next t ∧ t.boot = { s.boot with tapInstr := 0x20 }
      ∧ t.out = s.out ++ ([.tdo (s.boot.tapData % 2 ^ 72 + (if s.tapBusy then 2 ^ 72 else 0))] : List Out)
      ∧ OnlyChanges [] [.boot, .out] s t)

/-- Which reset kind resets which register fields (R723). -/
def Obligations.ResetKinds : Prop :=
  (∀ (s : State), ∃ t, exec .coldReset s = .next t ∧ (∀ f i, t.get f i = f.info.reset) ∧ t.boot.tripped = false)
  ∧ (∀ (s : State) (pwrOk : Bool), s.boot.powered = true → ∃ t, exec (.systemReset pwrOk) s = .next t
      ∧ (∀ f i, f.info.blk ≠ .EVR → f ≠ .TIM_TALLY_TALLY → f ≠ .TIM_TICK_TICK → f ≠ .PNL_HOOD_FENCED → f ≠ .MBX_FAULT_TRIP →
          t.get f i = f.info.reset)
      ∧ (∀ f i, f.info.blk = .EVR ∨ f = .TIM_TALLY_TALLY ∨ f = .TIM_TICK_TICK ∨ f = .PNL_HOOD_FENCED → t.get f i = s.get f i)
      ∧ (pwrOk = true → t.get .MBX_FAULT_TRIP = s.get .MBX_FAULT_TRIP ∧ t.boot.tripped = s.boot.tripped)
      ∧ (pwrOk = false → t.get .MBX_FAULT_TRIP = 0 ∧ t.boot.tripped = false))
  ∧ (∀ (s : State), ∃ t, exec .pcieReset s = .next t ∧ (∀ f i, f.info.blk = .HRE ∨ f.info.blk = .PCX → t.get f i = f.info.reset)
      ∧ (∀ f i, f.info.blk ≠ .HRE → f.info.blk ≠ .PCX → f ∉ evFlds → t.get f i = s.get f i))
  ∧ (∀ f i, State.reset.get f i = f.info.reset)

/-- A step executes the command at the front of the queue (00_scope.md). With none, one slot passes and the reports that wait for the end of
their step go out in its last 8 slots (log entries 2, 23). -/
def Obligations.StepFront : Prop :=
  (∀ (s : State) (c : Instr) (rest : List Instr), s.pending = c :: rest → step s = exec c { s with pending := rest })
  ∧ (∀ s : State, s.pending = [] → ∃ t u, step s = .next t ∧ u.tally = (s.tally + 1) % 2 ^ 56 ∧ u.tick = (s.tick + 1) % 2 ^ 56
      ∧ u.tb = { s.tb with slots := s.tb.slots + 1 } ∧ OnlyChanges [.TIM_TALLY_TALLY, .TIM_TICK_TICK] [.tb] s u
      ∧ ((∀ x ∈ s.parts, x.2.ends = []) → t = u)
      ∧ (∀ q l, (∀ x ∈ s.parts, x.1 ≠ q → x.2.ends = []) → (s.parts.filter (fun x => x.1 == q)).length = 1 →
          l = (s.part q).ends.filter (fun x => u.reached q (u.boundary q (x.2.1.step.getD 0 + 1) - 8)) →
          t.part q = { s.part q with
              ends := (s.part q).ends.filter (fun x => !u.reached q (u.boundary q (x.2.1.step.getD 0 + 1) - 8)) }
            ∧ ((∀ x ∈ l, x.1 = none) →
                SentFaults (l.map (·.2.1)) u t ∧ t.ctl.ejq = s.ctl.ejq
                  ∧ RaisedAll ((l.filter (fun x => x.2.2.2)).map (fun x =>
                      { code := x.2.1.code, part := some x.2.1.part, skind := x.2.1.srck,
                        sindex := if x.2.1.srck ≤ 1 then x.2.1.panel else x.2.1.node, detail := x.2.2.1 })) u t
                  ∧ OnlyChanges evFlds (evComps ++ ([.part q, .ctl] : List Comp)) u t)))

/-- No command is refused, two reserved operands stop, the queue stays (17_reset_boot_package.md). -/
def Obligations.Answers : Prop :=
  (∀ (c : Instr) (s : State) (r : Refusal), exec c s ≠ .refused r)
  ∧ (∀ (c : Instr) (s : State) (e : Fault), exec c s = .fault e → s.is .MBX_BOOT_TEST = true
      ∧ ((∃ v, c = .diesel v ∧ 9 ≤ v % 16 ∧ e = .reservedOperand (v % 16))
        ∨ ∃ v n, c = .stitchtest v n ∧ 4 ≤ bits v 5 3 ∧ e = .reservedOperand (bits v 5 3)))
  ∧ (∀ (c : Instr) (s t : State), exec c s = .next t → t.pending = s.pending)

/-- The invariant holds after power-up (00_scope.md, 07_inside_the_hood.md). -/
def Obligations.InvReset : Prop := Inv State.reset

/-- Every step keeps the invariant (00_scope.md, 07_inside_the_hood.md, 11_sequencer_cores.md). -/
def Obligations.InvStep : Prop := ∀ s t : State, Inv s → step s = .next t → Inv t

/-- Control packets keep every field through their bytes (10_control_rings.md, 12_block_image_to_stamp.md, 15_event_recorder.md, 16_watching_a_run.md). -/
def Obligations.PacketCodec : Prop := ∀ (own : Nat) (p : Packet), pkOk own p → checkBytes (pkBytes p) = 0 ∧ readPacket own (pkBytes p) = p
end

