-- ==== Sys2Proof/Laws/Map.lean ====
section
/-! SUPPORT. Laws of the keyed map and of byte memory: a lookup after a write, and that every write keeps the canonical form. -/
namespace Sys2Proof.Machine

variable {α : Type}

theorem look_ins (d : α) (m : SMap α) (k j : Nat) (v : α) :
    look d (ins m k v) j = if j = k then v else look d m j := by
  induction m with
  | nil => simp only [ins, look]; split <;> simp_all [eq_comm]
  | cons e r ih =>
    obtain ⟨k', v'⟩ := e
    simp only [ins]
    split
    · simp only [look]; simp only [eq_comm]
    · split
      · rename_i h; subst h; simp only [look]
        by_cases hj : k = j
        · simp [hj]
        · simp [hj, Ne.symm hj]
      · simp only [look, ih]; split <;> split <;> simp_all

theorem look?_ins (m : SMap α) (k j : Nat) (v : α) :
    look? (ins m k v) j = if j = k then some v else look? m j := by
  induction m with
  | nil => simp only [ins, look?]; split <;> simp_all [eq_comm]
  | cons e r ih =>
    obtain ⟨k', v'⟩ := e
    simp only [ins]
    split
    · simp only [look?]; simp only [eq_comm]
    · split
      · rename_i h; subst h; simp only [look?]
        by_cases hj : k = j
        · simp [hj]
        · simp [hj, Ne.symm hj]
      · simp only [look?, ih]; split <;> split <;> simp_all

@[simp] theorem look_ins_same (d : α) (m : SMap α) (k : Nat) (v : α) : look d (ins m k v) k = v := by simp [look_ins]

theorem look_ins_ne (d : α) (m : SMap α) {k j : Nat} (v : α) (h : j ≠ k) : look d (ins m k v) j = look d m j := by
  simp [look_ins, h]

@[simp] theorem look?_ins_same (m : SMap α) (k : Nat) (v : α) : look? (ins m k v) k = some v := by simp [look?_ins]

theorem look_del (d : α) (m : SMap α) (k j : Nat) : look d (del m k) j = if j = k then d else look d m j := by
  induction m with
  | nil => simp [del, look]
  | cons e r ih =>
    obtain ⟨k', v'⟩ := e
    simp only [del, List.filter] at ih ⊢
    by_cases h : k' = k
    · subst h
      simp only [ne_eq, not_true_eq_false, decide_false]
      rw [ih]; simp only [look]
      split
      · rfl
      · rename_i h; simp [eq_comm, h]
    · simp only [ne_eq, h, not_false_eq_true, decide_true, look]
      rw [ih]
      split
      · rename_i h2; subst h2; simp [h]
      · rfl

theorem look?_del (m : SMap α) (k j : Nat) : look? (del m k) j = if j = k then none else look? m j := by
  induction m with
  | nil => simp [del, look?]
  | cons e r ih =>
    obtain ⟨k', v'⟩ := e
    simp only [del, List.filter] at ih ⊢
    by_cases h : k' = k
    · subst h
      simp only [ne_eq, not_true_eq_false, decide_false]
      rw [ih]; simp only [look?]
      split
      · rfl
      · rename_i h; simp [eq_comm, h]
    · simp only [ne_eq, h, not_false_eq_true, decide_true, look?]
      rw [ih]
      split
      · rename_i h2; subst h2; simp [h]
      · rfl

theorem look_put [DecidableEq α] (d : α) (m : SMap α) (k j : Nat) (v : α) :
    look d (put d m k v) j = if j = k then v else look d m j := by
  unfold put
  split
  · rename_i h; rw [look_del, h]
  · exact look_ins d m k j v

@[simp] theorem look_put_same [DecidableEq α] (d : α) (m : SMap α) (k : Nat) (v : α) : look d (put d m k v) k = v := by
  simp [look_put]

theorem look_put_ne [DecidableEq α] (d : α) (m : SMap α) {k j : Nat} (v : α) (h : j ≠ k) :
    look d (put d m k v) j = look d m j := by
  simp [look_put, h]

/-- A write at one key, under whatever default, leaves every other key's value. -/
theorem look_put_other [DecidableEq α] (d d' : α) (m : SMap α) {k j : Nat} (v : α) (h : j ≠ k) :
    look d' (put d m k v) j = look d' m j := by
  unfold put
  split
  · rw [look_del, if_neg h]
  · rw [look_ins, if_neg h]

/-! The canonical form. -/

/-- The canonical form as two facts about the list. -/
theorem canon_iff [DecidableEq α] (d : α) (m : SMap α) :
    canon d m = true ↔ m.Pairwise (fun a b => a.1 < b.1) ∧ ∀ e ∈ m, e.2 ≠ d := by
  induction m with
  | nil => simp [canon]
  | cons e r ih =>
    obtain ⟨k, v⟩ := e
    cases r with
    | nil => simp [canon]
    | cons e' r' =>
      obtain ⟨k', v'⟩ := e'
      simp only [canon, Bool.and_eq_true, decide_eq_true_eq, ih]
      simp only [List.pairwise_cons, List.mem_cons, forall_eq_or_imp]
      constructor
      · rintro ⟨⟨h1, h2⟩, ⟨h3, h4⟩, h5, h6⟩
        exact ⟨⟨⟨h2, fun a ha => Nat.lt_trans h2 (h3 a ha)⟩, h3, h4⟩, h1, h5, h6⟩
      · rintro ⟨⟨⟨h2, _⟩, h3, h4⟩, h1, h5, h6⟩
        exact ⟨⟨h1, h2⟩, ⟨h3, h4⟩, h5, h6⟩

theorem mem_ins {m : SMap α} {k : Nat} {v : α} {e : Nat × α} (h : e ∈ ins m k v) : e = (k, v) ∨ e ∈ m := by
  induction m with
  | nil => simpa [ins] using h
  | cons x r ih =>
    obtain ⟨k', v'⟩ := x
    simp only [ins] at h
    split at h
    · simpa using h
    · split at h
      · rcases List.mem_cons.1 h with h | h
        · exact .inl h
        · exact .inr (List.mem_cons_of_mem _ h)
      · rcases List.mem_cons.1 h with h | h
        · exact .inr (by simp [h])
        · rcases ih h with h | h
          · exact .inl h
          · exact .inr (List.mem_cons_of_mem _ h)

theorem sorted_ins {m : SMap α} (k : Nat) (v : α) (h : m.Pairwise (fun a b => a.1 < b.1)) :
    (ins m k v).Pairwise (fun a b => a.1 < b.1) := by
  induction m with
  | nil => simp [ins]
  | cons x r ih =>
    obtain ⟨k', v'⟩ := x
    rw [List.pairwise_cons] at h
    simp only [ins]
    split
    · rename_i hk
      refine List.pairwise_cons.2 ⟨?_, List.pairwise_cons.2 h⟩
      intro a ha
      rcases List.mem_cons.1 ha with ha | ha
      · subst ha; exact hk
      · exact Nat.lt_trans hk (h.1 a ha)
    · split
      · rename_i hk; subst hk; exact List.pairwise_cons.2 h
      · rename_i h1 h2
        refine List.pairwise_cons.2 ⟨?_, ih h.2⟩
        intro a ha
        rcases mem_ins ha with ha | ha
        · subst ha; show k' < k; omega
        · exact h.1 a ha

/-- A write keeps the canonical form. -/
theorem canon_put [DecidableEq α] (d : α) {m : SMap α} (k : Nat) (v : α) (h : canon d m = true) :
    canon d (put d m k v) = true := by
  rw [canon_iff] at h ⊢
  unfold put
  split
  · exact ⟨h.1.filter _, fun e he => h.2 e (List.mem_of_mem_filter he)⟩
  · rename_i hv
    refine ⟨sorted_ins k v h.1, fun e he => ?_⟩
    rcases mem_ins he with he | he
    · subst he; exact hv
    · exact h.2 e he

/-- A fold of writes keeps the canonical form. -/
theorem canon_foldl_put [DecidableEq α] {β : Type} (d : α) (l : List β) (f : β → Nat) (g : SMap α → β → α) {m : SMap α}
    (h : canon d m = true) : canon d (l.foldl (fun m b => put d m (f b) (g m b)) m) = true := by
  induction l generalizing m with
  | nil => exact h
  | cons b r ih => exact ih (canon_put d _ _ h)

/-- Writing bytes keeps the canonical form. -/
theorem wf_writeBytes {m : SMap Byte} (a : Nat) (bs : List Byte) (h : Memory.wf m = true) :
    Memory.wf (writeBytes m a bs) = true := by
  induction bs generalizing m a with
  | nil => exact h
  | cons b r ih => exact ih (a + 1) (canon_put 0 a b h)

/-- A byte after a write of bytes. -/
theorem look_writeBytes (m : SMap Byte) (a : Nat) (bs : List Byte) (x : Nat) :
    look 0 (writeBytes m a bs) x = if a ≤ x ∧ x < a + bs.length then bs.getD (x - a) 0 else look 0 m x := by
  induction bs generalizing m a with
  | nil => simp [writeBytes]
  | cons b r ih =>
    simp only [writeBytes, ih, look_put, List.length_cons]
    by_cases h : x = a
    · subst h; simp
    · by_cases h1 : a + 1 ≤ x ∧ x < a + 1 + r.length
      · have h2 : a ≤ x ∧ x < a + (r.length + 1) := by omega
        have h3 : x - a = (x - (a + 1)) + 1 := by omega
        simp [h1, h2, h3]
      · have h2 : ¬ (a ≤ x ∧ x < a + (r.length + 1)) := by omega
        rw [if_neg h1, if_neg h2, if_neg h]

theorem length_readBytes (m : SMap Byte) (a n : Nat) : (readBytes m a n).length = n := by
  induction n generalizing a with
  | zero => rfl
  | succ n ih => simp [readBytes, ih]

theorem getD_readBytes (m : SMap Byte) (a n j : Nat) (h : j < n) : (readBytes m a n).getD j 0 = look 0 m (a + j) := by
  induction n generalizing a j with
  | zero => omega
  | succ n ih =>
    cases j with
    | zero => simp [readBytes]
    | succ j => simp only [readBytes, List.getD_cons_succ]; rw [ih (a + 1) j (by omega)]; congr 1; omega

/-- Bytes written are read back. -/
theorem readBytes_writeBytes (m : SMap Byte) (a : Nat) (bs : List Byte) :
    readBytes (writeBytes m a bs) a bs.length = bs := by
  apply List.ext_getElem
  · simp [length_readBytes]
  · intro i h1 h2
    have := getD_readBytes (writeBytes m a bs) a bs.length i h2
    rw [look_writeBytes] at this
    simp only [Nat.le_add_right, true_and, Nat.add_lt_add_iff_left, h2, Nat.add_sub_cancel_left, if_true] at this
    simpa [List.getD_eq_getElem?_getD, List.getElem?_eq_getElem h1, List.getElem?_eq_getElem h2] using this

end Sys2Proof.Machine
end

