-- ==== Sys2Proof/Laws/State.lean ====
section
/-! SUPPORT. Laws of the state's updates: what each update leaves unchanged, field by field, and what reading back gives. -/
namespace Sys2Proof.Machine

variable (s : State)

/-! `State.set`. -/

@[simp] theorem State.set_tb (f : Fld) (v i : Nat) : (s.set f v i).tb = s.tb := rfl
@[simp] theorem State.set_evr (f : Fld) (v i : Nat) : (s.set f v i).evr = s.evr := rfl
@[simp] theorem State.set_ctl (f : Fld) (v i : Nat) : (s.set f v i).ctl = s.ctl := rfl
@[simp] theorem State.set_hre (f : Fld) (v i : Nat) : (s.set f v i).hre = s.hre := rfl
@[simp] theorem State.set_parts (f : Fld) (v i : Nat) : (s.set f v i).parts = s.parts := rfl
@[simp] theorem State.set_panels (f : Fld) (v i : Nat) : (s.set f v i).panels = s.panels := rfl
@[simp] theorem State.set_nodes (f : Fld) (v i : Nat) : (s.set f v i).nodes = s.nodes := rfl
@[simp] theorem State.set_ports (f : Fld) (v i : Nat) : (s.set f v i).ports = s.ports := rfl
@[simp] theorem State.set_ctxs (f : Fld) (v i : Nat) : (s.set f v i).ctxs = s.ctxs := rfl
@[simp] theorem State.set_shr (f : Fld) (v i : Nat) : (s.set f v i).shr = s.shr := rfl
@[simp] theorem State.set_hbm (f : Fld) (v i : Nat) : (s.set f v i).hbm = s.hbm := rfl
@[simp] theorem State.set_stitch (f : Fld) (v i : Nat) : (s.set f v i).stitch = s.stitch := rfl
@[simp] theorem State.set_caps (f : Fld) (v i : Nat) : (s.set f v i).caps = s.caps := rfl
@[simp] theorem State.set_boot (f : Fld) (v i : Nat) : (s.set f v i).boot = s.boot := rfl
@[simp] theorem State.set_out (f : Fld) (v i : Nat) : (s.set f v i).out = s.out := rfl
@[simp] theorem State.set_free (f : Fld) (v i : Nat) : (s.set f v i).free = s.free := rfl
@[simp] theorem State.set_pending (f : Fld) (v i : Nat) : (s.set f v i).pending = s.pending := rfl
@[simp] theorem State.set_part (f : Fld) (v i : Nat) (k : Nat) : (s.set f v i).part k = s.part k := rfl
@[simp] theorem State.set_panel (f : Fld) (v i : Nat) (k : Nat) : (s.set f v i).panel k = s.panel k := rfl
@[simp] theorem State.set_node (f : Fld) (v i : Nat) (k : Nat) : (s.set f v i).node k = s.node k := rfl
@[simp] theorem State.set_port (f : Fld) (v i : Nat) (k : Nat) : (s.set f v i).port k = s.port k := rfl
@[simp] theorem State.set_ctx (f : Fld) (v i : Nat) (k : Nat) : (s.set f v i).ctx k = s.ctx k := rfl
@[simp] theorem State.set_ring (f : Fld) (v i : Nat) (k j : Nat) : (s.set f v i).ring k j = s.ring k j := rfl
@[simp] theorem State.set_func (f : Fld) (v i : Nat) (k : Nat) : (s.set f v i).func k = s.func k := rfl
@[simp] theorem State.set_stitchOf (f : Fld) (v i : Nat) (k : Nat) : (s.set f v i).stitchOf k = s.stitchOf k := rfl
@[simp] theorem State.set_cap (f : Fld) (v i : Nat) (k : Nat) : (s.set f v i).cap k = s.cap k := rfl

/-! `State.inc`. -/

@[simp] theorem State.inc_tb (f : Fld) (i n : Nat) : (s.inc f i n).tb = s.tb := rfl
@[simp] theorem State.inc_evr (f : Fld) (i n : Nat) : (s.inc f i n).evr = s.evr := rfl
@[simp] theorem State.inc_ctl (f : Fld) (i n : Nat) : (s.inc f i n).ctl = s.ctl := rfl
@[simp] theorem State.inc_hre (f : Fld) (i n : Nat) : (s.inc f i n).hre = s.hre := rfl
@[simp] theorem State.inc_parts (f : Fld) (i n : Nat) : (s.inc f i n).parts = s.parts := rfl
@[simp] theorem State.inc_panels (f : Fld) (i n : Nat) : (s.inc f i n).panels = s.panels := rfl
@[simp] theorem State.inc_nodes (f : Fld) (i n : Nat) : (s.inc f i n).nodes = s.nodes := rfl
@[simp] theorem State.inc_ports (f : Fld) (i n : Nat) : (s.inc f i n).ports = s.ports := rfl
@[simp] theorem State.inc_ctxs (f : Fld) (i n : Nat) : (s.inc f i n).ctxs = s.ctxs := rfl
@[simp] theorem State.inc_shr (f : Fld) (i n : Nat) : (s.inc f i n).shr = s.shr := rfl
@[simp] theorem State.inc_hbm (f : Fld) (i n : Nat) : (s.inc f i n).hbm = s.hbm := rfl
@[simp] theorem State.inc_stitch (f : Fld) (i n : Nat) : (s.inc f i n).stitch = s.stitch := rfl
@[simp] theorem State.inc_caps (f : Fld) (i n : Nat) : (s.inc f i n).caps = s.caps := rfl
@[simp] theorem State.inc_boot (f : Fld) (i n : Nat) : (s.inc f i n).boot = s.boot := rfl
@[simp] theorem State.inc_out (f : Fld) (i n : Nat) : (s.inc f i n).out = s.out := rfl
@[simp] theorem State.inc_free (f : Fld) (i n : Nat) : (s.inc f i n).free = s.free := rfl
@[simp] theorem State.inc_pending (f : Fld) (i n : Nat) : (s.inc f i n).pending = s.pending := rfl
@[simp] theorem State.inc_part (f : Fld) (i n : Nat) (k : Nat) : (s.inc f i n).part k = s.part k := rfl
@[simp] theorem State.inc_panel (f : Fld) (i n : Nat) (k : Nat) : (s.inc f i n).panel k = s.panel k := rfl
@[simp] theorem State.inc_node (f : Fld) (i n : Nat) (k : Nat) : (s.inc f i n).node k = s.node k := rfl
@[simp] theorem State.inc_port (f : Fld) (i n : Nat) (k : Nat) : (s.inc f i n).port k = s.port k := rfl
@[simp] theorem State.inc_ctx (f : Fld) (i n : Nat) (k : Nat) : (s.inc f i n).ctx k = s.ctx k := rfl
@[simp] theorem State.inc_ring (f : Fld) (i n : Nat) (k j : Nat) : (s.inc f i n).ring k j = s.ring k j := rfl
@[simp] theorem State.inc_func (f : Fld) (i n : Nat) (k : Nat) : (s.inc f i n).func k = s.func k := rfl
@[simp] theorem State.inc_stitchOf (f : Fld) (i n : Nat) (k : Nat) : (s.inc f i n).stitchOf k = s.stitchOf k := rfl
@[simp] theorem State.inc_cap (f : Fld) (i n : Nat) (k : Nat) : (s.inc f i n).cap k = s.cap k := rfl

/-! `State.setBit`. -/

@[simp] theorem State.setBit_tb (f : Fld) (n : Nat) (b : Bool) (i : Nat) : (s.setBit f n b i).tb = s.tb := rfl
@[simp] theorem State.setBit_evr (f : Fld) (n : Nat) (b : Bool) (i : Nat) : (s.setBit f n b i).evr = s.evr := rfl
@[simp] theorem State.setBit_ctl (f : Fld) (n : Nat) (b : Bool) (i : Nat) : (s.setBit f n b i).ctl = s.ctl := rfl
@[simp] theorem State.setBit_hre (f : Fld) (n : Nat) (b : Bool) (i : Nat) : (s.setBit f n b i).hre = s.hre := rfl
@[simp] theorem State.setBit_parts (f : Fld) (n : Nat) (b : Bool) (i : Nat) : (s.setBit f n b i).parts = s.parts := rfl
@[simp] theorem State.setBit_panels (f : Fld) (n : Nat) (b : Bool) (i : Nat) : (s.setBit f n b i).panels = s.panels := rfl
@[simp] theorem State.setBit_nodes (f : Fld) (n : Nat) (b : Bool) (i : Nat) : (s.setBit f n b i).nodes = s.nodes := rfl
@[simp] theorem State.setBit_ports (f : Fld) (n : Nat) (b : Bool) (i : Nat) : (s.setBit f n b i).ports = s.ports := rfl
@[simp] theorem State.setBit_ctxs (f : Fld) (n : Nat) (b : Bool) (i : Nat) : (s.setBit f n b i).ctxs = s.ctxs := rfl
@[simp] theorem State.setBit_shr (f : Fld) (n : Nat) (b : Bool) (i : Nat) : (s.setBit f n b i).shr = s.shr := rfl
@[simp] theorem State.setBit_hbm (f : Fld) (n : Nat) (b : Bool) (i : Nat) : (s.setBit f n b i).hbm = s.hbm := rfl
@[simp] theorem State.setBit_stitch (f : Fld) (n : Nat) (b : Bool) (i : Nat) : (s.setBit f n b i).stitch = s.stitch := rfl
@[simp] theorem State.setBit_caps (f : Fld) (n : Nat) (b : Bool) (i : Nat) : (s.setBit f n b i).caps = s.caps := rfl
@[simp] theorem State.setBit_boot (f : Fld) (n : Nat) (b : Bool) (i : Nat) : (s.setBit f n b i).boot = s.boot := rfl
@[simp] theorem State.setBit_out (f : Fld) (n : Nat) (b : Bool) (i : Nat) : (s.setBit f n b i).out = s.out := rfl
@[simp] theorem State.setBit_free (f : Fld) (n : Nat) (b : Bool) (i : Nat) : (s.setBit f n b i).free = s.free := rfl
@[simp] theorem State.setBit_pending (f : Fld) (n : Nat) (b : Bool) (i : Nat) : (s.setBit f n b i).pending = s.pending := rfl
@[simp] theorem State.setBit_part (f : Fld) (n : Nat) (b : Bool) (i : Nat) (k : Nat) : (s.setBit f n b i).part k = s.part k := rfl
@[simp] theorem State.setBit_panel (f : Fld) (n : Nat) (b : Bool) (i : Nat) (k : Nat) : (s.setBit f n b i).panel k = s.panel k := rfl
@[simp] theorem State.setBit_node (f : Fld) (n : Nat) (b : Bool) (i : Nat) (k : Nat) : (s.setBit f n b i).node k = s.node k := rfl
@[simp] theorem State.setBit_port (f : Fld) (n : Nat) (b : Bool) (i : Nat) (k : Nat) : (s.setBit f n b i).port k = s.port k := rfl
@[simp] theorem State.setBit_ctx (f : Fld) (n : Nat) (b : Bool) (i : Nat) (k : Nat) : (s.setBit f n b i).ctx k = s.ctx k := rfl
@[simp] theorem State.setBit_ring (f : Fld) (n : Nat) (b : Bool) (i : Nat) (k j : Nat) : (s.setBit f n b i).ring k j = s.ring k j := rfl
@[simp] theorem State.setBit_func (f : Fld) (n : Nat) (b : Bool) (i : Nat) (k : Nat) : (s.setBit f n b i).func k = s.func k := rfl
@[simp] theorem State.setBit_stitchOf (f : Fld) (n : Nat) (b : Bool) (i : Nat) (k : Nat) : (s.setBit f n b i).stitchOf k = s.stitchOf k := rfl
@[simp] theorem State.setBit_cap (f : Fld) (n : Nat) (b : Bool) (i : Nat) (k : Nat) : (s.setBit f n b i).cap k = s.cap k := rfl

/-! `State.emit`. -/

@[simp] theorem State.emit_regs (o : Out) : (s.emit o).regs = s.regs := rfl
@[simp] theorem State.emit_tb (o : Out) : (s.emit o).tb = s.tb := rfl
@[simp] theorem State.emit_evr (o : Out) : (s.emit o).evr = s.evr := rfl
@[simp] theorem State.emit_ctl (o : Out) : (s.emit o).ctl = s.ctl := rfl
@[simp] theorem State.emit_hre (o : Out) : (s.emit o).hre = s.hre := rfl
@[simp] theorem State.emit_parts (o : Out) : (s.emit o).parts = s.parts := rfl
@[simp] theorem State.emit_panels (o : Out) : (s.emit o).panels = s.panels := rfl
@[simp] theorem State.emit_nodes (o : Out) : (s.emit o).nodes = s.nodes := rfl
@[simp] theorem State.emit_ports (o : Out) : (s.emit o).ports = s.ports := rfl
@[simp] theorem State.emit_ctxs (o : Out) : (s.emit o).ctxs = s.ctxs := rfl
@[simp] theorem State.emit_shr (o : Out) : (s.emit o).shr = s.shr := rfl
@[simp] theorem State.emit_hbm (o : Out) : (s.emit o).hbm = s.hbm := rfl
@[simp] theorem State.emit_stitch (o : Out) : (s.emit o).stitch = s.stitch := rfl
@[simp] theorem State.emit_caps (o : Out) : (s.emit o).caps = s.caps := rfl
@[simp] theorem State.emit_boot (o : Out) : (s.emit o).boot = s.boot := rfl
@[simp] theorem State.emit_free (o : Out) : (s.emit o).free = s.free := rfl
@[simp] theorem State.emit_pending (o : Out) : (s.emit o).pending = s.pending := rfl
@[simp] theorem State.emit_get (o : Out) (g : Fld) (j : Nat) : (s.emit o).get g j = s.get g j := rfl
@[simp] theorem State.emit_part (o : Out) (k : Nat) : (s.emit o).part k = s.part k := rfl
@[simp] theorem State.emit_panel (o : Out) (k : Nat) : (s.emit o).panel k = s.panel k := rfl
@[simp] theorem State.emit_node (o : Out) (k : Nat) : (s.emit o).node k = s.node k := rfl
@[simp] theorem State.emit_port (o : Out) (k : Nat) : (s.emit o).port k = s.port k := rfl
@[simp] theorem State.emit_ctx (o : Out) (k : Nat) : (s.emit o).ctx k = s.ctx k := rfl
@[simp] theorem State.emit_ring (o : Out) (k j : Nat) : (s.emit o).ring k j = s.ring k j := rfl
@[simp] theorem State.emit_func (o : Out) (k : Nat) : (s.emit o).func k = s.func k := rfl
@[simp] theorem State.emit_stitchOf (o : Out) (k : Nat) : (s.emit o).stitchOf k = s.stitchOf k := rfl
@[simp] theorem State.emit_cap (o : Out) (k : Nat) : (s.emit o).cap k = s.cap k := rfl

/-! `State.fresh`. -/

@[simp] theorem State.fresh_regs : (s.fresh).regs = s.regs := rfl
@[simp] theorem State.fresh_tb : (s.fresh).tb = s.tb := rfl
@[simp] theorem State.fresh_evr : (s.fresh).evr = s.evr := rfl
@[simp] theorem State.fresh_ctl : (s.fresh).ctl = s.ctl := rfl
@[simp] theorem State.fresh_hre : (s.fresh).hre = s.hre := rfl
@[simp] theorem State.fresh_parts : (s.fresh).parts = s.parts := rfl
@[simp] theorem State.fresh_panels : (s.fresh).panels = s.panels := rfl
@[simp] theorem State.fresh_nodes : (s.fresh).nodes = s.nodes := rfl
@[simp] theorem State.fresh_ports : (s.fresh).ports = s.ports := rfl
@[simp] theorem State.fresh_ctxs : (s.fresh).ctxs = s.ctxs := rfl
@[simp] theorem State.fresh_shr : (s.fresh).shr = s.shr := rfl
@[simp] theorem State.fresh_hbm : (s.fresh).hbm = s.hbm := rfl
@[simp] theorem State.fresh_stitch : (s.fresh).stitch = s.stitch := rfl
@[simp] theorem State.fresh_caps : (s.fresh).caps = s.caps := rfl
@[simp] theorem State.fresh_boot : (s.fresh).boot = s.boot := rfl
@[simp] theorem State.fresh_out : (s.fresh).out = s.out := rfl
@[simp] theorem State.fresh_pending : (s.fresh).pending = s.pending := rfl
@[simp] theorem State.fresh_get (g : Fld) (j : Nat) : (s.fresh).get g j = s.get g j := rfl
@[simp] theorem State.fresh_part (k : Nat) : (s.fresh).part k = s.part k := rfl
@[simp] theorem State.fresh_panel (k : Nat) : (s.fresh).panel k = s.panel k := rfl
@[simp] theorem State.fresh_node (k : Nat) : (s.fresh).node k = s.node k := rfl
@[simp] theorem State.fresh_port (k : Nat) : (s.fresh).port k = s.port k := rfl
@[simp] theorem State.fresh_ctx (k : Nat) : (s.fresh).ctx k = s.ctx k := rfl
@[simp] theorem State.fresh_ring (k j : Nat) : (s.fresh).ring k j = s.ring k j := rfl
@[simp] theorem State.fresh_func (k : Nat) : (s.fresh).func k = s.func k := rfl
@[simp] theorem State.fresh_stitchOf (k : Nat) : (s.fresh).stitchOf k = s.stitchOf k := rfl
@[simp] theorem State.fresh_cap (k : Nat) : (s.fresh).cap k = s.cap k := rfl

/-! `State.setPart`. -/

@[simp] theorem State.setPart_regs (q : Nat) (p : Part) : (s.setPart q p).regs = s.regs := rfl
@[simp] theorem State.setPart_tb (q : Nat) (p : Part) : (s.setPart q p).tb = s.tb := rfl
@[simp] theorem State.setPart_evr (q : Nat) (p : Part) : (s.setPart q p).evr = s.evr := rfl
@[simp] theorem State.setPart_ctl (q : Nat) (p : Part) : (s.setPart q p).ctl = s.ctl := rfl
@[simp] theorem State.setPart_hre (q : Nat) (p : Part) : (s.setPart q p).hre = s.hre := rfl
@[simp] theorem State.setPart_panels (q : Nat) (p : Part) : (s.setPart q p).panels = s.panels := rfl
@[simp] theorem State.setPart_nodes (q : Nat) (p : Part) : (s.setPart q p).nodes = s.nodes := rfl
@[simp] theorem State.setPart_ports (q : Nat) (p : Part) : (s.setPart q p).ports = s.ports := rfl
@[simp] theorem State.setPart_ctxs (q : Nat) (p : Part) : (s.setPart q p).ctxs = s.ctxs := rfl
@[simp] theorem State.setPart_shr (q : Nat) (p : Part) : (s.setPart q p).shr = s.shr := rfl
@[simp] theorem State.setPart_hbm (q : Nat) (p : Part) : (s.setPart q p).hbm = s.hbm := rfl
@[simp] theorem State.setPart_stitch (q : Nat) (p : Part) : (s.setPart q p).stitch = s.stitch := rfl
@[simp] theorem State.setPart_caps (q : Nat) (p : Part) : (s.setPart q p).caps = s.caps := rfl
@[simp] theorem State.setPart_boot (q : Nat) (p : Part) : (s.setPart q p).boot = s.boot := rfl
@[simp] theorem State.setPart_out (q : Nat) (p : Part) : (s.setPart q p).out = s.out := rfl
@[simp] theorem State.setPart_free (q : Nat) (p : Part) : (s.setPart q p).free = s.free := rfl
@[simp] theorem State.setPart_pending (q : Nat) (p : Part) : (s.setPart q p).pending = s.pending := rfl
@[simp] theorem State.setPart_get (q : Nat) (p : Part) (g : Fld) (j : Nat) : (s.setPart q p).get g j = s.get g j := rfl
@[simp] theorem State.setPart_panel (q : Nat) (p : Part) (k : Nat) : (s.setPart q p).panel k = s.panel k := rfl
@[simp] theorem State.setPart_node (q : Nat) (p : Part) (k : Nat) : (s.setPart q p).node k = s.node k := rfl
@[simp] theorem State.setPart_port (q : Nat) (p : Part) (k : Nat) : (s.setPart q p).port k = s.port k := rfl
@[simp] theorem State.setPart_ctx (q : Nat) (p : Part) (k : Nat) : (s.setPart q p).ctx k = s.ctx k := rfl
@[simp] theorem State.setPart_ring (q : Nat) (p : Part) (k j : Nat) : (s.setPart q p).ring k j = s.ring k j := rfl
@[simp] theorem State.setPart_func (q : Nat) (p : Part) (k : Nat) : (s.setPart q p).func k = s.func k := rfl
@[simp] theorem State.setPart_stitchOf (q : Nat) (p : Part) (k : Nat) : (s.setPart q p).stitchOf k = s.stitchOf k := rfl
@[simp] theorem State.setPart_cap (q : Nat) (p : Part) (k : Nat) : (s.setPart q p).cap k = s.cap k := rfl

/-! `State.setPanel`. -/

@[simp] theorem State.setPanel_regs (w : Nat) (p : Panel) : (s.setPanel w p).regs = s.regs := rfl
@[simp] theorem State.setPanel_tb (w : Nat) (p : Panel) : (s.setPanel w p).tb = s.tb := rfl
@[simp] theorem State.setPanel_evr (w : Nat) (p : Panel) : (s.setPanel w p).evr = s.evr := rfl
@[simp] theorem State.setPanel_ctl (w : Nat) (p : Panel) : (s.setPanel w p).ctl = s.ctl := rfl
@[simp] theorem State.setPanel_hre (w : Nat) (p : Panel) : (s.setPanel w p).hre = s.hre := rfl
@[simp] theorem State.setPanel_parts (w : Nat) (p : Panel) : (s.setPanel w p).parts = s.parts := rfl
@[simp] theorem State.setPanel_nodes (w : Nat) (p : Panel) : (s.setPanel w p).nodes = s.nodes := rfl
@[simp] theorem State.setPanel_ports (w : Nat) (p : Panel) : (s.setPanel w p).ports = s.ports := rfl
@[simp] theorem State.setPanel_ctxs (w : Nat) (p : Panel) : (s.setPanel w p).ctxs = s.ctxs := rfl
@[simp] theorem State.setPanel_shr (w : Nat) (p : Panel) : (s.setPanel w p).shr = s.shr := rfl
@[simp] theorem State.setPanel_hbm (w : Nat) (p : Panel) : (s.setPanel w p).hbm = s.hbm := rfl
@[simp] theorem State.setPanel_stitch (w : Nat) (p : Panel) : (s.setPanel w p).stitch = s.stitch := rfl
@[simp] theorem State.setPanel_caps (w : Nat) (p : Panel) : (s.setPanel w p).caps = s.caps := rfl
@[simp] theorem State.setPanel_boot (w : Nat) (p : Panel) : (s.setPanel w p).boot = s.boot := rfl
@[simp] theorem State.setPanel_out (w : Nat) (p : Panel) : (s.setPanel w p).out = s.out := rfl
@[simp] theorem State.setPanel_free (w : Nat) (p : Panel) : (s.setPanel w p).free = s.free := rfl
@[simp] theorem State.setPanel_pending (w : Nat) (p : Panel) : (s.setPanel w p).pending = s.pending := rfl
@[simp] theorem State.setPanel_get (w : Nat) (p : Panel) (g : Fld) (j : Nat) : (s.setPanel w p).get g j = s.get g j := rfl
@[simp] theorem State.setPanel_part (w : Nat) (p : Panel) (k : Nat) : (s.setPanel w p).part k = s.part k := rfl
@[simp] theorem State.setPanel_node (w : Nat) (p : Panel) (k : Nat) : (s.setPanel w p).node k = s.node k := rfl
@[simp] theorem State.setPanel_port (w : Nat) (p : Panel) (k : Nat) : (s.setPanel w p).port k = s.port k := rfl
@[simp] theorem State.setPanel_ctx (w : Nat) (p : Panel) (k : Nat) : (s.setPanel w p).ctx k = s.ctx k := rfl
@[simp] theorem State.setPanel_ring (w : Nat) (p : Panel) (k j : Nat) : (s.setPanel w p).ring k j = s.ring k j := rfl
@[simp] theorem State.setPanel_func (w : Nat) (p : Panel) (k : Nat) : (s.setPanel w p).func k = s.func k := rfl
@[simp] theorem State.setPanel_stitchOf (w : Nat) (p : Panel) (k : Nat) : (s.setPanel w p).stitchOf k = s.stitchOf k := rfl
@[simp] theorem State.setPanel_cap (w : Nat) (p : Panel) (k : Nat) : (s.setPanel w p).cap k = s.cap k := rfl

/-! `State.setNode`. -/

@[simp] theorem State.setNode_regs (n : Nat) (x : Node) : (s.setNode n x).regs = s.regs := rfl
@[simp] theorem State.setNode_tb (n : Nat) (x : Node) : (s.setNode n x).tb = s.tb := rfl
@[simp] theorem State.setNode_evr (n : Nat) (x : Node) : (s.setNode n x).evr = s.evr := rfl
@[simp] theorem State.setNode_ctl (n : Nat) (x : Node) : (s.setNode n x).ctl = s.ctl := rfl
@[simp] theorem State.setNode_hre (n : Nat) (x : Node) : (s.setNode n x).hre = s.hre := rfl
@[simp] theorem State.setNode_parts (n : Nat) (x : Node) : (s.setNode n x).parts = s.parts := rfl
@[simp] theorem State.setNode_panels (n : Nat) (x : Node) : (s.setNode n x).panels = s.panels := rfl
@[simp] theorem State.setNode_ports (n : Nat) (x : Node) : (s.setNode n x).ports = s.ports := rfl
@[simp] theorem State.setNode_ctxs (n : Nat) (x : Node) : (s.setNode n x).ctxs = s.ctxs := rfl
@[simp] theorem State.setNode_shr (n : Nat) (x : Node) : (s.setNode n x).shr = s.shr := rfl
@[simp] theorem State.setNode_hbm (n : Nat) (x : Node) : (s.setNode n x).hbm = s.hbm := rfl
@[simp] theorem State.setNode_stitch (n : Nat) (x : Node) : (s.setNode n x).stitch = s.stitch := rfl
@[simp] theorem State.setNode_caps (n : Nat) (x : Node) : (s.setNode n x).caps = s.caps := rfl
@[simp] theorem State.setNode_boot (n : Nat) (x : Node) : (s.setNode n x).boot = s.boot := rfl
@[simp] theorem State.setNode_out (n : Nat) (x : Node) : (s.setNode n x).out = s.out := rfl
@[simp] theorem State.setNode_free (n : Nat) (x : Node) : (s.setNode n x).free = s.free := rfl
@[simp] theorem State.setNode_pending (n : Nat) (x : Node) : (s.setNode n x).pending = s.pending := rfl
@[simp] theorem State.setNode_get (n : Nat) (x : Node) (g : Fld) (j : Nat) : (s.setNode n x).get g j = s.get g j := rfl
@[simp] theorem State.setNode_part (n : Nat) (x : Node) (k : Nat) : (s.setNode n x).part k = s.part k := rfl
@[simp] theorem State.setNode_panel (n : Nat) (x : Node) (k : Nat) : (s.setNode n x).panel k = s.panel k := rfl
@[simp] theorem State.setNode_port (n : Nat) (x : Node) (k : Nat) : (s.setNode n x).port k = s.port k := rfl
@[simp] theorem State.setNode_ctx (n : Nat) (x : Node) (k : Nat) : (s.setNode n x).ctx k = s.ctx k := rfl
@[simp] theorem State.setNode_ring (n : Nat) (x : Node) (k j : Nat) : (s.setNode n x).ring k j = s.ring k j := rfl
@[simp] theorem State.setNode_func (n : Nat) (x : Node) (k : Nat) : (s.setNode n x).func k = s.func k := rfl
@[simp] theorem State.setNode_stitchOf (n : Nat) (x : Node) (k : Nat) : (s.setNode n x).stitchOf k = s.stitchOf k := rfl
@[simp] theorem State.setNode_cap (n : Nat) (x : Node) (k : Nat) : (s.setNode n x).cap k = s.cap k := rfl

/-! `State.setPort`. -/

@[simp] theorem State.setPort_regs (p : Nat) (x : Port) : (s.setPort p x).regs = s.regs := rfl
@[simp] theorem State.setPort_tb (p : Nat) (x : Port) : (s.setPort p x).tb = s.tb := rfl
@[simp] theorem State.setPort_evr (p : Nat) (x : Port) : (s.setPort p x).evr = s.evr := rfl
@[simp] theorem State.setPort_ctl (p : Nat) (x : Port) : (s.setPort p x).ctl = s.ctl := rfl
@[simp] theorem State.setPort_hre (p : Nat) (x : Port) : (s.setPort p x).hre = s.hre := rfl
@[simp] theorem State.setPort_parts (p : Nat) (x : Port) : (s.setPort p x).parts = s.parts := rfl
@[simp] theorem State.setPort_panels (p : Nat) (x : Port) : (s.setPort p x).panels = s.panels := rfl
@[simp] theorem State.setPort_nodes (p : Nat) (x : Port) : (s.setPort p x).nodes = s.nodes := rfl
@[simp] theorem State.setPort_ctxs (p : Nat) (x : Port) : (s.setPort p x).ctxs = s.ctxs := rfl
@[simp] theorem State.setPort_shr (p : Nat) (x : Port) : (s.setPort p x).shr = s.shr := rfl
@[simp] theorem State.setPort_hbm (p : Nat) (x : Port) : (s.setPort p x).hbm = s.hbm := rfl
@[simp] theorem State.setPort_stitch (p : Nat) (x : Port) : (s.setPort p x).stitch = s.stitch := rfl
@[simp] theorem State.setPort_caps (p : Nat) (x : Port) : (s.setPort p x).caps = s.caps := rfl
@[simp] theorem State.setPort_boot (p : Nat) (x : Port) : (s.setPort p x).boot = s.boot := rfl
@[simp] theorem State.setPort_out (p : Nat) (x : Port) : (s.setPort p x).out = s.out := rfl
@[simp] theorem State.setPort_free (p : Nat) (x : Port) : (s.setPort p x).free = s.free := rfl
@[simp] theorem State.setPort_pending (p : Nat) (x : Port) : (s.setPort p x).pending = s.pending := rfl
@[simp] theorem State.setPort_get (p : Nat) (x : Port) (g : Fld) (j : Nat) : (s.setPort p x).get g j = s.get g j := rfl
@[simp] theorem State.setPort_part (p : Nat) (x : Port) (k : Nat) : (s.setPort p x).part k = s.part k := rfl
@[simp] theorem State.setPort_panel (p : Nat) (x : Port) (k : Nat) : (s.setPort p x).panel k = s.panel k := rfl
@[simp] theorem State.setPort_node (p : Nat) (x : Port) (k : Nat) : (s.setPort p x).node k = s.node k := rfl
@[simp] theorem State.setPort_ctx (p : Nat) (x : Port) (k : Nat) : (s.setPort p x).ctx k = s.ctx k := rfl
@[simp] theorem State.setPort_ring (p : Nat) (x : Port) (k j : Nat) : (s.setPort p x).ring k j = s.ring k j := rfl
@[simp] theorem State.setPort_func (p : Nat) (x : Port) (k : Nat) : (s.setPort p x).func k = s.func k := rfl
@[simp] theorem State.setPort_stitchOf (p : Nat) (x : Port) (k : Nat) : (s.setPort p x).stitchOf k = s.stitchOf k := rfl
@[simp] theorem State.setPort_cap (p : Nat) (x : Port) (k : Nat) : (s.setPort p x).cap k = s.cap k := rfl

/-! `State.setCtx`. -/

@[simp] theorem State.setCtx_regs (x : Nat) (c : Ctx) : (s.setCtx x c).regs = s.regs := rfl
@[simp] theorem State.setCtx_tb (x : Nat) (c : Ctx) : (s.setCtx x c).tb = s.tb := rfl
@[simp] theorem State.setCtx_evr (x : Nat) (c : Ctx) : (s.setCtx x c).evr = s.evr := rfl
@[simp] theorem State.setCtx_ctl (x : Nat) (c : Ctx) : (s.setCtx x c).ctl = s.ctl := rfl
@[simp] theorem State.setCtx_hre (x : Nat) (c : Ctx) : (s.setCtx x c).hre = s.hre := rfl
@[simp] theorem State.setCtx_parts (x : Nat) (c : Ctx) : (s.setCtx x c).parts = s.parts := rfl
@[simp] theorem State.setCtx_panels (x : Nat) (c : Ctx) : (s.setCtx x c).panels = s.panels := rfl
@[simp] theorem State.setCtx_nodes (x : Nat) (c : Ctx) : (s.setCtx x c).nodes = s.nodes := rfl
@[simp] theorem State.setCtx_ports (x : Nat) (c : Ctx) : (s.setCtx x c).ports = s.ports := rfl
@[simp] theorem State.setCtx_shr (x : Nat) (c : Ctx) : (s.setCtx x c).shr = s.shr := rfl
@[simp] theorem State.setCtx_hbm (x : Nat) (c : Ctx) : (s.setCtx x c).hbm = s.hbm := rfl
@[simp] theorem State.setCtx_stitch (x : Nat) (c : Ctx) : (s.setCtx x c).stitch = s.stitch := rfl
@[simp] theorem State.setCtx_caps (x : Nat) (c : Ctx) : (s.setCtx x c).caps = s.caps := rfl
@[simp] theorem State.setCtx_boot (x : Nat) (c : Ctx) : (s.setCtx x c).boot = s.boot := rfl
@[simp] theorem State.setCtx_out (x : Nat) (c : Ctx) : (s.setCtx x c).out = s.out := rfl
@[simp] theorem State.setCtx_free (x : Nat) (c : Ctx) : (s.setCtx x c).free = s.free := rfl
@[simp] theorem State.setCtx_pending (x : Nat) (c : Ctx) : (s.setCtx x c).pending = s.pending := rfl
@[simp] theorem State.setCtx_get (x : Nat) (c : Ctx) (g : Fld) (j : Nat) : (s.setCtx x c).get g j = s.get g j := rfl
@[simp] theorem State.setCtx_part (x : Nat) (c : Ctx) (k : Nat) : (s.setCtx x c).part k = s.part k := rfl
@[simp] theorem State.setCtx_panel (x : Nat) (c : Ctx) (k : Nat) : (s.setCtx x c).panel k = s.panel k := rfl
@[simp] theorem State.setCtx_node (x : Nat) (c : Ctx) (k : Nat) : (s.setCtx x c).node k = s.node k := rfl
@[simp] theorem State.setCtx_port (x : Nat) (c : Ctx) (k : Nat) : (s.setCtx x c).port k = s.port k := rfl
@[simp] theorem State.setCtx_ring (x : Nat) (c : Ctx) (k j : Nat) : (s.setCtx x c).ring k j = s.ring k j := rfl
@[simp] theorem State.setCtx_func (x : Nat) (c : Ctx) (k : Nat) : (s.setCtx x c).func k = s.func k := rfl
@[simp] theorem State.setCtx_stitchOf (x : Nat) (c : Ctx) (k : Nat) : (s.setCtx x c).stitchOf k = s.stitchOf k := rfl
@[simp] theorem State.setCtx_cap (x : Nat) (c : Ctx) (k : Nat) : (s.setCtx x c).cap k = s.cap k := rfl

/-! `State.setRing`. -/

@[simp] theorem State.setRing_regs (fn r : Nat) (x : Ring) : (s.setRing fn r x).regs = s.regs := rfl
@[simp] theorem State.setRing_tb (fn r : Nat) (x : Ring) : (s.setRing fn r x).tb = s.tb := rfl
@[simp] theorem State.setRing_evr (fn r : Nat) (x : Ring) : (s.setRing fn r x).evr = s.evr := rfl
@[simp] theorem State.setRing_ctl (fn r : Nat) (x : Ring) : (s.setRing fn r x).ctl = s.ctl := rfl
@[simp] theorem State.setRing_parts (fn r : Nat) (x : Ring) : (s.setRing fn r x).parts = s.parts := rfl
@[simp] theorem State.setRing_panels (fn r : Nat) (x : Ring) : (s.setRing fn r x).panels = s.panels := rfl
@[simp] theorem State.setRing_nodes (fn r : Nat) (x : Ring) : (s.setRing fn r x).nodes = s.nodes := rfl
@[simp] theorem State.setRing_ports (fn r : Nat) (x : Ring) : (s.setRing fn r x).ports = s.ports := rfl
@[simp] theorem State.setRing_ctxs (fn r : Nat) (x : Ring) : (s.setRing fn r x).ctxs = s.ctxs := rfl
@[simp] theorem State.setRing_shr (fn r : Nat) (x : Ring) : (s.setRing fn r x).shr = s.shr := rfl
@[simp] theorem State.setRing_hbm (fn r : Nat) (x : Ring) : (s.setRing fn r x).hbm = s.hbm := rfl
@[simp] theorem State.setRing_stitch (fn r : Nat) (x : Ring) : (s.setRing fn r x).stitch = s.stitch := rfl
@[simp] theorem State.setRing_caps (fn r : Nat) (x : Ring) : (s.setRing fn r x).caps = s.caps := rfl
@[simp] theorem State.setRing_boot (fn r : Nat) (x : Ring) : (s.setRing fn r x).boot = s.boot := rfl
@[simp] theorem State.setRing_out (fn r : Nat) (x : Ring) : (s.setRing fn r x).out = s.out := rfl
@[simp] theorem State.setRing_free (fn r : Nat) (x : Ring) : (s.setRing fn r x).free = s.free := rfl
@[simp] theorem State.setRing_pending (fn r : Nat) (x : Ring) : (s.setRing fn r x).pending = s.pending := rfl
@[simp] theorem State.setRing_get (fn r : Nat) (x : Ring) (g : Fld) (j : Nat) : (s.setRing fn r x).get g j = s.get g j := rfl
@[simp] theorem State.setRing_part (fn r : Nat) (x : Ring) (k : Nat) : (s.setRing fn r x).part k = s.part k := rfl
@[simp] theorem State.setRing_panel (fn r : Nat) (x : Ring) (k : Nat) : (s.setRing fn r x).panel k = s.panel k := rfl
@[simp] theorem State.setRing_node (fn r : Nat) (x : Ring) (k : Nat) : (s.setRing fn r x).node k = s.node k := rfl
@[simp] theorem State.setRing_port (fn r : Nat) (x : Ring) (k : Nat) : (s.setRing fn r x).port k = s.port k := rfl
@[simp] theorem State.setRing_ctx (fn r : Nat) (x : Ring) (k : Nat) : (s.setRing fn r x).ctx k = s.ctx k := rfl
@[simp] theorem State.setRing_stitchOf (fn r : Nat) (x : Ring) (k : Nat) : (s.setRing fn r x).stitchOf k = s.stitchOf k := rfl
@[simp] theorem State.setRing_cap (fn r : Nat) (x : Ring) (k : Nat) : (s.setRing fn r x).cap k = s.cap k := rfl

/-! `State.setFunc`. -/

@[simp] theorem State.setFunc_regs (fn : Nat) (x : Func) : (s.setFunc fn x).regs = s.regs := rfl
@[simp] theorem State.setFunc_tb (fn : Nat) (x : Func) : (s.setFunc fn x).tb = s.tb := rfl
@[simp] theorem State.setFunc_evr (fn : Nat) (x : Func) : (s.setFunc fn x).evr = s.evr := rfl
@[simp] theorem State.setFunc_ctl (fn : Nat) (x : Func) : (s.setFunc fn x).ctl = s.ctl := rfl
@[simp] theorem State.setFunc_parts (fn : Nat) (x : Func) : (s.setFunc fn x).parts = s.parts := rfl
@[simp] theorem State.setFunc_panels (fn : Nat) (x : Func) : (s.setFunc fn x).panels = s.panels := rfl
@[simp] theorem State.setFunc_nodes (fn : Nat) (x : Func) : (s.setFunc fn x).nodes = s.nodes := rfl
@[simp] theorem State.setFunc_ports (fn : Nat) (x : Func) : (s.setFunc fn x).ports = s.ports := rfl
@[simp] theorem State.setFunc_ctxs (fn : Nat) (x : Func) : (s.setFunc fn x).ctxs = s.ctxs := rfl
@[simp] theorem State.setFunc_shr (fn : Nat) (x : Func) : (s.setFunc fn x).shr = s.shr := rfl
@[simp] theorem State.setFunc_hbm (fn : Nat) (x : Func) : (s.setFunc fn x).hbm = s.hbm := rfl
@[simp] theorem State.setFunc_stitch (fn : Nat) (x : Func) : (s.setFunc fn x).stitch = s.stitch := rfl
@[simp] theorem State.setFunc_caps (fn : Nat) (x : Func) : (s.setFunc fn x).caps = s.caps := rfl
@[simp] theorem State.setFunc_boot (fn : Nat) (x : Func) : (s.setFunc fn x).boot = s.boot := rfl
@[simp] theorem State.setFunc_out (fn : Nat) (x : Func) : (s.setFunc fn x).out = s.out := rfl
@[simp] theorem State.setFunc_free (fn : Nat) (x : Func) : (s.setFunc fn x).free = s.free := rfl
@[simp] theorem State.setFunc_pending (fn : Nat) (x : Func) : (s.setFunc fn x).pending = s.pending := rfl
@[simp] theorem State.setFunc_get (fn : Nat) (x : Func) (g : Fld) (j : Nat) : (s.setFunc fn x).get g j = s.get g j := rfl
@[simp] theorem State.setFunc_part (fn : Nat) (x : Func) (k : Nat) : (s.setFunc fn x).part k = s.part k := rfl
@[simp] theorem State.setFunc_panel (fn : Nat) (x : Func) (k : Nat) : (s.setFunc fn x).panel k = s.panel k := rfl
@[simp] theorem State.setFunc_node (fn : Nat) (x : Func) (k : Nat) : (s.setFunc fn x).node k = s.node k := rfl
@[simp] theorem State.setFunc_port (fn : Nat) (x : Func) (k : Nat) : (s.setFunc fn x).port k = s.port k := rfl
@[simp] theorem State.setFunc_ctx (fn : Nat) (x : Func) (k : Nat) : (s.setFunc fn x).ctx k = s.ctx k := rfl
@[simp] theorem State.setFunc_stitchOf (fn : Nat) (x : Func) (k : Nat) : (s.setFunc fn x).stitchOf k = s.stitchOf k := rfl
@[simp] theorem State.setFunc_cap (fn : Nat) (x : Func) (k : Nat) : (s.setFunc fn x).cap k = s.cap k := rfl

/-! `State.setStitch`. -/

@[simp] theorem State.setStitch_regs (t : Nat) (x : Stitch) : (s.setStitch t x).regs = s.regs := rfl
@[simp] theorem State.setStitch_tb (t : Nat) (x : Stitch) : (s.setStitch t x).tb = s.tb := rfl
@[simp] theorem State.setStitch_evr (t : Nat) (x : Stitch) : (s.setStitch t x).evr = s.evr := rfl
@[simp] theorem State.setStitch_ctl (t : Nat) (x : Stitch) : (s.setStitch t x).ctl = s.ctl := rfl
@[simp] theorem State.setStitch_hre (t : Nat) (x : Stitch) : (s.setStitch t x).hre = s.hre := rfl
@[simp] theorem State.setStitch_parts (t : Nat) (x : Stitch) : (s.setStitch t x).parts = s.parts := rfl
@[simp] theorem State.setStitch_panels (t : Nat) (x : Stitch) : (s.setStitch t x).panels = s.panels := rfl
@[simp] theorem State.setStitch_nodes (t : Nat) (x : Stitch) : (s.setStitch t x).nodes = s.nodes := rfl
@[simp] theorem State.setStitch_ports (t : Nat) (x : Stitch) : (s.setStitch t x).ports = s.ports := rfl
@[simp] theorem State.setStitch_ctxs (t : Nat) (x : Stitch) : (s.setStitch t x).ctxs = s.ctxs := rfl
@[simp] theorem State.setStitch_shr (t : Nat) (x : Stitch) : (s.setStitch t x).shr = s.shr := rfl
@[simp] theorem State.setStitch_hbm (t : Nat) (x : Stitch) : (s.setStitch t x).hbm = s.hbm := rfl
@[simp] theorem State.setStitch_caps (t : Nat) (x : Stitch) : (s.setStitch t x).caps = s.caps := rfl
@[simp] theorem State.setStitch_boot (t : Nat) (x : Stitch) : (s.setStitch t x).boot = s.boot := rfl
@[simp] theorem State.setStitch_out (t : Nat) (x : Stitch) : (s.setStitch t x).out = s.out := rfl
@[simp] theorem State.setStitch_free (t : Nat) (x : Stitch) : (s.setStitch t x).free = s.free := rfl
@[simp] theorem State.setStitch_pending (t : Nat) (x : Stitch) : (s.setStitch t x).pending = s.pending := rfl
@[simp] theorem State.setStitch_get (t : Nat) (x : Stitch) (g : Fld) (j : Nat) : (s.setStitch t x).get g j = s.get g j := rfl
@[simp] theorem State.setStitch_part (t : Nat) (x : Stitch) (k : Nat) : (s.setStitch t x).part k = s.part k := rfl
@[simp] theorem State.setStitch_panel (t : Nat) (x : Stitch) (k : Nat) : (s.setStitch t x).panel k = s.panel k := rfl
@[simp] theorem State.setStitch_node (t : Nat) (x : Stitch) (k : Nat) : (s.setStitch t x).node k = s.node k := rfl
@[simp] theorem State.setStitch_port (t : Nat) (x : Stitch) (k : Nat) : (s.setStitch t x).port k = s.port k := rfl
@[simp] theorem State.setStitch_ctx (t : Nat) (x : Stitch) (k : Nat) : (s.setStitch t x).ctx k = s.ctx k := rfl
@[simp] theorem State.setStitch_ring (t : Nat) (x : Stitch) (k j : Nat) : (s.setStitch t x).ring k j = s.ring k j := rfl
@[simp] theorem State.setStitch_func (t : Nat) (x : Stitch) (k : Nat) : (s.setStitch t x).func k = s.func k := rfl
@[simp] theorem State.setStitch_cap (t : Nat) (x : Stitch) (k : Nat) : (s.setStitch t x).cap k = s.cap k := rfl

/-! `State.setCap`. -/

@[simp] theorem State.setCap_regs (n : Nat) (x : Cap) : (s.setCap n x).regs = s.regs := rfl
@[simp] theorem State.setCap_tb (n : Nat) (x : Cap) : (s.setCap n x).tb = s.tb := rfl
@[simp] theorem State.setCap_evr (n : Nat) (x : Cap) : (s.setCap n x).evr = s.evr := rfl
@[simp] theorem State.setCap_ctl (n : Nat) (x : Cap) : (s.setCap n x).ctl = s.ctl := rfl
@[simp] theorem State.setCap_hre (n : Nat) (x : Cap) : (s.setCap n x).hre = s.hre := rfl
@[simp] theorem State.setCap_parts (n : Nat) (x : Cap) : (s.setCap n x).parts = s.parts := rfl
@[simp] theorem State.setCap_panels (n : Nat) (x : Cap) : (s.setCap n x).panels = s.panels := rfl
@[simp] theorem State.setCap_nodes (n : Nat) (x : Cap) : (s.setCap n x).nodes = s.nodes := rfl
@[simp] theorem State.setCap_ports (n : Nat) (x : Cap) : (s.setCap n x).ports = s.ports := rfl
@[simp] theorem State.setCap_ctxs (n : Nat) (x : Cap) : (s.setCap n x).ctxs = s.ctxs := rfl
@[simp] theorem State.setCap_shr (n : Nat) (x : Cap) : (s.setCap n x).shr = s.shr := rfl
@[simp] theorem State.setCap_hbm (n : Nat) (x : Cap) : (s.setCap n x).hbm = s.hbm := rfl
@[simp] theorem State.setCap_stitch (n : Nat) (x : Cap) : (s.setCap n x).stitch = s.stitch := rfl
@[simp] theorem State.setCap_boot (n : Nat) (x : Cap) : (s.setCap n x).boot = s.boot := rfl
@[simp] theorem State.setCap_out (n : Nat) (x : Cap) : (s.setCap n x).out = s.out := rfl
@[simp] theorem State.setCap_free (n : Nat) (x : Cap) : (s.setCap n x).free = s.free := rfl
@[simp] theorem State.setCap_pending (n : Nat) (x : Cap) : (s.setCap n x).pending = s.pending := rfl
@[simp] theorem State.setCap_get (n : Nat) (x : Cap) (g : Fld) (j : Nat) : (s.setCap n x).get g j = s.get g j := rfl
@[simp] theorem State.setCap_part (n : Nat) (x : Cap) (k : Nat) : (s.setCap n x).part k = s.part k := rfl
@[simp] theorem State.setCap_panel (n : Nat) (x : Cap) (k : Nat) : (s.setCap n x).panel k = s.panel k := rfl
@[simp] theorem State.setCap_node (n : Nat) (x : Cap) (k : Nat) : (s.setCap n x).node k = s.node k := rfl
@[simp] theorem State.setCap_port (n : Nat) (x : Cap) (k : Nat) : (s.setCap n x).port k = s.port k := rfl
@[simp] theorem State.setCap_ctx (n : Nat) (x : Cap) (k : Nat) : (s.setCap n x).ctx k = s.ctx k := rfl
@[simp] theorem State.setCap_ring (n : Nat) (x : Cap) (k j : Nat) : (s.setCap n x).ring k j = s.ring k j := rfl
@[simp] theorem State.setCap_func (n : Nat) (x : Cap) (k : Nat) : (s.setCap n x).func k = s.func k := rfl
@[simp] theorem State.setCap_stitchOf (n : Nat) (x : Cap) (k : Nat) : (s.setCap n x).stitchOf k = s.stitchOf k := rfl

/-! `State.sendPk`. -/

@[simp] theorem State.sendPk_regs (stop : Nat) (reply : Bool) (pk : Packet) : (s.sendPk stop reply pk).regs = s.regs := rfl
@[simp] theorem State.sendPk_tb (stop : Nat) (reply : Bool) (pk : Packet) : (s.sendPk stop reply pk).tb = s.tb := rfl
@[simp] theorem State.sendPk_evr (stop : Nat) (reply : Bool) (pk : Packet) : (s.sendPk stop reply pk).evr = s.evr := rfl
@[simp] theorem State.sendPk_hre (stop : Nat) (reply : Bool) (pk : Packet) : (s.sendPk stop reply pk).hre = s.hre := rfl
@[simp] theorem State.sendPk_parts (stop : Nat) (reply : Bool) (pk : Packet) : (s.sendPk stop reply pk).parts = s.parts := rfl
@[simp] theorem State.sendPk_panels (stop : Nat) (reply : Bool) (pk : Packet) : (s.sendPk stop reply pk).panels = s.panels := rfl
@[simp] theorem State.sendPk_nodes (stop : Nat) (reply : Bool) (pk : Packet) : (s.sendPk stop reply pk).nodes = s.nodes := rfl
@[simp] theorem State.sendPk_ports (stop : Nat) (reply : Bool) (pk : Packet) : (s.sendPk stop reply pk).ports = s.ports := rfl
@[simp] theorem State.sendPk_ctxs (stop : Nat) (reply : Bool) (pk : Packet) : (s.sendPk stop reply pk).ctxs = s.ctxs := rfl
@[simp] theorem State.sendPk_shr (stop : Nat) (reply : Bool) (pk : Packet) : (s.sendPk stop reply pk).shr = s.shr := rfl
@[simp] theorem State.sendPk_hbm (stop : Nat) (reply : Bool) (pk : Packet) : (s.sendPk stop reply pk).hbm = s.hbm := rfl
@[simp] theorem State.sendPk_stitch (stop : Nat) (reply : Bool) (pk : Packet) : (s.sendPk stop reply pk).stitch = s.stitch := rfl
@[simp] theorem State.sendPk_caps (stop : Nat) (reply : Bool) (pk : Packet) : (s.sendPk stop reply pk).caps = s.caps := rfl
@[simp] theorem State.sendPk_boot (stop : Nat) (reply : Bool) (pk : Packet) : (s.sendPk stop reply pk).boot = s.boot := rfl
@[simp] theorem State.sendPk_out (stop : Nat) (reply : Bool) (pk : Packet) : (s.sendPk stop reply pk).out = s.out := rfl
@[simp] theorem State.sendPk_free (stop : Nat) (reply : Bool) (pk : Packet) : (s.sendPk stop reply pk).free = s.free := rfl
@[simp] theorem State.sendPk_pending (stop : Nat) (reply : Bool) (pk : Packet) : (s.sendPk stop reply pk).pending = s.pending := rfl
@[simp] theorem State.sendPk_get (stop : Nat) (reply : Bool) (pk : Packet) (g : Fld) (j : Nat) : (s.sendPk stop reply pk).get g j = s.get g j := rfl
@[simp] theorem State.sendPk_part (stop : Nat) (reply : Bool) (pk : Packet) (k : Nat) : (s.sendPk stop reply pk).part k = s.part k := rfl
@[simp] theorem State.sendPk_panel (stop : Nat) (reply : Bool) (pk : Packet) (k : Nat) : (s.sendPk stop reply pk).panel k = s.panel k := rfl
@[simp] theorem State.sendPk_node (stop : Nat) (reply : Bool) (pk : Packet) (k : Nat) : (s.sendPk stop reply pk).node k = s.node k := rfl
@[simp] theorem State.sendPk_port (stop : Nat) (reply : Bool) (pk : Packet) (k : Nat) : (s.sendPk stop reply pk).port k = s.port k := rfl
@[simp] theorem State.sendPk_ctx (stop : Nat) (reply : Bool) (pk : Packet) (k : Nat) : (s.sendPk stop reply pk).ctx k = s.ctx k := rfl
@[simp] theorem State.sendPk_ring (stop : Nat) (reply : Bool) (pk : Packet) (k j : Nat) : (s.sendPk stop reply pk).ring k j = s.ring k j := rfl
@[simp] theorem State.sendPk_func (stop : Nat) (reply : Bool) (pk : Packet) (k : Nat) : (s.sendPk stop reply pk).func k = s.func k := rfl
@[simp] theorem State.sendPk_stitchOf (stop : Nat) (reply : Bool) (pk : Packet) (k : Nat) : (s.sendPk stop reply pk).stitchOf k = s.stitchOf k := rfl
@[simp] theorem State.sendPk_cap (stop : Nat) (reply : Bool) (pk : Packet) (k : Nat) : (s.sendPk stop reply pk).cap k = s.cap k := rfl

/-! `State.hbmWrite`. -/

@[simp] theorem State.hbmWrite_regs (a : Nat) (bs : List Byte) : (s.hbmWrite a bs).regs = s.regs := rfl
@[simp] theorem State.hbmWrite_tb (a : Nat) (bs : List Byte) : (s.hbmWrite a bs).tb = s.tb := rfl
@[simp] theorem State.hbmWrite_evr (a : Nat) (bs : List Byte) : (s.hbmWrite a bs).evr = s.evr := rfl
@[simp] theorem State.hbmWrite_ctl (a : Nat) (bs : List Byte) : (s.hbmWrite a bs).ctl = s.ctl := rfl
@[simp] theorem State.hbmWrite_hre (a : Nat) (bs : List Byte) : (s.hbmWrite a bs).hre = s.hre := rfl
@[simp] theorem State.hbmWrite_parts (a : Nat) (bs : List Byte) : (s.hbmWrite a bs).parts = s.parts := rfl
@[simp] theorem State.hbmWrite_panels (a : Nat) (bs : List Byte) : (s.hbmWrite a bs).panels = s.panels := rfl
@[simp] theorem State.hbmWrite_nodes (a : Nat) (bs : List Byte) : (s.hbmWrite a bs).nodes = s.nodes := rfl
@[simp] theorem State.hbmWrite_ports (a : Nat) (bs : List Byte) : (s.hbmWrite a bs).ports = s.ports := rfl
@[simp] theorem State.hbmWrite_ctxs (a : Nat) (bs : List Byte) : (s.hbmWrite a bs).ctxs = s.ctxs := rfl
@[simp] theorem State.hbmWrite_shr (a : Nat) (bs : List Byte) : (s.hbmWrite a bs).shr = s.shr := rfl
@[simp] theorem State.hbmWrite_stitch (a : Nat) (bs : List Byte) : (s.hbmWrite a bs).stitch = s.stitch := rfl
@[simp] theorem State.hbmWrite_caps (a : Nat) (bs : List Byte) : (s.hbmWrite a bs).caps = s.caps := rfl
@[simp] theorem State.hbmWrite_boot (a : Nat) (bs : List Byte) : (s.hbmWrite a bs).boot = s.boot := rfl
@[simp] theorem State.hbmWrite_out (a : Nat) (bs : List Byte) : (s.hbmWrite a bs).out = s.out := rfl
@[simp] theorem State.hbmWrite_free (a : Nat) (bs : List Byte) : (s.hbmWrite a bs).free = s.free := rfl
@[simp] theorem State.hbmWrite_pending (a : Nat) (bs : List Byte) : (s.hbmWrite a bs).pending = s.pending := rfl
@[simp] theorem State.hbmWrite_get (a : Nat) (bs : List Byte) (g : Fld) (j : Nat) : (s.hbmWrite a bs).get g j = s.get g j := rfl
@[simp] theorem State.hbmWrite_part (a : Nat) (bs : List Byte) (k : Nat) : (s.hbmWrite a bs).part k = s.part k := rfl
@[simp] theorem State.hbmWrite_panel (a : Nat) (bs : List Byte) (k : Nat) : (s.hbmWrite a bs).panel k = s.panel k := rfl
@[simp] theorem State.hbmWrite_node (a : Nat) (bs : List Byte) (k : Nat) : (s.hbmWrite a bs).node k = s.node k := rfl
@[simp] theorem State.hbmWrite_port (a : Nat) (bs : List Byte) (k : Nat) : (s.hbmWrite a bs).port k = s.port k := rfl
@[simp] theorem State.hbmWrite_ctx (a : Nat) (bs : List Byte) (k : Nat) : (s.hbmWrite a bs).ctx k = s.ctx k := rfl
@[simp] theorem State.hbmWrite_ring (a : Nat) (bs : List Byte) (k j : Nat) : (s.hbmWrite a bs).ring k j = s.ring k j := rfl
@[simp] theorem State.hbmWrite_func (a : Nat) (bs : List Byte) (k : Nat) : (s.hbmWrite a bs).func k = s.func k := rfl
@[simp] theorem State.hbmWrite_stitchOf (a : Nat) (bs : List Byte) (k : Nat) : (s.hbmWrite a bs).stitchOf k = s.stitchOf k := rfl
@[simp] theorem State.hbmWrite_cap (a : Nat) (bs : List Byte) (k : Nat) : (s.hbmWrite a bs).cap k = s.cap k := rfl

/-! `State.hbmMark`. -/

@[simp] theorem State.hbmMark_regs (a n : Nat) (b : Bool) : (s.hbmMark a n b).regs = s.regs := rfl
@[simp] theorem State.hbmMark_tb (a n : Nat) (b : Bool) : (s.hbmMark a n b).tb = s.tb := rfl
@[simp] theorem State.hbmMark_evr (a n : Nat) (b : Bool) : (s.hbmMark a n b).evr = s.evr := rfl
@[simp] theorem State.hbmMark_ctl (a n : Nat) (b : Bool) : (s.hbmMark a n b).ctl = s.ctl := rfl
@[simp] theorem State.hbmMark_hre (a n : Nat) (b : Bool) : (s.hbmMark a n b).hre = s.hre := rfl
@[simp] theorem State.hbmMark_parts (a n : Nat) (b : Bool) : (s.hbmMark a n b).parts = s.parts := rfl
@[simp] theorem State.hbmMark_panels (a n : Nat) (b : Bool) : (s.hbmMark a n b).panels = s.panels := rfl
@[simp] theorem State.hbmMark_nodes (a n : Nat) (b : Bool) : (s.hbmMark a n b).nodes = s.nodes := rfl
@[simp] theorem State.hbmMark_ports (a n : Nat) (b : Bool) : (s.hbmMark a n b).ports = s.ports := rfl
@[simp] theorem State.hbmMark_ctxs (a n : Nat) (b : Bool) : (s.hbmMark a n b).ctxs = s.ctxs := rfl
@[simp] theorem State.hbmMark_shr (a n : Nat) (b : Bool) : (s.hbmMark a n b).shr = s.shr := rfl
@[simp] theorem State.hbmMark_stitch (a n : Nat) (b : Bool) : (s.hbmMark a n b).stitch = s.stitch := rfl
@[simp] theorem State.hbmMark_caps (a n : Nat) (b : Bool) : (s.hbmMark a n b).caps = s.caps := rfl
@[simp] theorem State.hbmMark_boot (a n : Nat) (b : Bool) : (s.hbmMark a n b).boot = s.boot := rfl
@[simp] theorem State.hbmMark_out (a n : Nat) (b : Bool) : (s.hbmMark a n b).out = s.out := rfl
@[simp] theorem State.hbmMark_free (a n : Nat) (b : Bool) : (s.hbmMark a n b).free = s.free := rfl
@[simp] theorem State.hbmMark_pending (a n : Nat) (b : Bool) : (s.hbmMark a n b).pending = s.pending := rfl
@[simp] theorem State.hbmMark_get (a n : Nat) (b : Bool) (g : Fld) (j : Nat) : (s.hbmMark a n b).get g j = s.get g j := rfl
@[simp] theorem State.hbmMark_part (a n : Nat) (b : Bool) (k : Nat) : (s.hbmMark a n b).part k = s.part k := rfl
@[simp] theorem State.hbmMark_panel (a n : Nat) (b : Bool) (k : Nat) : (s.hbmMark a n b).panel k = s.panel k := rfl
@[simp] theorem State.hbmMark_node (a n : Nat) (b : Bool) (k : Nat) : (s.hbmMark a n b).node k = s.node k := rfl
@[simp] theorem State.hbmMark_port (a n : Nat) (b : Bool) (k : Nat) : (s.hbmMark a n b).port k = s.port k := rfl
@[simp] theorem State.hbmMark_ctx (a n : Nat) (b : Bool) (k : Nat) : (s.hbmMark a n b).ctx k = s.ctx k := rfl
@[simp] theorem State.hbmMark_ring (a n : Nat) (b : Bool) (k j : Nat) : (s.hbmMark a n b).ring k j = s.ring k j := rfl
@[simp] theorem State.hbmMark_func (a n : Nat) (b : Bool) (k : Nat) : (s.hbmMark a n b).func k = s.func k := rfl
@[simp] theorem State.hbmMark_stitchOf (a n : Nat) (b : Bool) (k : Nat) : (s.hbmMark a n b).stitchOf k = s.stitchOf k := rfl
@[simp] theorem State.hbmMark_cap (a n : Nat) (b : Bool) (k : Nat) : (s.hbmMark a n b).cap k = s.cap k := rfl

/-! `State.hbmClean`. -/

@[simp] theorem State.hbmClean_regs (a n : Nat) : (s.hbmClean a n).regs = s.regs := rfl
@[simp] theorem State.hbmClean_tb (a n : Nat) : (s.hbmClean a n).tb = s.tb := rfl
@[simp] theorem State.hbmClean_evr (a n : Nat) : (s.hbmClean a n).evr = s.evr := rfl
@[simp] theorem State.hbmClean_ctl (a n : Nat) : (s.hbmClean a n).ctl = s.ctl := rfl
@[simp] theorem State.hbmClean_hre (a n : Nat) : (s.hbmClean a n).hre = s.hre := rfl
@[simp] theorem State.hbmClean_parts (a n : Nat) : (s.hbmClean a n).parts = s.parts := rfl
@[simp] theorem State.hbmClean_panels (a n : Nat) : (s.hbmClean a n).panels = s.panels := rfl
@[simp] theorem State.hbmClean_nodes (a n : Nat) : (s.hbmClean a n).nodes = s.nodes := rfl
@[simp] theorem State.hbmClean_ports (a n : Nat) : (s.hbmClean a n).ports = s.ports := rfl
@[simp] theorem State.hbmClean_ctxs (a n : Nat) : (s.hbmClean a n).ctxs = s.ctxs := rfl
@[simp] theorem State.hbmClean_shr (a n : Nat) : (s.hbmClean a n).shr = s.shr := rfl
@[simp] theorem State.hbmClean_stitch (a n : Nat) : (s.hbmClean a n).stitch = s.stitch := rfl
@[simp] theorem State.hbmClean_caps (a n : Nat) : (s.hbmClean a n).caps = s.caps := rfl
@[simp] theorem State.hbmClean_boot (a n : Nat) : (s.hbmClean a n).boot = s.boot := rfl
@[simp] theorem State.hbmClean_out (a n : Nat) : (s.hbmClean a n).out = s.out := rfl
@[simp] theorem State.hbmClean_free (a n : Nat) : (s.hbmClean a n).free = s.free := rfl
@[simp] theorem State.hbmClean_pending (a n : Nat) : (s.hbmClean a n).pending = s.pending := rfl
@[simp] theorem State.hbmClean_get (a n : Nat) (g : Fld) (j : Nat) : (s.hbmClean a n).get g j = s.get g j := rfl
@[simp] theorem State.hbmClean_part (a n : Nat) (k : Nat) : (s.hbmClean a n).part k = s.part k := rfl
@[simp] theorem State.hbmClean_panel (a n : Nat) (k : Nat) : (s.hbmClean a n).panel k = s.panel k := rfl
@[simp] theorem State.hbmClean_node (a n : Nat) (k : Nat) : (s.hbmClean a n).node k = s.node k := rfl
@[simp] theorem State.hbmClean_port (a n : Nat) (k : Nat) : (s.hbmClean a n).port k = s.port k := rfl
@[simp] theorem State.hbmClean_ctx (a n : Nat) (k : Nat) : (s.hbmClean a n).ctx k = s.ctx k := rfl
@[simp] theorem State.hbmClean_ring (a n : Nat) (k j : Nat) : (s.hbmClean a n).ring k j = s.ring k j := rfl
@[simp] theorem State.hbmClean_func (a n : Nat) (k : Nat) : (s.hbmClean a n).func k = s.func k := rfl
@[simp] theorem State.hbmClean_stitchOf (a n : Nat) (k : Nat) : (s.hbmClean a n).stitchOf k = s.stitchOf k := rfl
@[simp] theorem State.hbmClean_cap (a n : Nat) (k : Nat) : (s.hbmClean a n).cap k = s.cap k := rfl

/-! `State.withPending`. -/

@[simp] theorem State.withPending_regs (l : List Instr) : (s.withPending l).regs = s.regs := rfl
@[simp] theorem State.withPending_tb (l : List Instr) : (s.withPending l).tb = s.tb := rfl
@[simp] theorem State.withPending_evr (l : List Instr) : (s.withPending l).evr = s.evr := rfl
@[simp] theorem State.withPending_ctl (l : List Instr) : (s.withPending l).ctl = s.ctl := rfl
@[simp] theorem State.withPending_hre (l : List Instr) : (s.withPending l).hre = s.hre := rfl
@[simp] theorem State.withPending_parts (l : List Instr) : (s.withPending l).parts = s.parts := rfl
@[simp] theorem State.withPending_panels (l : List Instr) : (s.withPending l).panels = s.panels := rfl
@[simp] theorem State.withPending_nodes (l : List Instr) : (s.withPending l).nodes = s.nodes := rfl
@[simp] theorem State.withPending_ports (l : List Instr) : (s.withPending l).ports = s.ports := rfl
@[simp] theorem State.withPending_ctxs (l : List Instr) : (s.withPending l).ctxs = s.ctxs := rfl
@[simp] theorem State.withPending_shr (l : List Instr) : (s.withPending l).shr = s.shr := rfl
@[simp] theorem State.withPending_hbm (l : List Instr) : (s.withPending l).hbm = s.hbm := rfl
@[simp] theorem State.withPending_stitch (l : List Instr) : (s.withPending l).stitch = s.stitch := rfl
@[simp] theorem State.withPending_caps (l : List Instr) : (s.withPending l).caps = s.caps := rfl
@[simp] theorem State.withPending_boot (l : List Instr) : (s.withPending l).boot = s.boot := rfl
@[simp] theorem State.withPending_out (l : List Instr) : (s.withPending l).out = s.out := rfl
@[simp] theorem State.withPending_free (l : List Instr) : (s.withPending l).free = s.free := rfl
@[simp] theorem State.withPending_get (l : List Instr) (g : Fld) (j : Nat) : (s.withPending l).get g j = s.get g j := rfl
@[simp] theorem State.withPending_part (l : List Instr) (k : Nat) : (s.withPending l).part k = s.part k := rfl
@[simp] theorem State.withPending_panel (l : List Instr) (k : Nat) : (s.withPending l).panel k = s.panel k := rfl
@[simp] theorem State.withPending_node (l : List Instr) (k : Nat) : (s.withPending l).node k = s.node k := rfl
@[simp] theorem State.withPending_port (l : List Instr) (k : Nat) : (s.withPending l).port k = s.port k := rfl
@[simp] theorem State.withPending_ctx (l : List Instr) (k : Nat) : (s.withPending l).ctx k = s.ctx k := rfl
@[simp] theorem State.withPending_ring (l : List Instr) (k j : Nat) : (s.withPending l).ring k j = s.ring k j := rfl
@[simp] theorem State.withPending_func (l : List Instr) (k : Nat) : (s.withPending l).func k = s.func k := rfl
@[simp] theorem State.withPending_stitchOf (l : List Instr) (k : Nat) : (s.withPending l).stitchOf k = s.stitchOf k := rfl
@[simp] theorem State.withPending_cap (l : List Instr) (k : Nat) : (s.withPending l).cap k = s.cap k := rfl

/-! Registers. -/

theorem ctorIdx_lt (f : Fld) : f.ctorIdx < 512 := by cases f <;> decide

theorem ctorIdx_inj {f g : Fld} (h : f.ctorIdx = g.ctorIdx) : f = g := by
  rw [← Fld.ofNat_ctorIdx f, ← Fld.ofNat_ctorIdx g, h]

/-- Two elements of fields share no key. -/
theorem key_inj {f g : Fld} {i j : Nat} (h : f.key i = g.key j) : f = g ∧ i = j := by
  have hf := ctorIdx_lt f
  have hg := ctorIdx_lt g
  unfold Fld.key at h
  have h1 : i = j := by omega
  subst h1
  exact ⟨ctorIdx_inj (by omega), rfl⟩

/-- A field after a write of a field. -/
theorem State.get_set (f g : Fld) (v i j : Nat) :
    (s.set f v i).get g j = if f = g ∧ i = j then v % 2 ^ g.info.width else s.get g j := by
  unfold State.get State.set
  by_cases h : f = g ∧ i = j
  · obtain ⟨rfl, rfl⟩ := h; simp
  · have hk : g.key j ≠ f.key i := fun hk => h ⟨(key_inj hk).1.symm, (key_inj hk).2.symm⟩
    rw [if_neg h]; exact look_put_other _ _ _ _ hk

@[simp] theorem State.get_set_same (f : Fld) (v i : Nat) : (s.set f v i).get f i = v % 2 ^ f.info.width := by
  simp [State.get_set]

theorem State.get_set_ne {f g : Fld} (v i j : Nat) (h : f ≠ g ∨ i ≠ j) : (s.set f v i).get g j = s.get g j := by
  rw [State.get_set, if_neg]; rintro ⟨h1, h2⟩; exact h.elim (· h1) (· h2)

theorem State.inc_eq (f : Fld) (i n : Nat) : s.inc f i n = s.set f (satAdd f.info.width (s.get f i) n) i := rfl

theorem State.get_inc_ne {f g : Fld} (i n j : Nat) (h : f ≠ g ∨ i ≠ j) : (s.inc f i n).get g j = s.get g j :=
  State.get_set_ne s _ _ _ h

theorem State.get_setBit_ne {f g : Fld} (n : Nat) (b : Bool) (i j : Nat) (h : f ≠ g ∨ i ≠ j) :
    (s.setBit f n b i).get g j = s.get g j := State.get_set_ne s _ _ _ h

/-! Indexed parts. -/

@[simp] theorem State.part_setPart (q : Nat) (p : Part) : (s.setPart q p).part q = p := look_ins_same _ _ _ _
@[simp] theorem State.panel_setPanel (w : Nat) (p : Panel) : (s.setPanel w p).panel w = p := look_ins_same _ _ _ _
@[simp] theorem State.node_setNode (n : Nat) (x : Node) : (s.setNode n x).node n = x := look_ins_same _ _ _ _
@[simp] theorem State.port_setPort (p : Nat) (x : Port) : (s.setPort p x).port p = x := look_ins_same _ _ _ _
@[simp] theorem State.ctx_setCtx (x : Nat) (c : Ctx) : (s.setCtx x c).ctx x = c := look_ins_same _ _ _ _
@[simp] theorem State.ring_setRing (fn r : Nat) (x : Ring) : (s.setRing fn r x).ring fn r = x := look_ins_same _ _ _ _
@[simp] theorem State.func_setFunc (fn : Nat) (x : Func) : (s.setFunc fn x).func fn = x := look_ins_same _ _ _ _
@[simp] theorem State.stitchOf_setStitch (t : Nat) (x : Stitch) : (s.setStitch t x).stitchOf t = x := look_ins_same _ _ _ _
@[simp] theorem State.cap_setCap (n : Nat) (x : Cap) : (s.setCap n x).cap n = x := look_ins_same _ _ _ _

theorem State.part_setPart_ne {q k : Nat} (p : Part) (h : k ≠ q) : (s.setPart q p).part k = s.part k := look_ins_ne _ _ _ h
theorem State.panel_setPanel_ne {w k : Nat} (p : Panel) (h : k ≠ w) : (s.setPanel w p).panel k = s.panel k := look_ins_ne _ _ _ h
theorem State.node_setNode_ne {n k : Nat} (x : Node) (h : k ≠ n) : (s.setNode n x).node k = s.node k := look_ins_ne _ _ _ h
theorem State.port_setPort_ne {p k : Nat} (x : Port) (h : k ≠ p) : (s.setPort p x).port k = s.port k := look_ins_ne _ _ _ h
theorem State.ctx_setCtx_ne {x k : Nat} (c : Ctx) (h : k ≠ x) : (s.setCtx x c).ctx k = s.ctx k := look_ins_ne _ _ _ h
theorem State.func_setFunc_ne {fn k : Nat} (x : Func) (h : k ≠ fn) : (s.setFunc fn x).func k = s.func k := look_ins_ne _ _ _ h
theorem State.stitchOf_setStitch_ne {t k : Nat} (x : Stitch) (h : k ≠ t) : (s.setStitch t x).stitchOf k = s.stitchOf k :=
  look_ins_ne _ _ _ h
theorem State.cap_setCap_ne {n k : Nat} (x : Cap) (h : k ≠ n) : (s.setCap n x).cap k = s.cap k := look_ins_ne _ _ _ h

@[simp] theorem State.out_emit (o : Out) : (s.emit o).out = s.out ++ [o] := rfl
@[simp] theorem State.free_fresh : s.fresh.free = s.free + 1 := rfl
@[simp] theorem State.pending_withPending (l : List Instr) : (s.withPending l).pending = l := rfl

/-! Memory. -/

/-- A byte of HBM after a write of bytes. -/
theorem State.hbm_byte_hbmWrite (a : Nat) (bs : List Byte) (x : Nat) :
    look 0 (s.hbmWrite a bs).hbm.bytes x = if a ≤ x ∧ x < a + bs.length then bs.getD (x - a) 0 else look 0 s.hbm.bytes x :=
  look_writeBytes s.hbm.bytes a bs x

theorem State.hbmRead_hbmWrite (a : Nat) (bs : List Byte) : (s.hbmWrite a bs).hbmRead a bs.length = bs :=
  readBytes_writeBytes s.hbm.bytes a bs

@[simp] theorem State.hbmMark_bytes (a n : Nat) (b : Bool) : (s.hbmMark a n b).hbm.bytes = s.hbm.bytes := rfl
@[simp] theorem State.hbmClean_bytes (a n : Nat) : (s.hbmClean a n).hbm.bytes = s.hbm.bytes := rfl
@[simp] theorem State.hbmWrite_poison (a : Nat) (bs : List Byte) : (s.hbmWrite a bs).hbm.poison = s.hbm.poison := rfl

/-- Every memory operation keeps the canonical form. -/
theorem State.hbmWrite_wf (a : Nat) (bs : List Byte) (h : Memory.wf s.hbm.bytes = true) :
    Memory.wf (s.hbmWrite a bs).hbm.bytes = true := wf_writeBytes a bs h

theorem State.hbmMark_canon (a n : Nat) (b : Bool) (h : canon false s.hbm.poison = true) :
    canon false (s.hbmMark a n b).hbm.poison = true := canon_foldl_put false _ _ (fun _ _ => b) h

theorem State.hbmClean_canon (a n : Nat) (h : canon false s.hbm.poison = true) :
    canon false (s.hbmClean a n).hbm.poison = true := canon_foldl_put false _ _ (fun _ _ => false) h

theorem State.reset_mem_wf : Memory.wf State.reset.hbm.bytes = true ∧ Memory.wf State.reset.shr = true := ⟨rfl, rfl⟩

end Sys2Proof.Machine
end

