-- ==== Sys2Proof/Laws/Ops.lean ====
section
/-! SUPPORT. What the shared operations on events, completion records and faults can change. -/
namespace Sys2Proof.Machine

variable (s : State)

@[simp] theorem State.shadow_tb (fn r : Nat) : (s.shadow fn r).tb = s.tb := by
  simp only [State.shadow]; split <;> rfl
@[simp] theorem State.shadow_ctl (fn r : Nat) : (s.shadow fn r).ctl = s.ctl := by
  simp only [State.shadow]; split <;> rfl
@[simp] theorem State.shadow_parts (fn r : Nat) : (s.shadow fn r).parts = s.parts := by
  simp only [State.shadow]; split <;> rfl
@[simp] theorem State.shadow_panels (fn r : Nat) : (s.shadow fn r).panels = s.panels := by
  simp only [State.shadow]; split <;> rfl
@[simp] theorem State.shadow_nodes (fn r : Nat) : (s.shadow fn r).nodes = s.nodes := by
  simp only [State.shadow]; split <;> rfl
@[simp] theorem State.shadow_ports (fn r : Nat) : (s.shadow fn r).ports = s.ports := by
  simp only [State.shadow]; split <;> rfl
@[simp] theorem State.shadow_ctxs (fn r : Nat) : (s.shadow fn r).ctxs = s.ctxs := by
  simp only [State.shadow]; split <;> rfl
@[simp] theorem State.shadow_shr (fn r : Nat) : (s.shadow fn r).shr = s.shr := by
  simp only [State.shadow]; split <;> rfl
@[simp] theorem State.shadow_hbm (fn r : Nat) : (s.shadow fn r).hbm = s.hbm := by
  simp only [State.shadow]; split <;> rfl
@[simp] theorem State.shadow_stitch (fn r : Nat) : (s.shadow fn r).stitch = s.stitch := by
  simp only [State.shadow]; split <;> rfl
@[simp] theorem State.shadow_caps (fn r : Nat) : (s.shadow fn r).caps = s.caps := by
  simp only [State.shadow]; split <;> rfl
@[simp] theorem State.shadow_boot (fn r : Nat) : (s.shadow fn r).boot = s.boot := by
  simp only [State.shadow]; split <;> rfl
@[simp] theorem State.shadow_free (fn r : Nat) : (s.shadow fn r).free = s.free := by
  simp only [State.shadow]; split <;> rfl
@[simp] theorem State.shadow_pending (fn r : Nat) : (s.shadow fn r).pending = s.pending := by
  simp only [State.shadow]; split <;> rfl
@[simp] theorem State.shadow_evr (fn r : Nat) : (s.shadow fn r).evr = s.evr := by
  simp only [State.shadow]; split <;> rfl
@[simp] theorem State.shadow_regs (fn r : Nat) : (s.shadow fn r).regs = s.regs := by
  simp only [State.shadow]; split <;> rfl
@[simp] theorem State.complete_tb (fn : Nat) (c : Cplr) : (s.complete fn c).tb = s.tb := by
  simp only [State.complete]; split <;> rfl
@[simp] theorem State.complete_ctl (fn : Nat) (c : Cplr) : (s.complete fn c).ctl = s.ctl := by
  simp only [State.complete]; split <;> rfl
@[simp] theorem State.complete_parts (fn : Nat) (c : Cplr) : (s.complete fn c).parts = s.parts := by
  simp only [State.complete]; split <;> rfl
@[simp] theorem State.complete_panels (fn : Nat) (c : Cplr) : (s.complete fn c).panels = s.panels := by
  simp only [State.complete]; split <;> rfl
@[simp] theorem State.complete_nodes (fn : Nat) (c : Cplr) : (s.complete fn c).nodes = s.nodes := by
  simp only [State.complete]; split <;> rfl
@[simp] theorem State.complete_ports (fn : Nat) (c : Cplr) : (s.complete fn c).ports = s.ports := by
  simp only [State.complete]; split <;> rfl
@[simp] theorem State.complete_ctxs (fn : Nat) (c : Cplr) : (s.complete fn c).ctxs = s.ctxs := by
  simp only [State.complete]; split <;> rfl
@[simp] theorem State.complete_shr (fn : Nat) (c : Cplr) : (s.complete fn c).shr = s.shr := by
  simp only [State.complete]; split <;> rfl
@[simp] theorem State.complete_hbm (fn : Nat) (c : Cplr) : (s.complete fn c).hbm = s.hbm := by
  simp only [State.complete]; split <;> rfl
@[simp] theorem State.complete_stitch (fn : Nat) (c : Cplr) : (s.complete fn c).stitch = s.stitch := by
  simp only [State.complete]; split <;> rfl
@[simp] theorem State.complete_caps (fn : Nat) (c : Cplr) : (s.complete fn c).caps = s.caps := by
  simp only [State.complete]; split <;> rfl
@[simp] theorem State.complete_boot (fn : Nat) (c : Cplr) : (s.complete fn c).boot = s.boot := by
  simp only [State.complete]; split <;> rfl
@[simp] theorem State.complete_free (fn : Nat) (c : Cplr) : (s.complete fn c).free = s.free := by
  simp only [State.complete]; split <;> rfl
@[simp] theorem State.complete_pending (fn : Nat) (c : Cplr) : (s.complete fn c).pending = s.pending := by
  simp only [State.complete]; split <;> rfl
@[simp] theorem State.complete_evr (fn : Nat) (c : Cplr) : (s.complete fn c).evr = s.evr := by
  simp only [State.complete]; split <;> rfl
@[simp] theorem State.complete_regs (fn : Nat) (c : Cplr) : (s.complete fn c).regs = s.regs := by
  simp only [State.complete]; split <;> rfl
@[simp] theorem State.complete_out (fn : Nat) (c : Cplr) : (s.complete fn c).out = s.out := by
  simp only [State.complete]; split <;> rfl
@[simp] theorem State.notifyRing_tb (fn r : Nat) (q : Option Nat) : (s.notifyRing fn r q).tb = s.tb := by
  simp only [State.notifyRing]; repeat' split
  all_goals simp
@[simp] theorem State.notifyRing_ctl (fn r : Nat) (q : Option Nat) : (s.notifyRing fn r q).ctl = s.ctl := by
  simp only [State.notifyRing]; repeat' split
  all_goals simp
@[simp] theorem State.notifyRing_parts (fn r : Nat) (q : Option Nat) : (s.notifyRing fn r q).parts = s.parts := by
  simp only [State.notifyRing]; repeat' split
  all_goals simp
@[simp] theorem State.notifyRing_panels (fn r : Nat) (q : Option Nat) : (s.notifyRing fn r q).panels = s.panels := by
  simp only [State.notifyRing]; repeat' split
  all_goals simp
@[simp] theorem State.notifyRing_nodes (fn r : Nat) (q : Option Nat) : (s.notifyRing fn r q).nodes = s.nodes := by
  simp only [State.notifyRing]; repeat' split
  all_goals simp
@[simp] theorem State.notifyRing_ports (fn r : Nat) (q : Option Nat) : (s.notifyRing fn r q).ports = s.ports := by
  simp only [State.notifyRing]; repeat' split
  all_goals simp
@[simp] theorem State.notifyRing_ctxs (fn r : Nat) (q : Option Nat) : (s.notifyRing fn r q).ctxs = s.ctxs := by
  simp only [State.notifyRing]; repeat' split
  all_goals simp
@[simp] theorem State.notifyRing_shr (fn r : Nat) (q : Option Nat) : (s.notifyRing fn r q).shr = s.shr := by
  simp only [State.notifyRing]; repeat' split
  all_goals simp
@[simp] theorem State.notifyRing_hbm (fn r : Nat) (q : Option Nat) : (s.notifyRing fn r q).hbm = s.hbm := by
  simp only [State.notifyRing]; repeat' split
  all_goals simp
@[simp] theorem State.notifyRing_stitch (fn r : Nat) (q : Option Nat) : (s.notifyRing fn r q).stitch = s.stitch := by
  simp only [State.notifyRing]; repeat' split
  all_goals simp
@[simp] theorem State.notifyRing_caps (fn r : Nat) (q : Option Nat) : (s.notifyRing fn r q).caps = s.caps := by
  simp only [State.notifyRing]; repeat' split
  all_goals simp
@[simp] theorem State.notifyRing_boot (fn r : Nat) (q : Option Nat) : (s.notifyRing fn r q).boot = s.boot := by
  simp only [State.notifyRing]; repeat' split
  all_goals simp
@[simp] theorem State.notifyRing_free (fn r : Nat) (q : Option Nat) : (s.notifyRing fn r q).free = s.free := by
  simp only [State.notifyRing]; repeat' split
  all_goals simp
@[simp] theorem State.notifyRing_pending (fn r : Nat) (q : Option Nat) : (s.notifyRing fn r q).pending = s.pending := by
  simp only [State.notifyRing]; repeat' split
  all_goals simp
@[simp] theorem State.notifyRing_evr (fn r : Nat) (q : Option Nat) : (s.notifyRing fn r q).evr = s.evr := by
  simp only [State.notifyRing]; repeat' split
  all_goals simp
@[simp] theorem State.notifyRing_regs (fn r : Nat) (q : Option Nat) : (s.notifyRing fn r q).regs = s.regs := by
  simp only [State.notifyRing]; repeat' split
  all_goals simp
@[simp] theorem State.notifyRing_out (fn r : Nat) (q : Option Nat) : (s.notifyRing fn r q).out = s.out := by
  simp only [State.notifyRing]; repeat' split
  all_goals simp
@[simp] theorem State.offerTo_tb (fn : Nat) (r : Rec) : (s.offerTo fn r).tb = s.tb := by
  simp only [State.offerTo]; repeat' split
  all_goals simp
@[simp] theorem State.offerTo_ctl (fn : Nat) (r : Rec) : (s.offerTo fn r).ctl = s.ctl := by
  simp only [State.offerTo]; repeat' split
  all_goals simp
@[simp] theorem State.offerTo_parts (fn : Nat) (r : Rec) : (s.offerTo fn r).parts = s.parts := by
  simp only [State.offerTo]; repeat' split
  all_goals simp
@[simp] theorem State.offerTo_panels (fn : Nat) (r : Rec) : (s.offerTo fn r).panels = s.panels := by
  simp only [State.offerTo]; repeat' split
  all_goals simp
@[simp] theorem State.offerTo_nodes (fn : Nat) (r : Rec) : (s.offerTo fn r).nodes = s.nodes := by
  simp only [State.offerTo]; repeat' split
  all_goals simp
@[simp] theorem State.offerTo_ports (fn : Nat) (r : Rec) : (s.offerTo fn r).ports = s.ports := by
  simp only [State.offerTo]; repeat' split
  all_goals simp
@[simp] theorem State.offerTo_ctxs (fn : Nat) (r : Rec) : (s.offerTo fn r).ctxs = s.ctxs := by
  simp only [State.offerTo]; repeat' split
  all_goals simp
@[simp] theorem State.offerTo_shr (fn : Nat) (r : Rec) : (s.offerTo fn r).shr = s.shr := by
  simp only [State.offerTo]; repeat' split
  all_goals simp
@[simp] theorem State.offerTo_hbm (fn : Nat) (r : Rec) : (s.offerTo fn r).hbm = s.hbm := by
  simp only [State.offerTo]; repeat' split
  all_goals simp
@[simp] theorem State.offerTo_stitch (fn : Nat) (r : Rec) : (s.offerTo fn r).stitch = s.stitch := by
  simp only [State.offerTo]; repeat' split
  all_goals simp
@[simp] theorem State.offerTo_caps (fn : Nat) (r : Rec) : (s.offerTo fn r).caps = s.caps := by
  simp only [State.offerTo]; repeat' split
  all_goals simp
@[simp] theorem State.offerTo_boot (fn : Nat) (r : Rec) : (s.offerTo fn r).boot = s.boot := by
  simp only [State.offerTo]; repeat' split
  all_goals simp
@[simp] theorem State.offerTo_free (fn : Nat) (r : Rec) : (s.offerTo fn r).free = s.free := by
  simp only [State.offerTo]; repeat' split
  all_goals simp
@[simp] theorem State.offerTo_pending (fn : Nat) (r : Rec) : (s.offerTo fn r).pending = s.pending := by
  simp only [State.offerTo]; repeat' split
  all_goals simp
@[simp] theorem State.offerTo_evr (fn : Nat) (r : Rec) : (s.offerTo fn r).evr = s.evr := by
  simp only [State.offerTo]; repeat' split
  all_goals simp
@[simp] theorem State.offer_tb (r : Rec) : (s.offer r).tb = s.tb := by
  simp only [State.offer]; repeat' split
  all_goals simp
@[simp] theorem State.offer_ctl (r : Rec) : (s.offer r).ctl = s.ctl := by
  simp only [State.offer]; repeat' split
  all_goals simp
@[simp] theorem State.offer_parts (r : Rec) : (s.offer r).parts = s.parts := by
  simp only [State.offer]; repeat' split
  all_goals simp
@[simp] theorem State.offer_panels (r : Rec) : (s.offer r).panels = s.panels := by
  simp only [State.offer]; repeat' split
  all_goals simp
@[simp] theorem State.offer_nodes (r : Rec) : (s.offer r).nodes = s.nodes := by
  simp only [State.offer]; repeat' split
  all_goals simp
@[simp] theorem State.offer_ports (r : Rec) : (s.offer r).ports = s.ports := by
  simp only [State.offer]; repeat' split
  all_goals simp
@[simp] theorem State.offer_ctxs (r : Rec) : (s.offer r).ctxs = s.ctxs := by
  simp only [State.offer]; repeat' split
  all_goals simp
@[simp] theorem State.offer_shr (r : Rec) : (s.offer r).shr = s.shr := by
  simp only [State.offer]; repeat' split
  all_goals simp
@[simp] theorem State.offer_hbm (r : Rec) : (s.offer r).hbm = s.hbm := by
  simp only [State.offer]; repeat' split
  all_goals simp
@[simp] theorem State.offer_stitch (r : Rec) : (s.offer r).stitch = s.stitch := by
  simp only [State.offer]; repeat' split
  all_goals simp
@[simp] theorem State.offer_caps (r : Rec) : (s.offer r).caps = s.caps := by
  simp only [State.offer]; repeat' split
  all_goals simp
@[simp] theorem State.offer_boot (r : Rec) : (s.offer r).boot = s.boot := by
  simp only [State.offer]; repeat' split
  all_goals simp
@[simp] theorem State.offer_free (r : Rec) : (s.offer r).free = s.free := by
  simp only [State.offer]; repeat' split
  all_goals simp
@[simp] theorem State.offer_pending (r : Rec) : (s.offer r).pending = s.pending := by
  simp only [State.offer]; repeat' split
  all_goals simp
@[simp] theorem State.offer_evr (r : Rec) : (s.offer r).evr = s.evr := by
  simp only [State.offer]; repeat' split
  all_goals simp
@[simp] theorem State.logPut_tb (r : Rec) : (s.logPut r).tb = s.tb := by
  simp only [State.logPut]; repeat' split
  all_goals simp
@[simp] theorem State.logPut_ctl (r : Rec) : (s.logPut r).ctl = s.ctl := by
  simp only [State.logPut]; repeat' split
  all_goals simp
@[simp] theorem State.logPut_parts (r : Rec) : (s.logPut r).parts = s.parts := by
  simp only [State.logPut]; repeat' split
  all_goals simp
@[simp] theorem State.logPut_panels (r : Rec) : (s.logPut r).panels = s.panels := by
  simp only [State.logPut]; repeat' split
  all_goals simp
@[simp] theorem State.logPut_nodes (r : Rec) : (s.logPut r).nodes = s.nodes := by
  simp only [State.logPut]; repeat' split
  all_goals simp
@[simp] theorem State.logPut_ports (r : Rec) : (s.logPut r).ports = s.ports := by
  simp only [State.logPut]; repeat' split
  all_goals simp
@[simp] theorem State.logPut_ctxs (r : Rec) : (s.logPut r).ctxs = s.ctxs := by
  simp only [State.logPut]; repeat' split
  all_goals simp
@[simp] theorem State.logPut_shr (r : Rec) : (s.logPut r).shr = s.shr := by
  simp only [State.logPut]; repeat' split
  all_goals simp
@[simp] theorem State.logPut_hbm (r : Rec) : (s.logPut r).hbm = s.hbm := by
  simp only [State.logPut]; repeat' split
  all_goals simp
@[simp] theorem State.logPut_stitch (r : Rec) : (s.logPut r).stitch = s.stitch := by
  simp only [State.logPut]; repeat' split
  all_goals simp
@[simp] theorem State.logPut_caps (r : Rec) : (s.logPut r).caps = s.caps := by
  simp only [State.logPut]; repeat' split
  all_goals simp
@[simp] theorem State.logPut_boot (r : Rec) : (s.logPut r).boot = s.boot := by
  simp only [State.logPut]; repeat' split
  all_goals simp
@[simp] theorem State.logPut_free (r : Rec) : (s.logPut r).free = s.free := by
  simp only [State.logPut]; repeat' split
  all_goals simp
@[simp] theorem State.logPut_pending (r : Rec) : (s.logPut r).pending = s.pending := by
  simp only [State.logPut]; repeat' split
  all_goals simp
@[simp] theorem State.logPut_hre (r : Rec) : (s.logPut r).hre = s.hre := by
  simp only [State.logPut]; repeat' split
  all_goals simp
@[simp] theorem State.logPut_out (r : Rec) : (s.logPut r).out = s.out := by
  simp only [State.logPut]; repeat' split
  all_goals simp
@[simp] theorem State.enter_tb (r : Rec) : (s.enter r).tb = s.tb := by
  simp only [State.enter]; repeat' split
  all_goals simp
@[simp] theorem State.enter_ctl (r : Rec) : (s.enter r).ctl = s.ctl := by
  simp only [State.enter]; repeat' split
  all_goals simp
@[simp] theorem State.enter_parts (r : Rec) : (s.enter r).parts = s.parts := by
  simp only [State.enter]; repeat' split
  all_goals simp
@[simp] theorem State.enter_panels (r : Rec) : (s.enter r).panels = s.panels := by
  simp only [State.enter]; repeat' split
  all_goals simp
@[simp] theorem State.enter_nodes (r : Rec) : (s.enter r).nodes = s.nodes := by
  simp only [State.enter]; repeat' split
  all_goals simp
@[simp] theorem State.enter_ports (r : Rec) : (s.enter r).ports = s.ports := by
  simp only [State.enter]; repeat' split
  all_goals simp
@[simp] theorem State.enter_ctxs (r : Rec) : (s.enter r).ctxs = s.ctxs := by
  simp only [State.enter]; repeat' split
  all_goals simp
@[simp] theorem State.enter_shr (r : Rec) : (s.enter r).shr = s.shr := by
  simp only [State.enter]; repeat' split
  all_goals simp
@[simp] theorem State.enter_hbm (r : Rec) : (s.enter r).hbm = s.hbm := by
  simp only [State.enter]; repeat' split
  all_goals simp
@[simp] theorem State.enter_stitch (r : Rec) : (s.enter r).stitch = s.stitch := by
  simp only [State.enter]; repeat' split
  all_goals simp
@[simp] theorem State.enter_caps (r : Rec) : (s.enter r).caps = s.caps := by
  simp only [State.enter]; repeat' split
  all_goals simp
@[simp] theorem State.enter_boot (r : Rec) : (s.enter r).boot = s.boot := by
  simp only [State.enter]; repeat' split
  all_goals simp
@[simp] theorem State.enter_free (r : Rec) : (s.enter r).free = s.free := by
  simp only [State.enter]; repeat' split
  all_goals simp
@[simp] theorem State.enter_pending (r : Rec) : (s.enter r).pending = s.pending := by
  simp only [State.enter]; repeat' split
  all_goals simp
@[simp] theorem State.enter_hre (r : Rec) : (s.enter r).hre = s.hre := by
  simp only [State.enter]; repeat' split
  all_goals simp
@[simp] theorem State.enter_out (r : Rec) : (s.enter r).out = s.out := by
  simp only [State.enter]; repeat' split
  all_goals simp
@[simp] theorem State.raiseEv_tb (e : Ev) : (s.raiseEv e).tb = s.tb := by
  simp only [State.raiseEv]; repeat' split
  all_goals simp
@[simp] theorem State.raiseEv_ctl (e : Ev) : (s.raiseEv e).ctl = s.ctl := by
  simp only [State.raiseEv]; repeat' split
  all_goals simp
@[simp] theorem State.raiseEv_parts (e : Ev) : (s.raiseEv e).parts = s.parts := by
  simp only [State.raiseEv]; repeat' split
  all_goals simp
@[simp] theorem State.raiseEv_panels (e : Ev) : (s.raiseEv e).panels = s.panels := by
  simp only [State.raiseEv]; repeat' split
  all_goals simp
@[simp] theorem State.raiseEv_nodes (e : Ev) : (s.raiseEv e).nodes = s.nodes := by
  simp only [State.raiseEv]; repeat' split
  all_goals simp
@[simp] theorem State.raiseEv_ports (e : Ev) : (s.raiseEv e).ports = s.ports := by
  simp only [State.raiseEv]; repeat' split
  all_goals simp
@[simp] theorem State.raiseEv_ctxs (e : Ev) : (s.raiseEv e).ctxs = s.ctxs := by
  simp only [State.raiseEv]; repeat' split
  all_goals simp
@[simp] theorem State.raiseEv_shr (e : Ev) : (s.raiseEv e).shr = s.shr := by
  simp only [State.raiseEv]; repeat' split
  all_goals simp
@[simp] theorem State.raiseEv_hbm (e : Ev) : (s.raiseEv e).hbm = s.hbm := by
  simp only [State.raiseEv]; repeat' split
  all_goals simp
@[simp] theorem State.raiseEv_stitch (e : Ev) : (s.raiseEv e).stitch = s.stitch := by
  simp only [State.raiseEv]; repeat' split
  all_goals simp
@[simp] theorem State.raiseEv_caps (e : Ev) : (s.raiseEv e).caps = s.caps := by
  simp only [State.raiseEv]; repeat' split
  all_goals simp
@[simp] theorem State.raiseEv_boot (e : Ev) : (s.raiseEv e).boot = s.boot := by
  simp only [State.raiseEv]; repeat' split
  all_goals simp
@[simp] theorem State.raiseEv_free (e : Ev) : (s.raiseEv e).free = s.free := by
  simp only [State.raiseEv]; repeat' split
  all_goals simp
@[simp] theorem State.raiseEv_pending (e : Ev) : (s.raiseEv e).pending = s.pending := by
  simp only [State.raiseEv]; repeat' split
  all_goals simp

/-- Every register outside EVR and RING_STAT.DIDX is what it was after an event. -/
theorem State.get_offerTo (fn : Nat) (r : Rec) (g : Fld) (j : Nat) (h : g ≠ .RING_STAT_DIDX) :
    (s.offerTo fn r).get g j = s.get g j := by
  simp only [State.offerTo]
  repeat' split
  all_goals simp [State.get, State.notifyRing_regs]
  all_goals (exact State.get_set_ne _ _ _ _ (.inl (Ne.symm h)))

theorem State.get_offer (r : Rec) (g : Fld) (j : Nat) (h : g ≠ .RING_STAT_DIDX) : (s.offer r).get g j = s.get g j := by
  simp only [State.offer]
  repeat' split
  all_goals simp [State.get_offerTo, h]

theorem State.get_logPut (r : Rec) (g : Fld) (j : Nat) (h : g.info.blk ≠ .EVR) : (s.logPut r).get g j = s.get g j := by
  have h1 : Fld.EVR_NEXT_SLOT ≠ g := by rintro rfl; exact h rfl
  have h2 : Fld.EVR_WRITTEN_COUNT ≠ g := by rintro rfl; exact h rfl
  have h3 : Fld.EVR_OVF_COUNT ≠ g := by rintro rfl; exact h rfl
  have h4 : Fld.EVR_DROP_COUNT ≠ g := by rintro rfl; exact h rfl
  simp only [State.logPut]
  repeat' split
  all_goals simp [State.get_set_ne, State.get_inc_ne, h1, h2, h3, h4]
  all_goals rfl

theorem State.get_enter (r : Rec) (g : Fld) (j : Nat) (h : g.info.blk ≠ .EVR) : (s.enter r).get g j = s.get g j := by
  simp only [State.enter]
  split
  · rfl
  · exact State.get_logPut s _ g j h

/-- Every register outside EVR and RING_STAT.DIDX is what it was after an event. -/
theorem State.get_raiseEv (e : Ev) (g : Fld) (j : Nat) (h : g.info.blk ≠ .EVR) (h' : g ≠ .RING_STAT_DIDX) :
    (s.raiseEv e).get g j = s.get g j := by
  have h3 : Fld.EVR_OVF_COUNT ≠ g := by rintro rfl; exact h rfl
  have h4 : Fld.EVR_FRZ_CNT_COUNT ≠ g := by rintro rfl; exact h rfl
  simp only [State.raiseEv]
  repeat' split
  all_goals simp [State.get_inc_ne, State.get_offer, State.get_enter, h, h', h3, h4]
  all_goals first | rfl | (exact State.get_offer s _ g j h')

/-- A frozen log is changed by no event (R658). -/
theorem State.raiseEv_frozen (e : Ev) (h : s.is .EVR_FREEZE_FREEZE = true) : (s.raiseEv e).evr.log = s.evr.log := by
  simp only [State.raiseEv, h, if_true]
  repeat' split
  all_goals simp

/-- A fault's source records its event and sends one packet to stop 18 (R468). -/
theorem State.raiseFault_eq (f : FaultMsg) (d : Nat) :
    s.raiseFault f d =
      (s.raiseEv ⟨f.code, some f.part, f.srck, if f.srck ≤ 1 then f.panel else f.node, d⟩).sendPk (faultStopOf f) false
        (localPk (faultStopOf f) 18 f.part (.fault f)) := rfl

/-- A completion record joins its function's queue, except while PERST_N is low (R725). -/
theorem State.complete_cq (fn : Nat) (c : Cplr) (h : s.boot.perst = false) :
    ((s.complete fn c).func fn).cq = (s.func fn).cq ++ [{ c with formed := s.tally }] := by
  simp [State.complete, h]

end Sys2Proof.Machine
end

