-- ==== Sys2Proof/Laws/Regs.lean ====
section
/-! SUPPORT. Register words: which elements lie at an offset, and a write or read of a word as a fold over them. -/
namespace Sys2Proof.Machine

/-- The field elements whose registers hold the 4-byte word at BAR0 offset `off`, with the half. -/
def hitsAt (off fn : Nat) : List (Fld × Nat × Nat) :=
  Fld.all.flatMap (fun f => if off < blkBase f.info.blk then [] else (elems f (off - blkBase f.info.blk) fn).map (fun ih => (f, ih)))

/-- A word write is a fold over the elements it holds. -/
theorem writeWord_eq (who : Nat) (s : State) (off w : Nat) :
    writeWord who s off w = (hitsAt off (fnOf who)).foldl (fun s x => writeElem who s x.1 x.2 w) s := by
  unfold writeWord hitsAt
  rw [List.foldl_flatMap]
  congr 1
  funext s f
  split
  · rfl
  · rw [List.foldl_map]

/-- The field elements that the 4-byte word at `off` shows, at their main place or their quiet alias. -/
def shownAt (off fn : Nat) : List (Fld × Nat × Nat) :=
  Fld.all.flatMap (fun f =>
    if off < blkBase f.info.blk then [] else (shownElems f (off - blkBase f.info.blk) fn).map (fun ih => (f, ih)))

/-- A register word is the sum of the elements it shows. -/
theorem State.fieldWord_eq (s : State) (who off : Nat) :
    s.fieldWord who off = (shownAt off (fnOf who)).foldl (fun a x => a + s.wordPart who x.1 x.2) 0 := by
  unfold State.fieldWord shownAt
  rw [List.foldl_flatMap]
  congr 1
  funext s f
  split
  · rfl
  · rw [List.foldl_map]

/-- The state whose capture FIFO a read at `off` pops first. -/
def State.popAt (s : State) (who off : Nat) : State :=
  if off = addrOf .TIM_CAP_FIFO_TALLY && privileged who then { s with tb := { s.tb with cap := s.tb.cap.drop 1 } } else s

/-- The side effects of a read are a fold over the elements at the offset. -/
theorem State.readEffect_eq (s : State) (who off evs : Nat) :
    s.readEffect who off evs = (hitsAt off (fnOf who)).foldl (fun s x => s.clearElem who x.1 x.2 evs) (s.popAt who off) := by
  unfold State.readEffect hitsAt
  rw [List.foldl_flatMap]
  refine congrArg (fun g => List.foldl g (s.popAt who off) Fld.all) ?_
  funext s f
  by_cases h1 : off < blkBase f.info.blk
  · simp only [h1, or_true, if_true, List.foldl_nil]
  · by_cases h2 : f.info.acc = .RC
    · simp only [h1, h2, ne_eq, not_true_eq_false, or_false, if_false, List.foldl_map]
    · have h3 : ∀ (l : List (Nat × Nat)) (s : State), l.foldl (fun s ih => s.clearElem who f ih evs) s = s := by
        intro l
        induction l with
        | nil => intro s; rfl
        | cons x r ih => intro s; exact (congrArg (fun s => List.foldl _ s r) (by simp [State.clearElem, h2])).trans (ih s)
      simp only [h1, h2, ne_eq, not_false_eq_true, true_or, if_true, if_false, List.foldl_map, h3]

set_option maxRecDepth 20000 in
theorem hits_TIM_CTRL_SET_ALL (fn : Nat) : hitsAt (addrOf .TIM_CTRL_SET_ALL) fn =
    [(.TIM_CTRL_CROWN, 0, 0), (.TIM_CTRL_SERVO_EN, 0, 0), (.TIM_CTRL_SET_ACCEPT, 0, 0), (.TIM_CTRL_SET_ALL, 0, 0)] := by rfl

set_option maxRecDepth 20000 in
theorem hits_TIM_EVT_CTRL_ARM (fn : Nat) : hitsAt (addrOf .TIM_EVT_CTRL_ARM) fn =
    [(.TIM_EVT_CTRL_ARM, 0, 0), (.TIM_EVT_CTRL_POLARITY, 0, 0), (.TIM_EVT_CTRL_MISSED, 0, 0), (.TIM_EVT_CTRL_WIDTH, 0, 0), (.TIM_EVT_CTRL_PERIOD, 0, 0)] := by rfl

set_option maxRecDepth 20000 in
theorem hits_EVR_FREEZE_FREEZE (fn : Nat) : hitsAt (addrOf .EVR_FREEZE_FREEZE) fn =
    [(.EVR_FREEZE_FREEZE, 0, 0), (.EVR_FREEZE_LIMIT, 0, 0)] := by rfl

set_option maxRecDepth 20000 in
theorem hits_DBG_SNAP_CTRL_GO (fn : Nat) : hitsAt (addrOf .DBG_SNAP_CTRL_GO) fn =
    [(.DBG_SNAP_CTRL_GO, 0, 0), (.DBG_SNAP_CTRL_PART, 0, 0)] := by rfl

set_option maxRecDepth 20000 in
theorem hits_DBG_DACC_CTRL_GO (fn : Nat) : hitsAt (addrOf .DBG_DACC_CTRL_GO) fn =
    [(.DBG_DACC_CTRL_GO, 0, 0), (.DBG_DACC_CTRL_SIDE, 0, 0), (.DBG_DACC_CTRL_BUSY, 0, 0), (.DBG_DACC_CTRL_ERR, 0, 0), (.DBG_DACC_CTRL_PART, 0, 0), (.DBG_DACC_CTRL_STATUS, 0, 0)] := by rfl

set_option maxRecDepth 20000 in
theorem hits_MBX_PUSH_CTRL_GO (fn : Nat) : hitsAt (addrOf .MBX_PUSH_CTRL_GO) fn =
    [(.MBX_PUSH_CTRL_GO, 0, 0), (.MBX_PUSH_CTRL_BUSY, 0, 0), (.MBX_PUSH_CTRL_FAIL, 0, 0)] := by rfl

set_option maxRecDepth 20000 in
theorem hits_MBX_SETUP_COMMIT (fn : Nat) : hitsAt (addrOf .MBX_SETUP_COMMIT) fn =
    [(.MBX_SETUP_COMMIT, 0, 0), (.MBX_SETUP_COMMITTED, 0, 0), (.MBX_SETUP_REFUSED, 0, 0)] := by rfl

set_option maxRecDepth 20000 in
theorem hits_PWR_SHELF_ENTER (fn : Nat) : hitsAt (addrOf .PWR_SHELF_ENTER) fn =
    [(.PWR_SHELF_ENTER, 0, 0), (.PWR_SHELF_WAKE, 0, 0), (.PWR_SHELF_STATE, 0, 0), (.PWR_SHELF_REFUSED, 0, 0), (.PWR_SHELF_SRC, 0, 0)] := by rfl

end Sys2Proof.Machine
end

