-- ==== Sys2Proof/WellFormed.lean ====
section
/-! DEFINITION. Well-formed commands: every operand that names a part of the device names one it has. -/
namespace Sys2Proof

/-- The ranges of the operands: ports (R271), partitions (R601), panel windows (R766), functions (R386), contexts (R478),
stops (R445), DMA tags (R423), stacks (R304), power domains (R612), stitches (R285), registers (R759). -/
def wellFormed (i : Instr) : Bool :=
  match i with
  | .trefLost => true
  | .trefReturn => true
  | .setAll who v => decide (who ≤ 129) && decide (v < 2 ^ 64)
  | .tallySet port value frac => decide (port < 32) && decide (value < 2 ^ 56) && decide (frac < 64)
  | .syncExchange => true
  | .syncMarkArrive port _ => decide (port < 32)
  | .syncReply port => decide (port < 32)
  | .syncReplyArrive _ => true
  | .syncValues _ _ _ => true
  | .launch fn => decide (fn < 129)
  | .arm _ => true
  | .armed _ => true
  | .refuse _ => true
  | .commit _ => true
  | .abort _ => true
  | .launchNotCommitted q => decide (q < 128)
  | .launchSlot q => decide (q < 128)
  | .timEvtArm who v => decide (who ≤ 129) && decide (v < 2 ^ 64)
  | .timEvtAtWrite who v => decide (who ≤ 129) && decide (v < 2 ^ 64)
  | .tallyEvtPulse => true
  | .tallyEvtEnd => true
  | .tallyCapEdge _ frac => decide (frac < 64)
  | .timCapFifoPop who off len => decide (who ≤ 129) && decide (off < 2 ^ 48) && decide (len < 2 ^ 13)
  | .rcCounterRead who off len _ => decide (who ≤ 129) && decide (off < 2 ^ 48) && decide (len < 2 ^ 13)
  | .registerWrite who off len v _ => decide (who ≤ 129) && decide (off < 2 ^ 48) && decide (len < 2 ^ 13) && decide (v < 2 ^ 64)
  | .bar0BadAccess _ off len => decide (off < 2 ^ 48) && decide (len < 2 ^ 13)
  | .paceTargetWrite who d v => decide (who ≤ 129) && decide (d < 8) && decide (v < 2 ^ 64)
  | .stepWindowStart p => decide (p < 1088)
  | .stepDeadline p => decide (p < 1088)
  | .issueRecord p rec => decide (p < 1088) && decide (rec < 2 ^ 128)
  | .tile p _ => decide (p < 1088)
  | .lload p _ => decide (p < 1088)
  | .lstore p _ => decide (p < 1088)
  | .pcheck p _ => decide (p < 1088)
  | .vec p _ => decide (p < 1088)
  | .move p _ => decide (p < 1088)
  | .send p _ => decide (p < 1088)
  | .recv p _ => decide (p < 1088)
  | .foldTree p _ => decide (p < 1088)
  | .foldLift p _ => decide (p < 1088)
  | .foldExact p _ => decide (p < 1088)
  | .foldRound p _ => decide (p < 1088)
  | .rfill p _ => decide (p < 1088)
  | .waitSlot p _ => decide (p < 1088)
  | .waitRecv p _ => decide (p < 1088)
  | .waitComplete p => decide (p < 1088)
  | .rest p _ => decide (p < 1088)
  | .restResume p => decide (p < 1088)
  | .pmark p _ => decide (p < 1088)
  | .endList p _ => decide (p < 1088)
  | .slotEntryFire node q k _ => decide (node < 2 ^ 15) && decide (q < 128) && decide (k < 2 ^ 32)
  | .tuftArrive node inp _ => decide (node < 2 ^ 15) && decide (inp < 96)
  | .memoryNodeEntry d q k _ => decide (d < 8) && decide (q < 128) && decide (k < 2 ^ 32)
  | .memReadIssue d q k => decide (d < 8) && decide (q < 128) && decide (k < 2 ^ 32)
  | .banksw stop q b bank => (decide (stop < 8) || stop == 20 || stop == 21) && decide (q < 128) && decide (b < 2 ^ 32) && decide (bank < 2)
  | .bankSwitch q => decide (q < 128)
  | .cellSlot port => decide (port < 32)
  | .replaySlot port => decide (port < 32)
  | .maintenanceSlot port => decide (port < 32)
  | .cellReceive port _ => decide (port < 32)
  | .maintenanceBlockReceive port _ => decide (port < 32)
  | .replayAbandon port lsn => decide (port < 32) && decide (lsn < 2 ^ 16)
  | .portDown port => decide (port < 32)
  | .portRetrain port => decide (port < 32)
  | .stitchFrame t group _ _ => decide (t < 22) && decide (group < 16)
  | .stitchControlRetransmit t => decide (t < 22)
  | .stitchClockLoss t group => decide (t < 22) && decide (group < 16)
  | .scrubRead stack _ => decide (stack < 8)
  | .hbmRefresh stack => decide (stack < 8)
  | .selfRefreshRequest who v => decide (who ≤ 129) && decide (v < 2 ^ 64)
  | .quotaWrite who q v => decide (who ≤ 129) && decide (q < 128) && decide (v < 2 ^ 64)
  | .bar2Read off len _ => decide (off < 2 ^ 48) && decide (len < 2 ^ 13)
  | .bar2Write off _ => decide (off < 2 ^ 48)
  | .opticalWrite who port v => decide (who ≤ 129) && decide (port < 32) && decide (v < 2 ^ 64)
  | .rackWrite who v => decide (who ≤ 129) && decide (v < 2 ^ 64)
  | .conformateurRun who v => decide (who ≤ 129) && decide (v < 2 ^ 64)
  | .probe port _ _ => decide (port < 32)
  | .probeReplySend port => decide (port < 32)
  | .probeReply port _ _ => decide (port < 32)
  | .probeTimeout port => decide (port < 32)
  | .conformateurDone => true
  | .hopAdvertSend => true
  | .hopAdvertReceive port _ => decide (port < 32)
  | .conflictClear => true
  | .tset who v => decide (who ≤ 129) && decide (v < 2 ^ 64)
  | .ringEnable who r v => decide (who ≤ 129) && decide (r < 16) && decide (v < 2 ^ 64)
  | .ringKick who r v => decide (who ≤ 129) && decide (r < 16) && decide (v < 2 ^ 64)
  | .backgroundPoll => true
  | .doorbellRead tag _ => decide (tag < 16384)
  | .submissionMalformed fn => decide (fn < 129)
  | .nop fn => decide (fn < 129)
  | .load fn _ => decide (fn < 129)
  | .loadApply q => decide (q < 128)
  | .unload fn => decide (fn < 129)
  | .stop fn => decide (fn < 129)
  | .watch fn => decide (fn < 129)
  | .haltCommand fn => decide (fn < 129)
  | .resume fn => decide (fn < 129)
  | .intakePoint q k => decide (q < 128) && decide (k < 2 ^ 32)
  | .intakeConsume q k => decide (q < 128) && decide (k < 2 ^ 32)
  | .intakeDeadline q k => decide (q < 128) && decide (k < 2 ^ 32)
  | .egressFrameWrite fn r => decide (fn < 129) && decide (r < 16)
  | .egressWaitExpire fn r => decide (fn < 129) && decide (r < 16)
  | .gapDescriptor fn r => decide (fn < 129) && decide (r < 16)
  | .completionWrite fn => decide (fn < 129)
  | .backlogDrain fn => decide (fn < 129)
  | .msixUnmask fn => decide (fn < 129)
  | .dmaTimeout tag => decide (tag < 16384)
  | .dmaCompletion tag _ _ => decide (tag < 16384)
  | .tagQuarantineEnd tag => decide (tag < 16384)
  | .flrVf f => decide (f < 128)
  | .flrPf => true
  | .ringEntry _ stop => decide (stop < 24)
  | .ringHop _ stop _ => decide (stop < 24)
  | .packetEject _ stop _ => decide (stop < 24)
  | .recirculationLimit stop => decide (stop < 24)
  | .gatewayIngress stop _ _ => decide (stop < 24)
  | .requestTimeout stop rtag => decide (stop < 24) && decide (rtag < 256)
  | .rtagRelease stop rtag => decide (stop < 24) && decide (rtag < 256)
  | .portControlFrame port _ => decide (port < 32)
  | .portControlResend port => decide (port < 32)
  | .issuePacket die _ => decide (die < 8)
  | .read stop _ _ => decide (stop < 24)
  | .write stop _ => decide (stop < 24)
  | .data stop _ => decide (stop < 24)
  | .ack stop _ => decide (stop < 24)
  | .error stop _ => decide (stop < 24)
  | .faultPacket _ => true
  | .stopnote _ => true
  | .memberHalt q => decide (q < 128)
  | .faultCompletion q => decide (q < 128)
  | .event _ => true
  | .add x _ => decide (x < 128)
  | .sub x _ => decide (x < 128)
  | .and x _ => decide (x < 128)
  | .or x _ => decide (x < 128)
  | .xor x _ => decide (x < 128)
  | .sll x _ => decide (x < 128)
  | .srl x _ => decide (x < 128)
  | .sra x _ => decide (x < 128)
  | .slt x _ => decide (x < 128)
  | .sltu x _ => decide (x < 128)
  | .mul x _ => decide (x < 128)
  | .addi x _ => decide (x < 128)
  | .andi x _ => decide (x < 128)
  | .ori x _ => decide (x < 128)
  | .slli x _ => decide (x < 128)
  | .srli x _ => decide (x < 128)
  | .srai x _ => decide (x < 128)
  | .lih x _ => decide (x < 128)
  | .beq x _ => decide (x < 128)
  | .bne x _ => decide (x < 128)
  | .blt x _ => decide (x < 128)
  | .bge x _ => decide (x < 128)
  | .bltu x _ => decide (x < 128)
  | .bgeu x _ => decide (x < 128)
  | .jal x _ => decide (x < 128)
  | .jalr x _ => decide (x < 128)
  | .ld x _ => decide (x < 128)
  | .st x _ => decide (x < 128)
  | .lds x _ => decide (x < 128)
  | .sts x _ => decide (x < 128)
  | .lkl x _ => decide (x < 128)
  | .lks x _ => decide (x < 128)
  | .ldr x _ => decide (x < 128)
  | .str x _ => decide (x < 128)
  | .waitt x _ => decide (x < 128)
  | .waittComplete x => decide (x < 128)
  | .rdt x _ => decide (x < 128)
  | .issue x _ => decide (x < 128)
  | .switch x _ => decide (x < 128)
  | .sema x _ => decide (x < 128)
  | .semr x _ => decide (x < 128)
  | .intake x _ => decide (x < 128)
  | .egress x _ => decide (x < 128)
  | .egressStaged x => decide (x < 128)
  | .cmark x _ => decide (x < 128)
  | .halt x _ => decide (x < 128)
  | .illegalInstruction x _ => decide (x < 128)
  | .seqMemDataWrite who v => decide (who ≤ 129) && decide (v < 2 ^ 64)
  | .checkpointWrite q => decide (q < 128)
  | .checkpointCommit q => decide (q < 128)
  | .finishBoundary q => decide (q < 128)
  | .finishReport _ => true
  | .stampForm q => decide (q < 128)
  | .stamp q _ => decide (q < 128)
  | .finishReportMissing q => decide (q < 128)
  | .allotmentWrite who off v => decide (who ≤ 129) && decide (off < 2 ^ 48) && decide (v < 2 ^ 64)
  | .shrWrite who q v => decide (who ≤ 129) && decide (q < 128) && decide (v < 2 ^ 64)
  | .domainModeWrite who w v => decide (who ≤ 129) && decide (w < 5) && decide (v < 2 ^ 64)
  | .domainOn dom => decide (dom < 78)
  | .shelfEnter who v => decide (who ≤ 129) && decide (v < 2 ^ 64)
  | .shelfEntryDone => true
  | .shelfWake src => decide (src < 4)
  | .shelfWakeDone => true
  | .monitorRefresh _ => true
  | .captureDrain n => decide (n < 16)
  | .cuEnable who n v => decide (who ≤ 129) && decide (n < 16) && decide (v < 2 ^ 64)
  | .cuSnap who n v => decide (who ≤ 129) && decide (n < 16) && decide (v < 2 ^ 64)
  | .evrFreeze who v => decide (who ≤ 129) && decide (v < 2 ^ 64)
  | .evrUnfreeze who v => decide (who ≤ 129) && decide (v < 2 ^ 64)
  | .freezeLimit => true
  | .clearArm who quote => decide (who ≤ 129) && decide (quote < 2 ^ 32)
  | .clearCommit who quote => decide (who ≤ 129) && decide (quote < 2 ^ 32)
  | .clearArmLapse => true
  | .haltNotice _ => true
  | .debugHaltReached q => decide (q < 128)
  | .resumeArm _ => true
  | .resumeArmed _ => true
  | .resumeRefuse _ => true
  | .resumeCommit _ => true
  | .resumeAbort _ => true
  | .resumeNotCommitted q => decide (q < 128)
  | .resumeSlot q => decide (q < 128)
  | .watchDrain q p w => decide (q < 128) && decide (p < 1088) && decide (w < 64)
  | .obsBucketRefill q => decide (q < 128)
  | .debugRead who v => decide (who ≤ 129) && decide (v < 2 ^ 64)
  | .counterSnapshot who v => decide (who ≤ 129) && decide (v < 2 ^ 64)
  | .coldReset => true
  | .systemReset _ => true
  | .pcieReset => true
  | .bootRom => true
  | .firmware _ _ => true
  | .fuseAndStrapChecks _ => true
  | .hbmTraining _ => true
  | .stitchTraining _ => true
  | .portTraining _ => true
  | .setupCommit who v => decide (who ≤ 129) && decide (v < 2 ^ 64)
  | .pushGo who v => decide (who ≤ 129) && decide (v < 2 ^ 64)
  | .pushVerifyDone _ => true
  | .bootStatus => true
  | .fwBlock _ => true
  | .fwDone _ => true
  | .shelf code => decide (code < 256)
  | .coord => true
  | .fault => true
  | .smbusPecReject code => decide (code < 256)
  | .avsWrite rail _ _ => decide (rail < 256)
  | .thermalTrip die => decide (die ≤ 8)
  | .extest => true
  | .samplePreload _ => true
  | .idcode => true
  | .highz => true
  | .clamp => true
  | .extestPulse => true
  | .extestTrain => true
  | .diesel _ => true
  | .stitchtest _ _ => true
  | .porttest _ _ => true
  | .dbgacc _ => true
  | .bypass code => decide (code < 2 ^ 32)
  | .resetRelease _ => true
  | .perstRelease => true
  | .powerDown => true
  | .pcieLinkDown => true
  | .pcieLinkUp _ _ _ => true
  | .alignmentSlot port => decide (port < 32)
  | .functionLevelResetDone f => decide (f < 128)
  | .vfEnable f _ => decide (f < 128)

end Sys2Proof
end

