-- ==== Sys2Proof/Tests/Slice0.lean ====
section
/-! SUPPORT. Tests: ill-formed commands are refused, and for every statement with hypotheses a state and operands that meet
them, clause by clause. -/
namespace Sys2Proof.Tests
set_option Elab.async false
set_option autoImplicit false
open Sys2Proof Sys2Proof.Machine

/-! The states of the tests. -/

/-- A state with register fields set: field, element, value. -/
def st (l : List (Fld × Nat × Nat)) : State := l.foldl (fun s e => s.set e.1 e.2.2 e.2.1) {}

/-- A small image of digest 7 with two steps of 1,000 slots. -/
def im (b : BlockImage) : Image := { digest := toLE 32 7, steps := 2, stopreach := 100, img := { b with grid := [0, 1000, 2000] } }

/-- Partition 3 in run state `r`, holding the image with sections `b`, with register fields set. -/
def run (r : Nat) (b : BlockImage) (l : List (Fld × Nat × Nat)) : State :=
  { st ((.TIM_LAUNCH_STATE_STATE, 3, r) :: l) with parts := [(3, { image := some (im b) })] }

/-- A submission descriptor of the physical function, with IRQ. -/
def subD (op q tag : Nat) (arg : List Byte) : List Byte :=
  toLE 1 op ++ toLE 1 1 ++ toLE 1 0 ++ toLE 1 (q + 128) ++ toLE 4 tag ++ (arg ++ List.replicate 56 0).take 56

/-- The ring engine with descriptors fetched on the physical function's ring 0. -/
def host (l : List (List Byte)) : Hre := { rings := [(0, { fetched := l })] }

/-- An operand descriptor word. -/
def desc (space fmt addr rows cols stride cmask : Nat) : Nat :=
  space + fmt * 2 ^ 4 + addr * 2 ^ 8 + rows * 2 ^ 32 + cols * 2 ^ 48 + stride * 2 ^ 64 + cmask * 2 ^ 96

/-- The step window of the panel tests: slots 0 to 999 with 8 settle slots. -/
def win : IssueRec := { settle := 8, len := 1000 }

/-- Panel memory with a directory of one list at word 1, with the word `h` followed by the words `ws`. -/
def lst (h : Nat) (ws : List Nat) : SMap Byte :=
  writeBytes [] 0 (toLE 2 1 ++ toLE 2 (1 + ws.length) ++ List.replicate 12 0 ++ (h :: ws).flatMap (toLE 16))

/-- Panel windows 0 and 1 in a window of partition 3, window 0 with its list at the word `h` followed by the words `ws`. -/
def pan2 (h : Nat) (ws : List Nat) (x y : Panel) : State :=
  { run 3 {} [(.PNL_SL_CFG_SLR, 0, 1), (.PNL_SL_CFG_DIRN, 0, 1), (.PNL_SL_CFG_SLR, 1, 1), (.PNL_SL_CFG_DIRN, 1, 1),
      (.PNL_SL_STAT_ACTIVE, 0, 1), (.PWR_SLACK_WARN_SLACK, 0, 0)] with
    panels := [(0, { x with part := some 3, gated := false, win := some win, st := .running, mem := lst h ws }),
      (1, { y with part := some 3, logical := 1, gated := false, win := some win, st := .running })] }
def pan (h : Nat) (ws : List Nat) (x : Panel) : State := pan2 h ws x {}

/-- The same state at tally `t`. -/
def at_ (t : Nat) (s : State) : State := s.set .TIM_TALLY_TALLY t

/-- Panel window 0 of partition 3 in its window, with its state, at tally `t`. -/
def wnd (t : Nat) (x : Panel) : State :=
  { run 3 {} [(.TIM_TALLY_TALLY, 0, t)] with panels := [(0, { x with part := some 3, gated := false, win := some win })] }

/-- A bank of one entry in a frame of ten slots. -/
def bk (en : Entry) : Bank := { flen := 10, entries := [en] }

/-- Node `n` in a run of partition 3, with its slice of one entry in a frame of ten slots. -/
def nd (n : Nat) (en : Entry) (x : Node) : State :=
  { run 3 {} [] with nodes := [(n, { x with slices := [(3, { hi := 10, a := bk en })] })] }

/-- Port `p` up at tally `t`, with its link state `x`. -/
def prt (p t : Nat) (x : Port) : State := { st [(.LNK_P_STAT_UP, p, 1), (.TIM_TALLY_TALLY, 0, t)] with ports := [(p, x)] }

/-- A STOP, WATCH, HALT or RESUME for partition 3 waiting on the physical function's ring, in run state `r`. -/
def cmd (op r : Nat) (l : List (Fld × Nat × Nat)) (b : BlockImage) : State :=
  { run r b ((.PWR_DOM_STAT_ON, 2, 0xFFFF) :: l) with hre := host [subD op 3 9 []] }

/-- Partition 3 with a debug halt. -/
def hlt (l : List (Fld × Nat × Nat)) (h : HaltSt) : State :=
  { run 3 {} l with parts := [(3, { image := some (im { halts := [1] }), halt := some h })] }

/-- An intake declaration of partition 3, with where its point stands and what its reads have returned. -/
def itk (l : List (Fld × Nat × Nat)) (x : IntakeSt) (p : ImgIntake) (d : InRead) : State :=
  { run 3 {} ((.PCX_LINK_RATE, 0, 5) :: l) with
    parts := [(3, { image := some (im { intakes := [p] }), intakes := [(0, x)], inReads := [(0, d)] })] }

/-- The physical function's ring `r` in use, with its state and its function's. -/
def rng (r : Nat) (x : Ring) (f : Func) : State :=
  { st [(.HRE_CTRL_ENABLE, 0, 1), (.RING_CFG_ENABLE, r, 1), (.PWR_DOM_STAT_ON, 2, 0xFFFF), (.PCX_LINK_RATE, 0, 5)] with
    hre := { rings := [(r, x)], funcs := [(0, f)] } }

/-- The same with the read `d` outstanding under tag 6. -/
def rdg (r : Nat) (x : Ring) (d : Dma) : State := let s := rng r x {}; { s with hre := { s.hre with dma := [(6, d)] } }

/-- A block image of 160 bytes: header, one section, the step grid [0, 9]; its digest `dg`. -/
def imgOf (dg : List Byte) : List Byte :=
  [0x45, 0x56, 0x4E, 0x42, 0x4C, 0x4B] ++ toLE 2 1 ++ toLE 8 160 ++ dg ++ toLE 2 0 ++ [1, 1, 1, 1, 0, 0] ++ toLE 4 1
    ++ toLE 4 4096 ++ toLE 4 0 ++ toLE 4 1 ++ List.replicate 56 0 ++ toLE 2 1 ++ toLE 2 0xFFFF ++ toLE 4 16 ++ toLE 8 144
    ++ toLE 8 0 ++ toLE 8 9
def imgB : List Byte := imgOf (imageDigest (imgOf (List.replicate 32 0)))

/-- A LOAD of that image to partition 3 on a device that is ready. -/
def lodD : List Byte := subD 2 3 9 (toLE 8 0 ++ toLE 4 160)
def lod : State := { st [(.MBX_BOOT_STAGE, 0, 9)] with hre := host [lodD] }

/-- The sequencer instruction of kind `k` with the rest of its bits. -/
def enc (k rd ra rest : Nat) : Nat := (if k < 64 then k else k / 64 * 2 ^ 26) + rd * 2 ^ 21 + ra * 2 ^ 16 + rest

/-- Context 0 of partition 3 at an instruction `w`, with its state `c`, its partition's and other contexts. -/
def seq (w : Nat) (l : List (Fld × Nat × Nat)) (c : Ctx) (p : Part) (o : SMap Ctx) : State :=
  { run 3 {} ([(.SEQ_CTX_BIND_BOUND, 0, 1), (.SEQ_CTX_BIND_PART, 0, 3), (.SEQ_CTX_STATE_STATE, 0, 2), (.SEQ_SHR_SIZE, 3, 64)] ++ l) with
    parts := [(3, p)], ctxs := (0, { c with imem := writeBytes [] 0 (toLE 4 w) }) :: o }

/-- One packet in the buffers or queue of the given key. -/
def bfs (k : Nat) (pk : Packet) : State := { st [] with ctl := { bufs := [(k, [pk])] } }
def rd8 (dst : Nat) : Packet := { localPk 0 dst 3 (.read 0 8) with rxp := true }

/-- Request 5 of stop 8 is outstanding. -/
def rq (p : Purp) (l : List (Fld × Nat × Nat)) : State := { st l with ctl := { reqs := [(256 * 8 + 5, { purp := p, due := 10 })] } }

/-- A device out of reset in boot stage `n`. -/
def bt (n : Nat) (l : List (Fld × Nat × Nat)) (b : Boot) : State :=
  { st ((.MBX_BOOT_STAGE, 0, n) :: l) with boot := { b with released := true } }

/-! Shapes of hypotheses. -/

theorem allNone {α : Type} {o : Option α} {P : α → Prop} (h : o = none) : ∀ a, o = some a → P a := fun a e => by
  rw [h] at e; cases e

theorem allSome {α : Type} {o : Option α} {v : α} {P : α → Prop} (h : o = some v) (p : P v) : ∀ a, o = some a → P a := fun a e => by
  rw [h] at e; cases e; exact p

/-- What `SeqAt` and `SeqReady` ask, as a Bool. -/
def atB (s : State) (x k w : Nat) : Bool :=
  decide (s.ctxRuns x = true ∧ s.get .SEQ_CTX_STATE_STATE x = 2 ∧ s.pcOf x % 4 = 0 ∧ s.pcOf x < s.winSize x
    ∧ ofLE (readBytes (s.ctx x).imem (s.pcOf x) 4) = w ∧ seqKind w = some k)
def readyB (s : State) (x k w : Nat) : Bool :=
  atB s x k w && (match (s.ctx x).lock with | some (_, n) => decide (n < 32 ∧ lockOkKind k = true) | none => true)
    && (List.range 8).all (fun j => !s.is .DBG_BP_EN (8 * s.get .SEQ_CTX_BIND_PART x + j))

theorem seqAt_of {s : State} {x k w : Nat} (h : atB s x k w = true) : SeqAt s x k w := by
  unfold SeqAt; exact of_decide_eq_true h

theorem seqReady_of {s : State} {x k w : Nat} (h : readyB s x k w = true) : SeqReady s x k w := by
  simp only [readyB, Bool.and_eq_true, List.all_eq_true, List.mem_range, Bool.not_eq_true'] at h
  obtain ⟨⟨a, l⟩, z⟩ := h
  refine ⟨seqAt_of a, fun y n hl => ?_, fun j hj t => ?_⟩
  · rw [hl] at l; simpa using l
  · have e : s.is .DBG_BP_EN (8 * s.get .SEQ_CTX_BIND_PART x + j) = true := t.1
    rw [z j hj] at e; cases e

theorem noSem_of {s : State} {x : Nat} (h : (s.part (s.get .SEQ_CTX_BIND_PART x)).semOwner = []) : NoSem s x := fun n => by
  rw [h]; exact fun e => by cases e

theorem pnlAt_of {s : State} {p q : Nat} {r : IssueRec} {o : POp}
    (h : (s.panel p).part = some q ∧ (s.panel p).win = some r ∧ (s.panel p).st = .running ∧ s.reached q (dueSlot r) = false
      ∧ s.boot.tripped = false ∧ (s.opAtPos p q r (s.panel p) []).bad = none ∧ (s.opAtPos p q r (s.panel p) []).o = o) :
    PnlAt s p q r o := h

theorem subFor_none {s : State} {fn : Nat} (h : (s.ring fn 0).fetched = []) : ∀ op, s.subFor fn op = none := fun op => by
  unfold State.subFor; rw [h]; split <;> rfl

theorem intakeReady_of {s : State} {q k : Nat} {p : ImgIntake}
    (h : s.point q k = some p ∧ s.intakeSt q k = .reading ∧ (s.inRead q k).left = 0 ∧ s.runSt q = 3 ∧ (s.part q).haltedAt = none
      ∧ ((s.inRead q k).takes = 0 ∨ s.get .RING_STAT_DIDX (16 * (s.part q).ringFn + ringOf p) = (s.inRead q k).base)
      ∧ cmp32 s.tally (s.slotTally q (p.slot + p.w)) ≤ 0) : IntakeReady s q k p := h

theorem notReady_of {s : State} {q k : Nat} (h : s.point q k = none) : ∀ p, ¬ IntakeReady s q k p := fun p e => by
  have e1 := e.1
  rw [h] at e1; cases e1

theorem readFails_of {s : State} {tag : Nat} {d : Dma} (h : look? s.hre.dma tag = some d) :
    ReadFails (.dmaCompletion tag .error []) s tag d := ⟨h, .inl ⟨.error, [], by decide, rfl⟩⟩

theorem cellGood_withLcrc {c : Cell} (h : c.uncorrectable = false) : cellGood (withLcrc c) = true := by
  show (!c.uncorrectable && crc32 (cellHead c) == crc32 (cellHead c)) = true
  rw [h, beq_self_eq_true]; rfl

theorem check_sealed (t : Tuft) : (sealed t).check = checkOf (sealed t) := rfl

theorem atInput_nd (en : Entry) (x : Tuft) : (nd 16384 en { inputs := [(1, [(0, x)])] }).atInput 16384 1 = some x := rfl

theorem noneLeaves_of {s : State} (h : s.ctl.ejq = []) : NoneLeaves s := fun stop _ reply p e => by
  unfold State.ejected at e; rw [h] at e; cases e

theorem quadHeads_of {s : State} {stop : Nat}
    (h : (List.range 16).all (fun i => match (s.ctx (16 * (stop - 8) + i)).queue.head? with
      | some b => !(s.issuePackets (16 * (stop - 8) + i) b).isEmpty
      | none => true) = true) : QuadHeads s stop := fun i hi b e n => by
  have := List.all_eq_true.mp h i (List.mem_range.mpr hi)
  rw [e] at this
  simp [n] at this

/-! Well-formedness. -/

/-- `wellFormed` refuses each. -/
def refused (l : List Instr) : Bool := l.all (fun i => !wellFormed i)

theorem test_wellFormed_access : refused
    [.setAll 130 0, .setAll 0 (2 ^ 64), .rcCounterRead 0 (2 ^ 48) 4 0, .rcCounterRead 0 0 8192 0, .paceTargetWrite 0 8 0,
     .opticalWrite 0 32 0, .ringEnable 0 16 0, .quotaWrite 0 128 0, .domainModeWrite 0 5 0, .cuEnable 0 16 0, .clearArm 0 (2 ^ 32)] = true := by
  decide

theorem test_wellFormed_parts : refused
    [.tallySet 32 0 0, .tallySet 0 (2 ^ 56) 0, .tallySet 0 0 64, .launchSlot 128, .launch 129, .stepWindowStart 1088,
     .issueRecord 0 (2 ^ 128), .slotEntryFire (2 ^ 15) 0 0 .clean, .slotEntryFire 0 0 (2 ^ 32) .clean, .tuftArrive 0 96 {},
     .memReadIssue 8 0 0, .banksw 8 0 0 0, .banksw 0 0 (2 ^ 32) 0, .banksw 0 0 0 2, .replayAbandon 0 (2 ^ 16), .stitchFrame 22 0 true {},
     .stitchFrame 0 16 true {}, .scrubRead 8 .clean] = true := by decide

theorem test_wellFormed_engines : refused
    [.doorbellRead 16384 [], .egressFrameWrite 129 0, .egressFrameWrite 0 16, .flrVf 128, .ringEntry true 24, .requestTimeout 0 256,
     .issuePacket 8 {}, .add 128 .clean, .domainOn 78, .shelfWake 4, .watchDrain 0 0 64, .shelf 256, .avsWrite 256 0 [],
     .thermalTrip 9, .bypass (2 ^ 32)] = true := by decide

/-! Meanings. -/

/-- What a meaning answered, where it is a next state. -/
def after (o : Host.Outcome State Fault Refusal) : State := match o with | .next t => t | _ => {}

/-- 0xFFFFFFFFFFFFFFFF + 1 wraps to 0 (R485). -/
theorem test_add_wraps :
    (after (exec (.add 0 .clean) (seq (enc 0 1 2 (3 * 2 ^ 11)) [] { g := [(2, -1), (3, 1)] } {} []))).g 0 1 = 0 := by decide +kernel

/-- SRA of a negative number keeps the sign; the amount is the low six bits (R485). -/
theorem test_sra_sign :
    (after (exec (.sra 0 .clean) (seq (enc 7 1 2 (3 * 2 ^ 11)) [] { g := [(2, -8), (3, 65)] } {} []))).g 0 1 = -4 := by decide +kernel

/-- A branch's offset counts words from its own address (R485). -/
theorem test_beq_back :
    (after (exec (.beq 0 .clean) (seq (enc 512 1 2 0xFFFF) [] {} {} []))).get .SEQ_CTX_STATE_PC 0 = 2 ^ 16 - 4 := by decide +kernel

/-- The queue's front command runs and leaves the queue (log entry 1). -/
theorem test_step_front :
    (after (step { st [] with pending := [.nop 0, .trefLost] })).pending = [.trefLost] := by decide +kernel


/-! Hypotheses. -/


/-- The hypotheses of TallySets can hold. -/
theorem witness_tallySets :
   (∃ (s : State) (who v : Nat), privileged who = true ∧ bit v 3 = true ∧ v < 2 ^ 32 ∧ s.anyBusy = false ∧ (if s.is .MBX_SETUP_COMMITTED
      then s.is .TIM_CTRL_CROWN else bit v 0) = true)
    ∧ (∃ (s : State) (who v : Nat), privileged who = true ∧ bit v 3 = true ∧ v < 2 ^ 32 ∧ (s.anyBusy = true ∨ (if s.is .MBX_SETUP_COMMITTED
      then s.is .TIM_CTRL_CROWN else bit v 0) = false))
    ∧ (∃ (s : State) (port value frac : Nat), port < 32 ∧ port = s.get .TIM_SYNC_PARENT_PORT ∧ s.is .TIM_CTRL_SET_ACCEPT = true ∧ s.anyBusy
      = false ∧ s.is .TIM_CTRL_CROWN = false ∧ value < 2 ^ 56 ∧ frac < 64)
    ∧ (∃ (s : State) (port : Nat), port < 32 ∧ port = s.get .TIM_SYNC_PARENT_PORT ∧ (s.is .TIM_CTRL_SET_ACCEPT = false ∨ s.anyBusy = true ∨
      s.is .TIM_CTRL_CROWN = true))
    ∧ (∃ (s : State) (port : Nat), ¬ (port < 32 ∧ port = s.get .TIM_SYNC_PARENT_PORT)) :=
  ⟨⟨st [(.TIM_CTRL_CROWN,0,1), (.LNK_P_CONF_STATE,4,1)], 0, 9, by decide +kernel⟩,
   ⟨st [(.TIM_LAUNCH_STATE_STATE,3,3)], 129, 2 ^ 32 - 1, by decide +kernel⟩,
   ⟨st [(.TIM_SYNC_PARENT_PORT,0,31), (.TIM_CTRL_SET_ACCEPT,0,1)], 31, 2 ^ 56 - 1, 63, by decide +kernel⟩,
   ⟨st [(.TIM_SYNC_PARENT_PORT,0,5), (.TIM_CTRL_SET_ACCEPT,0,1), (.TIM_CTRL_CROWN,0,1)], 5, by decide +kernel⟩,
   ⟨st [(.TIM_SYNC_PARENT_PORT,0,32)], 32, by decide +kernel⟩⟩

/-- The hypotheses of SyncExchanges can hold. -/
theorem witness_syncExchanges :
   (∃ (s : State), s.tally % 4096 = 0 ∧ s.get .TIM_SYNC_PARENT_PORT < 32 ∧ s.is .LNK_P_STAT_UP (s.get .TIM_SYNC_PARENT_PORT) = true)
    ∧ (∃ (s : State), (s.tally % 4096 ≠ 0 ∨ 32 ≤ s.get .TIM_SYNC_PARENT_PORT))
    ∧ (∃ (s : State) (port : Nat) (y : SyncSide), look? s.tb.parent port = some y ∧ y.t3 = none ∧ y.x < 2 ^ 56 ∧ (s.tally = y.x ∧ y.x % 32
      ≠ 29 ∧ y.x % 32 ≠ 31 ∨ (y.x % 32 = 29 ∨ y.x % 32 = 31) ∧ s.tally = (y.x + 1) % 2 ^ 56))
    ∧ (∃ (s : State) (l r : List (Nat × Option Nat)) (t1 : Nat), s.tb.exch = l ++ (t1, none) :: r ∧ (∀ e ∈ l, e.2 ≠ none))
    ∧ (∃ (s : State) (t1 t2 t3 t4 : Nat) (n2 : Int), (t1, some t4) ∈ s.tb.exch ∧ (∀ d, (t1, some d) ∈ s.tb.exch → d = t4) ∧ ((t2 : Int) -
      t1).natAbs < 2 ^ 61 ∧ ((t4 : Int) - t3).natAbs < 2 ^ 61 ∧ n2 = ((t2 : Int) - t1) - ((t4 : Int) - t3))
    ∧ (∃ (s : State) (t1 : Nat), (∀ d, (t1, some d) ∉ s.tb.exch)) :=
  ⟨⟨st [(.TIM_TALLY_TALLY,0,8192), (.TIM_SYNC_PARENT_PORT,0,31), (.LNK_P_STAT_UP,31,1)], by decide +kernel⟩,
   ⟨st [(.TIM_TALLY_TALLY,0,4095)], by decide +kernel⟩,
   ⟨{ st [(.TIM_TALLY_TALLY,0,30)] with tb := { parent := [(4, { t1 := 1, t2 := 2, x := 29 })] } }, 4, { t1 := 1, t2 := 2, x := 29 }, by decide +kernel⟩,
   ⟨{ st [] with tb := { exch := [(64, some 99), (128, none)] } }, [(64, some 99)], [], 128, by decide +kernel⟩,
   ⟨{ st [] with tb := { exch := [(100, some 300)] } }, 100, 231, 200, 300, 31, by decide +kernel, fun d h => by simpa using h, by decide +kernel, by decide +kernel, by decide +kernel⟩,
   ⟨st [], 100, fun d h => by cases h⟩⟩

/-- The hypotheses of TallyPins can hold. -/
theorem witness_tallyPins :
   (∃ (who v : Nat), privileged who = true ∧ v < 2 ^ 32)
    ∧ (∃ (s : State) (who v : Nat), privileged who = true ∧ v < 2 ^ 56 ∧ s.is .TIM_EVT_CTRL_ARM = false)
    ∧ (∃ (s : State) (who v : Nat), privileged who = true ∧ v < 2 ^ 56 ∧ s.is .TIM_EVT_CTRL_ARM = true ∧ (s.tally < v ∨ s.get
      .TIM_EVT_CTRL_PERIOD ≠ 0))
    ∧ (∃ (s : State) (who v : Nat), privileged who = true ∧ v ≤ s.tally ∧ v < 2 ^ 56 ∧ s.is .TIM_EVT_CTRL_ARM = true ∧ s.get
      .TIM_EVT_CTRL_PERIOD = 0)
    ∧ (∃ (who : Nat), privileged who = false)
    ∧ (∃ (s : State) (a n : Nat), s.evtNow = some (a, n) ∧ (s.tally = a ∨ (0 < n ∧ a ≤ s.tally ∧ (s.tally - a) % n = 0)))
    ∧ (∃ (s : State), s.tb.evtEnd = some s.tb.slots)
    ∧ (∃ (s : State) (rising : Bool) (frac : Nat), s.is .TIM_CAP_CTRL_ENABLE = true ∧ rising = !s.is .TIM_CAP_CTRL_EDGE ∧ frac < 64 ∧
      s.tb.cap.length < 8 ∧ (∀ n, s.tb.capLast = some n → n + 8 ≤ s.tb.slots))
    ∧ (∃ (s : State) (rising : Bool), s.is .TIM_CAP_CTRL_ENABLE = true ∧ rising = !s.is .TIM_CAP_CTRL_EDGE ∧ (8 ≤ s.tb.cap.length ∨ ∃ n,
      s.tb.capLast = some n ∧ s.tb.slots < n + 8))
    ∧ (∃ (s : State) (rising : Bool), (s.is .TIM_CAP_CTRL_ENABLE = false ∨ rising = s.is .TIM_CAP_CTRL_EDGE))
    ∧ (∃ (s : State) (who : Nat) (e : CapEntry) (r : List CapEntry), privileged who = true ∧ s.tb.cap = e :: r ∧ e.tally < 2 ^ 56 ∧ e.frac
      < 64)
    ∧ (∃ (s : State) (who : Nat) (e : CapEntry) (r : List CapEntry), privileged who = true ∧ s.tb.cap = e :: r)
    ∧ (∃ (s : State) (who : Nat), privileged who = true ∧ s.tb.cap = [])
    ∧ (∃ (who : Nat), privileged who = true)
    ∧ (∃ (who : Nat), privileged who = false) :=
  ⟨⟨129, 2 ^ 32 - 1, by decide +kernel⟩,
   ⟨st [], 0, 2 ^ 56 - 1, by decide +kernel⟩,
   ⟨st [(.TIM_EVT_CTRL_ARM,0,1), (.TIM_TALLY_TALLY,0,100)], 0, 101, by decide +kernel⟩,
   ⟨st [(.TIM_EVT_CTRL_ARM,0,1), (.TIM_TALLY_TALLY,0,100)], 0, 100, by decide +kernel⟩,
   ⟨128, by decide +kernel⟩,
   ⟨{ st [(.TIM_EVT_CTRL_ARM,0,1), (.TIM_TALLY_TALLY,0,110)] with tb := { evtSched := some (100, 5) } }, 100, 5, by decide +kernel⟩,
   ⟨{ st [] with tb := { slots := 100, evtEnd := some 100 } }, by decide +kernel⟩,
   ⟨{ st [(.TIM_CAP_CTRL_ENABLE,0,1)] with tb := { slots := 100, cap := List.replicate 7 {}, capLast := some 92 } }, true, 63, by decide +kernel, by decide +kernel, by decide +kernel, by decide +kernel, allSome (v := 92) rfl (by decide)⟩,
   ⟨{ st [(.TIM_CAP_CTRL_ENABLE,0,1)] with tb := { slots := 100, capLast := some 93 } }, true, by decide +kernel, by decide +kernel, .inr ⟨93, rfl, by decide +kernel⟩⟩,
   ⟨st [(.TIM_CAP_CTRL_ENABLE,0,1)], false, by decide +kernel⟩,
   ⟨{ st [] with tb := { cap := [{ tally := 2 ^ 56 - 1, frac := 63 }, {}] } }, 0, { tally := 2 ^ 56 - 1, frac := 63 }, [{}], by decide +kernel⟩,
   ⟨{ st [] with tb := { cap := [{ tally := 2 ^ 56 - 1, frac := 63 }, {}] } }, 129, { tally := 2 ^ 56 - 1, frac := 63 }, [{}], by decide +kernel⟩,
   ⟨st [], 0, by decide +kernel⟩,
   ⟨129, by decide +kernel⟩,
   ⟨1, by decide +kernel⟩⟩

/-- The hypotheses of RegisterReads can hold. -/
theorem witness_registerReads :
   (∃ (off evs : Nat), off % 4 = 0 ∧ evs < 2 ^ 32)
    ∧ (∃ (off : Nat), off % 8 = 0)
    ∧ (∃ (off len : Nat), ¬ ((len = 4 ∨ len = 8) ∧ off % len = 0))
    ∧ (∃ (off len : Nat), ¬ ((len = 4 ∨ len = 8) ∧ off % len = 0)) :=
  ⟨⟨addrOf .CTN_OVERDEPTH_COUNT, 2 ^ 32 - 1, by decide +kernel⟩,
   ⟨addrOf .CTN_OVERDEPTH_COUNT, by decide +kernel⟩,
   ⟨6, 4, by decide +kernel⟩,
   ⟨4, 8, by decide +kernel⟩⟩

/-- The hypotheses of RegisterWrites can hold. -/
theorem witness_registerWrites :
   (∃ (off v evs : Nat), off % 4 = 0 ∧ v < 2 ^ 32 ∧ evs < 2 ^ 32 ∧ plainOff off = true)
    ∧ (∃ (s : State) (len : Nat) (f : Fld), f.info.acc = .RL ∧ s.is .MBX_SETUP_COMMITTED = true ∧ (len = 4 ∨ len = 8)) :=
  ⟨⟨addrOf .CTN_REQ_TO_TIMEOUT, 2 ^ 32 - 1, 2 ^ 32 - 1, by decide +kernel⟩,
   ⟨st [(.MBX_SETUP_COMMITTED,0,1), (.LNK_COORD_RACK,0,5)], 8, .LNK_COORD_RACK, by decide +kernel⟩⟩

/-- The hypotheses of LaunchRequests can hold. -/
theorem witness_launchRequests :
   (∃ (s : State) (fn : Nat) (d : Sub) (r : List (List Byte)), s.subFor fn 4 = some (d, r) ∧ (bit (d.argN 17 1) 0 && bit (d.argN 17 1)
      1) = false ∧ ((bit (d.argN 17 1) 0 || bit (d.argN 17 1) 1) && d.argN 32 8 == 0) = false ∧ s.is .TIM_CTRL_CROWN = true ∧ (s.part
      d.q).coording = false)
    ∧ (∃ (s : State) (fn : Nat) (d : Sub) (r : List (List Byte)) (st : Nat), s.subFor fn 4 = some (d, r) ∧ (let bad := (bit (d.argN 17 1) 0 && bit (d.argN 17 1) 1) || ((bit (d.argN 17 1) 0 || bit (d.argN 17 1) 1) && d.argN 32 8 == 0)
     (bad = true ∧ st = 1) ∨ (bad = false ∧ s.is .TIM_CTRL_CROWN = false ∧ st = 6)
      ∨ (bad = false ∧ s.is .TIM_CTRL_CROWN = true ∧ (s.part d.q).coording = true ∧ st = 3)))
    ∧ (∃ (s : State) (fn : Nat), s.subFor fn 4 = none) :=
  ⟨⟨{ st [(.TIM_CTRL_CROWN,0,1)] with hre := host [subD 4 3 9 []] }, 0, parseSub 0 (subD 4 3 9 []), [], by decide +kernel⟩,
   ⟨{ st [(.TIM_CTRL_CROWN,0,1)] with hre := host [subD 4 3 9 (List.replicate 9 0 ++ [3])] }, 0, parseSub 0 (subD 4 3 9 (List.replicate 9 0 ++ [3])), [], 1, by decide +kernel⟩,
   ⟨st [], 0, by decide +kernel⟩⟩

/-- The hypotheses of LaunchArm can hold. -/
theorem witness_launchArm :
   (∃ (s : State) (m : LaunchMsg) (im : Image), 0 ≤ cmp32 m.l s.tally ∧ m.dil ≤ 4 ∧ s.runSt m.part = 0 ∧ (s.part m.part).image = some im
      ∧ im.digest = toLE 32 m.image ∧ (∀ p ∈ im.img.ports, s.portOk im p = true ∧ s.get .LNK_P_PATH_ALLOW p.port ≤ p.allow) ∧ (m.ckpt = 0
      ∨ s.ckptValid im m.ckpt = true) ∧ s.is .TIM_STATUS_LOCK = true ∧ (m.dclass = s.get .CHK_CLASS_DCLASS ∨ m.allowMix = true) ∧ im.pace
      * (dilation m.dil).2 ≤ s.get .PWR_PACE_FLOOR_FLOOR * (dilation m.dil).1)
    ∧ (∃ (s : State) (m : LaunchMsg) (im : Image) (c : Nat), (let fits := im.digest = toLE 32 m.image ∧ (∀ p ∈ im.img.ports, s.portOk im p = true ∧ s.get .LNK_P_PATH_ALLOW p.port ≤ p.allow)
       ∧ (m.ckpt = 0 ∨ s.ckptValid im m.ckpt = true)
     let idle := 0 ≤ cmp32 m.l s.tally ∧ m.dil ≤ 4 ∧ s.runSt m.part = 0
     let held := (s.part m.part).image = some im
     let mixed := m.dclass ≠ s.get .CHK_CLASS_DCLASS ∧ m.allowMix = false
     (cmp32 m.l s.tally < 0 ∧ c = 1) ∨ (0 ≤ cmp32 m.l s.tally ∧ 4 < m.dil ∧ c = 6)
      ∨ (0 ≤ cmp32 m.l s.tally ∧ m.dil ≤ 4 ∧ s.runSt m.part ≠ 0 ∧ c = 7)
      ∨ (idle ∧ (s.part m.part).image = none ∧ c = 4) ∨ (idle ∧ held ∧ ¬ fits ∧ c = 4)
      ∨ (idle ∧ held ∧ fits ∧ s.is .TIM_STATUS_LOCK = false ∧ c = 5)
      ∨ (idle ∧ held ∧ fits ∧ s.is .TIM_STATUS_LOCK = true ∧ mixed ∧ c = 3)
      ∨ (idle ∧ held ∧ fits ∧ s.is .TIM_STATUS_LOCK = true ∧ ¬ mixed
          ∧ s.get .PWR_PACE_FLOOR_FLOOR * (dilation m.dil).1 < im.pace * (dilation m.dil).2 ∧ c = 2))) :=
  ⟨⟨{ run 0 {} [(.TIM_STATUS_LOCK,0,1), (.TIM_TALLY_TALLY,0,500)] with hre := {} }, { part := 3, l := 500, image := 7 }, im {}, by decide +kernel⟩,
   ⟨st [(.TIM_TALLY_TALLY,0,500)], { part := 3, l := 499 }, {}, 1, .inl (by decide +kernel)⟩⟩

/-- The hypotheses of LaunchHandshake can hold. -/
theorem witness_launchHandshake :
   (∃ (s : State) (m : LaunchMsg), (s.part m.part).coording = true ∧ m.l = (s.part m.part).cmsg.l ∧ m.src ∉ (s.part m.part).armedBy ∧
      (s.memberCoords m.part).all (fun c => c ∈ (s.part m.part).armedBy ++ [m.src]) = false)
    ∧ (∃ (s : State) (m : LaunchMsg), (s.part m.part).coording = true ∧ m.l = (s.part m.part).cmsg.l ∧ (s.memberCoords m.part).all (fun c
      => c ∈ (s.part m.part).armedBy ++ [m.src]) = true)
    ∧ (∃ (s : State) (m : LaunchMsg), (s.part m.part).coording = true ∧ m.l = (s.part m.part).cmsg.l)
    ∧ (∃ (s : State) (m : LaunchMsg), ((s.part m.part).coording = false ∨ m.l ≠ (s.part m.part).cmsg.l))
    ∧ (∃ (s : State) (m : LaunchMsg), s.runSt m.part = 1 ∧ (s.part m.part).missCommit = false ∧ m.l = (s.part m.part).msg.l ∧ ((max 0x400
      (s.get .TIM_COMMIT_MARGIN_MARGIN) : Nat) : Int) ≤ cmp32 m.l s.tally)
    ∧ (∃ (s : State) (m : LaunchMsg), (cmp32 m.l s.tally < ((max 0x400 (s.get .TIM_COMMIT_MARGIN_MARGIN) : Nat) : Int) ∨ s.runSt m.part ≠ 1
      ∨ (s.part m.part).missCommit = true ∨ m.l ≠ (s.part m.part).msg.l))
    ∧ (∃ (s : State) (m : LaunchMsg), (s.runSt m.part = 1 ∨ s.runSt m.part = 2) ∧ m.l = (s.part m.part).msg.l)
    ∧ (∃ (s : State) (m : LaunchMsg), ¬ ((s.runSt m.part = 1 ∨ s.runSt m.part = 2) ∧ m.l = (s.part m.part).msg.l))
    ∧ (∃ (s : State) (q : Nat), s.runSt q = 1 ∧ cmp32 (s.part q).msg.l s.tally ≤ ((max 0x400 (s.get .TIM_COMMIT_MARGIN_MARGIN) : Nat) :
      Int)) :=
  ⟨⟨{ st [] with parts := [(3, { coording := true, image := some { im {} with nb := 2 }, cmsg := { part := 3, l := 9 } })] }, { part := 3, l := 9, src := 5 }, by decide +kernel⟩,
   ⟨{ st [] with parts := [(3, { coording := true, cmsg := { part := 3, l := 9 } })] }, { part := 3, l := 9, src := 0 }, by decide +kernel⟩,
   ⟨{ st [] with parts := [(3, { coording := true, cmsg := { part := 3, l := 9 } })] }, { part := 3, l := 9, src := 0, refuse := 4 }, by decide +kernel⟩,
   ⟨{ st [] with parts := [(3, { coording := true, cmsg := { part := 3, l := 9 } })] }, { part := 3, l := 10 }, by decide +kernel⟩,
   ⟨{ st [(.TIM_LAUNCH_STATE_STATE,3,1)] with parts := [(3, { msg := { part := 3, l := 4096 } }) ] }, { part := 3, l := 4096 }, by decide +kernel⟩,
   ⟨{ st [(.TIM_LAUNCH_STATE_STATE,3,1)] with parts := [(3, { msg := { part := 3, l := 4095 } }) ] }, { part := 3, l := 4095 }, by decide +kernel⟩,
   ⟨{ st [(.TIM_LAUNCH_STATE_STATE,3,2)] with parts := [(3, { msg := { part := 3, l := 9 }, refusedBy := some (4, 3) }) ] }, { part := 3, l := 9 }, by decide +kernel⟩,
   ⟨st [], { part := 3, l := 9 }, by decide +kernel⟩,
   ⟨{ st [(.TIM_LAUNCH_STATE_STATE,3,1)] with parts := [(3, { msg := { part := 3, l := 4096 } }) ] }, 3, by decide +kernel⟩⟩

/-- The hypotheses of LaunchSlot can hold. -/
theorem witness_launchSlot :
   (∃ (s : State) (q : Nat) (m : Image), q < 128 ∧ (s.part q).image = some m ∧ s.runSt q = 2 ∧ (s.part q).commit = true ∧ s.tally =
      (s.part q).msg.l ∧ s.tally < 2 ^ 56)
    ∧ (∃ (s : State) (q : Nat), s.runSt q ≠ 2) :=
  ⟨⟨{ run 2 {} [(.TIM_TALLY_TALLY,0,600)] with parts := [(127, { image := some (im {}), commit := true, msg := { part := 127, l := 600 } })], regs := (st [(.TIM_TALLY_TALLY,0,600), (.TIM_LAUNCH_STATE_STATE,127,2)]).regs }, 127, im {}, by decide +kernel⟩,
   ⟨st [], 3, by decide +kernel⟩⟩

/-- The hypotheses of PanelWindows can hold. -/
theorem witness_panelWindows :
   (∃ (s : State) (p q w : Nat), (s.panel p).part = some q ∧ (s.panel p).gated = false ∧ s.runSt q = 3 ∧ (s.part q).haltedAt = none ∧ 64
      ≤ s.slotsAhead q (s.extend q (bits w 64 32)) ∧ bits w 32 10 < s.get .PNL_SL_CFG_DIRN p ∧ 8 ≤ bits w 48 8 ∧ bits w 48 8 + (dirEntry
      (s.panel p).read (bits w 32 10)).2.2 ≤ bits w 96 24 ∧ (∀ v, (s.panel p).prev = some v → ((v.start + v.len : Nat) : Int) ≤ s.extend q
      (bits w 64 32) ∧ v.step < bits w 0 32) ∧ s.is .PNL_SL_STAT_LASTSEEN p = false ∧ (s.panel p).queue.length < 4)
    ∧ (∃ (s : State) (p q w c : Nat), (s.panel p).part = some q ∧ (s.panel p).gated = false ∧ s.runSt q = 3 ∧ (s.part q).haltedAt = none ∧ (let st := s.extend q (bits w 64 32)
     let a36 := 64 ≤ s.slotsAhead q st
     let a32 := bits w 32 10 < s.get .PNL_SL_CFG_DIRN p
     let a33 := 8 ≤ bits w 48 8
     let a34 := bits w 48 8 + (dirEntry (s.panel p).read (bits w 32 10)).2.2 ≤ bits w 96 24
     let a35 := ∀ v, (s.panel p).prev = some v → ((v.start + v.len : Nat) : Int) ≤ st ∧ v.step < bits w 0 32
     let a37 := s.is .PNL_SL_STAT_LASTSEEN p = false
     (¬ a36 ∧ c = 36) ∨ (a36 ∧ ¬ a32 ∧ c = 32) ∨ (a36 ∧ a32 ∧ ¬ a33 ∧ c = 33) ∨ (a36 ∧ a32 ∧ a33 ∧ ¬ a34 ∧ c = 34)
      ∨ (a36 ∧ a32 ∧ a33 ∧ a34 ∧ ¬ a35 ∧ c = 35) ∨ (a36 ∧ a32 ∧ a33 ∧ a34 ∧ a35 ∧ ¬ a37 ∧ c = 37)
      ∨ (a36 ∧ a32 ∧ a33 ∧ a34 ∧ a35 ∧ a37 ∧ 4 ≤ (s.panel p).queue.length ∧ c = 38)))
    ∧ (∃ (s : State) (p : Nat), ((s.panel p).part = none ∨ (s.panel p).gated = true ∨ ∃ q, (s.panel p).part = some q ∧ (s.runSt q ≠ 3 ∨
      (s.part q).haltedAt ≠ none)))
    ∧ (∃ (s : State) (p q : Nat) (r : IssueRec) (rest : List IssueRec), (s.panel p).part = some q ∧ (s.panel p).queue = r :: rest ∧
      (s.panel p).st = .idle ∧ s.mayStart q r.step = true ∧ s.reached q r.start = true ∧ s.slotTally q r.start = s.tally)
    ∧ (∃ (s : State) (p : Nat), ((s.panel p).queue = [] ∨ (s.panel p).st ≠ .idle))
    ∧ (∃ (s : State) (p q : Nat) (r : IssueRec) (rest : List IssueRec), (s.panel p).part = some q ∧ (s.panel p).queue = r :: rest ∧
      (s.slotTally q r.start ≠ s.tally ∨ s.mayStart q r.step = false))
    ∧ (∃ (who d v : Nat), privileged who = true ∧ d < 8 ∧ v < 2 ^ 9)
    ∧ (∃ (who : Nat), privileged who = false) :=
  ⟨⟨pan 0x3F [] { queue := [win, win, win] }, 0, 3, 8 * 2 ^ 48 + 64 * 2 ^ 64 + 8 * 2 ^ 96, by decide +kernel, by decide +kernel, by decide +kernel, by decide +kernel, by decide +kernel, by decide +kernel, by decide +kernel, by decide +kernel, allNone (by decide +kernel), by decide +kernel, by decide +kernel⟩,
   ⟨pan 0x3F [] {}, 0, 3, 8 * 2 ^ 48 + 63 * 2 ^ 64, 36, by decide +kernel, by decide +kernel, by decide +kernel, by decide +kernel, .inl (by decide +kernel)⟩,
   ⟨st [], 0, .inl (by decide +kernel)⟩,
   ⟨at_ 7 { run 3 {} [] with panels := [(0, { part := some 3, gated := false, queue := [{ win with start := 7 }] })] }, 0, 3, { win with start := 7 }, [], by decide +kernel⟩,
   ⟨st [], 0, by decide +kernel⟩,
   ⟨at_ 8 { run 3 {} [] with panels := [(0, { part := some 3, gated := false, queue := [{ win with start := 7 }] })] }, 0, 3, { win with start := 7 }, [], by decide +kernel⟩,
   ⟨129, 7, 511, by decide +kernel⟩,
   ⟨1, by decide +kernel⟩⟩

/-- The hypotheses of PanelTile can hold. -/
theorem witness_panelTile :
   (∃ (s : State) (p q : Nat) (r : IssueRec) (o : POp) (f : OpFacts) (kind : LaneKind), PnlAt s p q r o ∧ Quiet f ∧ o.op = 0x01 ∧
      pairKind o.fmta o.fmtb = some kind ∧ (o.desc 1).cols = (o.desc 0).cols) :=
  ⟨pan 0x201 [desc 1 0 0 2 4 4 0xFFFF, desc 1 0 64 32 4 4 0xFFFF] { os := [(0, 0x38), (64, 0x40), (69, 0x38)] }, 0, 3, win, parseOp 0x201 [desc 1 0 0 2 4 4 0xFFFF, desc 1 0 64 32 4 4 0xFFFF], {}, .fuller, pnlAt_of (by decide +kernel), ⟨rfl, rfl, rfl, rfl⟩, by decide +kernel, by decide +kernel, by decide +kernel⟩

/-- The hypotheses of PanelCompute can hold. -/
theorem witness_panelCompute :
   (∃ (s : State) (p q : Nat) (r : IssueRec) (o : POp) (f : OpFacts), PnlAt s p q r o ∧ Quiet f ∧ o.op = 0x02)
    ∧ (∃ (s : State) (p q : Nat) (r : IssueRec) (o : POp) (f : OpFacts), PnlAt s p q r o ∧ Quiet f ∧ o.op = 0x03)
    ∧ (∃ (s : State) (p q : Nat) (r : IssueRec) (o : POp) (f : OpFacts), PnlAt s p q r o ∧ Quiet f ∧ o.op = 0x04)
    ∧ (∃ (s : State) (p q : Nat) (r : IssueRec) (o : POp) (f : OpFacts), let ab (e : List (Nat × Bool)) (k : Nat) : Nat := (e.getD k (0, false)).1
      ∃ c ∈ ([(.vec, fun o => o.op == 0x08 && !isReduce o.fn, vecEl (s.get .CHK_CLASS_DCLASS)),
      (.foldTree, fun o => o.op == 0x20 && o.mode == 0, fun _ _ e => ((addQuiet (ab e 0) (ab e 1)).1, (addQuiet (ab e 0) (ab e 1)).2, false)),
      (.foldLift, fun o => o.op == 0x20 && o.mode == 1, fun o _ e =>
        let u : Ful := if (o.desc 1).fmt = 8 then widenFul (ful80 (ab e 0)) else termOf (elemVal (o.desc 1).fmt (ab e 0)) 160
        (ful384Out u, {}, bit u.flags 3)),
      (.foldExact, fun o => o.op == 0x20 && o.mode == 2, fun _ _ e =>
        let u := fulAdd 376 (ful384 (ab e 0)) (ful384 (ab e 1))
        (ful384Out u, {}, bit u.flags 3)),
      (.foldRound, fun o => o.op == 0x20 && o.mode == 3, fun o w e =>
        let u := readOut (ful384 (ab e 0)) 160 (o.desc 0).fmt o.rnd o.sat w
        (u.1, u.2, bit (ful384 (ab e 0)).flags 3)),
      (.rfill, fun o => o.op == 0x28, fun o w _ => (rfillEl o w, {}, false))] :
        List ((Nat → OpFacts → Instr) × (POp → Bool) × (POp → Nat → List (Nat × Bool) → Nat × Cnt × Bool))), PnlAt s p q r o ∧ Quiet f ∧ c.2.1 o = true)
    ∧ (∃ (s : State) (p q : Nat) (r : IssueRec) (o : POp) (f : OpFacts), PnlAt s p q r o ∧ Quiet f ∧ o.op = 0x08 ∧ isReduce o.fn = true ∧ 2
      ≤ o.nDesc) :=
  ⟨⟨pan 0x102 [desc 0 7 4096 32 32 128 0] {}, 0, 3, win, parseOp 0x102 [desc 0 7 4096 32 32 128 0], {}, pnlAt_of (by decide +kernel), ⟨rfl, rfl, rfl, rfl⟩, by decide +kernel⟩,
   ⟨pan 0x103 [desc 0 4 4096 32 32 128 0] { kind := .fuller }, 0, 3, win, parseOp 0x103 [desc 0 4 4096 32 32 128 0], {}, pnlAt_of (by decide +kernel), ⟨rfl, rfl, rfl, rfl⟩, by decide +kernel⟩,
   ⟨pan 0x004 [] { kind := .fuller }, 0, 3, win, parseOp 0x004 [], {}, pnlAt_of (by decide +kernel), ⟨rfl, rfl, rfl, rfl⟩, by decide +kernel⟩,
   ⟨pan (0x208 + 0x17 * 2 ^ 48) [desc 0 4 4096 2 2 8 0, desc 0 5 8192 2 2 2 0] {}, 0, 3, win, parseOp (0x208 + 0x17 * 2 ^ 48) [desc 0 4 4096 2 2 8 0, desc 0 5 8192 2 2 2 0], {}, _, .head _, pnlAt_of (by decide +kernel), ⟨rfl, rfl, rfl, rfl⟩, by decide +kernel⟩,
   ⟨pan (0x208 + 0x38 * 2 ^ 48) [desc 0 4 4096 2 1 4 0, desc 0 4 8192 2 2 8 0] {}, 0, 3, win, parseOp (0x208 + 0x38 * 2 ^ 48) [desc 0 4 4096 2 1 4 0, desc 0 4 8192 2 2 8 0], {}, pnlAt_of (by decide +kernel), ⟨rfl, rfl, rfl, rfl⟩, by decide +kernel, by decide +kernel, by decide +kernel⟩⟩

/-- The hypotheses of PanelMoves can hold. -/
theorem witness_panelMoves :
   (∃ (s : State) (p q : Nat) (r : IssueRec) (o : POp) (f : OpFacts), PnlAt s p q r o ∧ Quiet f ∧ o.op = 0x10 ∧ (o.desc 0).space < 2 ∧
      (o.desc 1).space < 2)
    ∧ (∃ (s : State) (p q l w : Nat) (r : IssueRec) (o : POp) (f : OpFacts), PnlAt s p q r o ∧ Quiet f ∧ o.op = 0x10 ∧ 2 ≤ (o.desc 0).space ∧ neighbour (s.panel p).logical ((o.desc 0).space - 2) = some l ∧ s.winOfLog l = w ∧ w ≠ p ∧ let k := opposite ((o.desc 0).space - 2)
      ((s.panel w).seam k).length < 4)
    ∧ (∃ (s : State) (p q l w : Nat) (r : IssueRec) (o : POp) (f : OpFacts), PnlAt s p q r o ∧ Quiet f ∧ o.op = 0x10 ∧ 2 ≤ (o.desc 0).space
      ∧ neighbour (s.panel p).logical ((o.desc 0).space - 2) = some l ∧ s.winOfLog l = w ∧ 4 ≤ ((s.panel w).seam (opposite ((o.desc
      0).space - 2))).length)
    ∧ (∃ (s : State) (p q : Nat) (r : IssueRec) (o : POp) (f : OpFacts), PnlAt s p q r o ∧ Quiet f ∧ o.op = 0x10 ∧ (o.desc 0).space < 2 ∧ 2
      ≤ (o.desc 1).space)
    ∧ (∃ (s : State) (p q l w : Nat) (r : IssueRec) (o : POp) (f : OpFacts) (e : SeamEntry) (es : List SeamEntry), PnlAt s p q r o ∧ f = {
      pair := some {} } ∧ o.op = 0x10 ∧ 2 ≤ (o.desc 0).space ∧ neighbour (s.panel p).logical ((o.desc 0).space - 2) = some l ∧ s.winOfLog
      l = w ∧ w ≠ p ∧ s.readsSeam w (opposite ((o.desc 0).space - 2)) = true ∧ (s.panel w).seam (opposite ((o.desc 0).space - 2)) ++ [{
      bytes := (seamOut (s.panel p) o).getD (s.panel p).seamPos [], step := r.step, due := dueSlot r }] = e :: es)
    ∧ (∃ (s : State) (p q : Nat) (r : IssueRec) (o : POp) (f : OpFacts), PnlAt s p q r o ∧ Quiet f ∧ o.op = 0x18)
    ∧ (∃ (s : State) (p q : Nat) (r : IssueRec) (o : POp) (f : OpFacts), PnlAt s p q r o ∧ Quiet f ∧ o.op = 0x19) :=
  ⟨⟨pan 0x210 [desc 0 5 4096 2 2 2 0, desc 0 5 8192 2 2 2 0] {}, 0, 3, win, parseOp 0x210 [desc 0 5 4096 2 2 2 0, desc 0 5 8192 2 2 2 0], {}, pnlAt_of (by decide +kernel), ⟨rfl, rfl, rfl, rfl⟩, by decide +kernel, by decide +kernel, by decide +kernel⟩,
   ⟨pan2 0x210 [desc 4 5 0 2 2 2 0, desc 0 5 8192 2 2 2 0] {} { seams := [(3, [{}, {}, {}])] }, 0, 3, 1, 1, win, parseOp 0x210 [desc 4 5 0 2 2 2 0, desc 0 5 8192 2 2 2 0], {}, pnlAt_of (by decide +kernel), ⟨rfl, rfl, rfl, rfl⟩, by decide +kernel, by decide +kernel, by decide +kernel, by decide +kernel, by decide +kernel, by decide +kernel⟩,
   ⟨pan2 0x210 [desc 4 5 0 2 2 2 0, desc 0 5 8192 2 2 2 0] {} { seams := [(3, [{}, {}, {}, {}])] }, 0, 3, 1, 1, win, parseOp 0x210 [desc 4 5 0 2 2 2 0, desc 0 5 8192 2 2 2 0], {}, pnlAt_of (by decide +kernel), ⟨rfl, rfl, rfl, rfl⟩, by decide +kernel, by decide +kernel, by decide +kernel, by decide +kernel, by decide +kernel⟩,
   ⟨pan 0x210 [desc 0 5 4096 2 2 2 0, desc 4 5 0 2 2 2 0] { seams := [(2, [{ bytes := List.replicate 256 (9, false) }])] }, 0, 3, win, parseOp 0x210 [desc 0 5 4096 2 2 2 0, desc 4 5 0 2 2 2 0], {}, pnlAt_of (by decide +kernel), ⟨rfl, rfl, rfl, rfl⟩, by decide +kernel, by decide +kernel, by decide +kernel⟩,
   ⟨pan2 0x210 [desc 4 5 0 2 2 2 0, desc 0 5 8192 2 2 2 0] {} { mem := lst 0x210 [desc 0 5 4096 2 2 2 0, desc 5 5 0 2 2 2 0], seams := [(3, [{}, {}, {}, {}])] }, 0, 3, 1, 1, win, parseOp 0x210 [desc 4 5 0 2 2 2 0, desc 0 5 8192 2 2 2 0], { pair := some {} }, {}, [{}, {}, {}, { bytes := (seamOut ((pan 0x210 [desc 4 5 0 2 2 2 0, desc 0 5 8192 2 2 2 0] {}).panel 0) (parseOp 0x210 [desc 4 5 0 2 2 2 0, desc 0 5 8192 2 2 2 0])).getD 0 [], due := 992 }], pnlAt_of (by decide +kernel), by decide +kernel, by decide +kernel, by decide +kernel, by decide +kernel, by decide +kernel, by decide +kernel, by decide +kernel, by decide +kernel⟩,
   ⟨pan (0x118 + 77 * 2 ^ 48 + 31 * 2 ^ 72) [desc 0 5 4096 2 2 2 0] {}, 0, 3, win, parseOp (0x118 + 77 * 2 ^ 48 + 31 * 2 ^ 72) [desc 0 5 4096 2 2 2 0], {}, pnlAt_of (by decide +kernel), ⟨rfl, rfl, rfl, rfl⟩, by decide +kernel⟩,
   ⟨pan (0x119 + 77 * 2 ^ 48 + 31 * 2 ^ 72) [desc 0 5 4096 2 2 2 0] {}, 0, 3, win, parseOp (0x119 + 77 * 2 ^ 48 + 31 * 2 ^ 72) [desc 0 5 4096 2 2 2 0], {}, pnlAt_of (by decide +kernel), ⟨rfl, rfl, rfl, rfl⟩, by decide +kernel⟩⟩

/-- The hypotheses of PanelWaits can hold. -/
theorem witness_panelWaits :
   (∃ (s : State) (p q : Nat) (r : IssueRec) (o : POp) (f : OpFacts), PnlAt s p q r o ∧ Quiet f ∧ o.op = 0x30 ∧ o.mode = 0)
    ∧ (∃ (s : State) (p q : Nat) (r : IssueRec) (o : POp) (f : OpFacts), PnlAt s p q r o ∧ Quiet f ∧ o.op = 0x30 ∧ o.mode = 1 ∧ let y := (s.panel p).rb o.bindI
      let end_ := s.reached q (r.start + o.p32)
      (o.count ≤ y.got.length ∨ end_ = true))
    ∧ (∃ (s : State) (p q : Nat) (r : IssueRec) (o : POp) (f : OpFacts), PnlAt s p q r o ∧ Quiet f ∧ o.op = 0x30 ∧ o.mode = 1 ∧ ((s.panel
      p).rb o.bindI).got.length < o.count ∧ s.reached q (r.start + o.p32) = false)
    ∧ (∃ (s : State) (p q sl : Nat) (r : IssueRec), (s.panel p).part = some q ∧ (s.panel p).win = some r ∧ s.reached q (dueSlot r) = false
      ∧ (s.panel p).st = .waitSlot sl)
    ∧ (∃ (s : State) (p q sl b n : Nat) (r : IssueRec), (s.panel p).part = some q ∧ (s.panel p).win = some r ∧ s.reached q (dueSlot r) =
      false ∧ (s.panel p).st = .waitRecv sl b n)
    ∧ (∃ (s : State) (p q : Nat) (r : IssueRec) (o : POp) (f : OpFacts), PnlAt s p q r o ∧ Quiet f ∧ o.op = 0x31)
    ∧ (∃ (s : State) (p q sl : Nat), (s.panel p).part = some q ∧ (s.panel p).st = .rest sl)
    ∧ (∃ (s : State) (p q : Nat) (r : IssueRec) (o : POp) (f : OpFacts), PnlAt s p q r o ∧ Quiet f ∧ o.op = 0x38)
    ∧ (∃ (s : State) (p q n : Nat) (r : IssueRec) (o : POp) (f : OpFacts), PnlAt s p q r o ∧ Quiet f ∧ o.op = 0x3F ∧ n = min 65535
      (s.slotsAhead q (dueSlot r) - 1).toNat) :=
  ⟨⟨pan (0x030 + 1 * 2 ^ 64) [] {}, 0, 3, win, parseOp (0x030 + 1 * 2 ^ 64) [], {}, pnlAt_of (by decide +kernel), ⟨rfl, rfl, rfl, rfl⟩, by decide +kernel, by decide +kernel⟩,
   ⟨pan (0x030 + 2 ^ 48 + 5 * 2 ^ 50 + 1 * 2 ^ 96) [] { rbind := [(5, { reg := parseDesc (desc 0 5 4096 2 2 2 0), got := [0] })] }, 0, 3, win, parseOp (0x030 + 2 ^ 48 + 5 * 2 ^ 50 + 1 * 2 ^ 96) [], {}, pnlAt_of (by decide +kernel), ⟨rfl, rfl, rfl, rfl⟩, by decide +kernel, by decide +kernel, by decide +kernel⟩,
   ⟨pan (0x030 + 2 ^ 48 + 5 * 2 ^ 50 + 9 * 2 ^ 64 + 1 * 2 ^ 96) [] { rbind := [(5, { reg := parseDesc (desc 0 5 4096 2 2 2 0) })] }, 0, 3, win, parseOp (0x030 + 2 ^ 48 + 5 * 2 ^ 50 + 9 * 2 ^ 64 + 1 * 2 ^ 96) [], {}, pnlAt_of (by decide +kernel), ⟨rfl, rfl, rfl, rfl⟩, by decide +kernel, by decide +kernel, by decide +kernel, by decide +kernel⟩,
   ⟨wnd 991 { st := .waitSlot 991 }, 0, 3, 991, win, by decide +kernel⟩,
   ⟨wnd 991 { st := .waitRecv 992 2 1, rbind := [(2, { reg := parseDesc (desc 0 5 4096 2 2 2 0), got := [0] })] }, 0, 3, 992, 2, 1, win, by decide +kernel⟩,
   ⟨pan (0x031 + 9 * 2 ^ 64) [] {}, 0, 3, win, parseOp (0x031 + 9 * 2 ^ 64) [], {}, pnlAt_of (by decide +kernel), ⟨rfl, rfl, rfl, rfl⟩, by decide +kernel⟩,
   ⟨wnd 9 { st := .rest 9 }, 0, 3, 9, by decide +kernel⟩,
   ⟨pan 0x038 [] {}, 0, 3, win, parseOp 0x038 [], {}, pnlAt_of (by decide +kernel), ⟨rfl, rfl, rfl, rfl⟩, by decide +kernel⟩,
   ⟨pan (0x03F + 2 ^ 48) [] {}, 0, 3, 991, win, parseOp (0x03F + 2 ^ 48) [], {}, pnlAt_of (by decide +kernel), ⟨rfl, rfl, rfl, rfl⟩, by decide +kernel, by decide +kernel⟩⟩

/-- The hypotheses of PanelFaults can hold. -/
theorem witness_panelFaults :
   (∃ (s : State) (p q : Nat) (r : IssueRec) (b : Reject) (f : OpFacts), (s.panel p).part = some q ∧ (s.panel p).win = some r ∧ (s.panel
      p).st = .running ∧ s.reached q (dueSlot r) = false ∧ s.boot.tripped = false ∧ Quiet f ∧ (s.opAtPos p q r (s.panel p) []).bad = some
      b ∧ b.2.1 ≠ 17 ∧ b.2.1 < 256)
    ∧ (∃ (s : State) (p q : Nat) (r : IssueRec) (o : POp), PnlAt s p q r o ∧ o.op = 0x01)
    ∧ (∃ (s : State) (p q i : Nat) (r : IssueRec) (fs : List (FaultMsg × Nat × Bool)), (s.panel p).part = some q ∧ (s.panel p).win = some r
      ∧ (s.panel p).st = .done ∧ s.reached q (dueSlot r) = true ∧ (s.panel p).bads = [] ∧ (s.panel p).faults = fs ∧ (∀ f ∈ fs, f.1.srck =
      0 ∧ f.1.panel = i ∧ f.1.part = q) ∧ (s.panel p).seams.any (fun e => !e.2.isEmpty) = false)
    ∧ (∃ (s : State) (p q w : Nat) (r : IssueRec) (ids : Nat × Nat), (s.panel p).part = some q ∧ (s.panel p).win = some r ∧ s.reached q (dueSlot r) = true ∧ (s.panel p).bads = [] ∧ (s.panel p).faults = [] ∧ (let c := s.opAtPos p q r (s.panel p) []
     ((s.panel p).st = .running ∧ c.bad = none ∧ ids = (c.o.layer, c.o.oper) ∧ w = s.get .PNL_SL_POS_WORD p)
      ∨ ((∃ sl, (s.panel p).st = .waitSlot sl ∨ (s.panel p).st = .rest sl ∨ ∃ b n, (s.panel p).st = .waitRecv sl b n)
          ∧ ids = (c.o.layer, c.o.oper) ∧ w = s.get .PNL_SL_POS_WORD p)))
    ∧ (∃ (s : State) (p q i : Nat) (r : IssueRec) (f : FaultMsg × Nat × Bool), (s.panel p).part = some q ∧ (s.panel p).win = some r ∧
      s.reached q (dueSlot r) = true ∧ (s.panel p).bads = [] ∧ (s.panel p).st = .abandoned i ∧ (s.panel p).faults = [f] ∧ f.1.code =
      0x2006 ∧ f.1.srck = 0 ∧ f.1.panel = idOf p ∧ f.1.part = q)
    ∧ (∃ (s : State) (p q : Nat) (r : IssueRec), (s.panel p).part = some q ∧ (s.panel p).win = some r ∧ (s.panel p).st = .done ∧ s.reached
      q (dueSlot r) = true ∧ (s.panel p).bads = [] ∧ (s.panel p).faults = [] ∧ (s.panel p).seams.any (fun e => !e.2.isEmpty) = true)
    ∧ (∃ (s : State) (p q : Nat) (e : SeamEntry), (s.panel p).part = some q ∧ (s.panel p).win = none ∧ (s.panel p).bads = [] ∧ ((s.panel
      p).seams.flatMap (·.2)).find? (fun e => s.reached q e.due) = some e)
    ∧ (∃ (s : State) (p q sl st c : Nat), (s.panel p).part = some q ∧ (s.panel p).win = none ∧ (s.panel p).seams = [] ∧ (s.panel p).bads =
      [(sl, st, c)] ∧ s.reached q sl = true)
    ∧ (∃ (s : State) (d : Nat) (pk : Packet) (w m rows cols : Nat), pk.payload = .issue w m rows cols ∧ (selected d rows cols).any (fun l
      => match s.granOwner (granOf l) with | some q => q != pk.part | none => false) = false)
    ∧ (∃ (s : State) (d : Nat) (pk : Packet) (w m rows cols : Nat), pk.payload = .issue w m rows cols ∧ (selected d rows cols).any (fun l
      => match s.granOwner (granOf l) with | some q => q != pk.part | none => false) = true) :=
  ⟨⟨pan 0xFF [] {}, 0, 3, win, (0, 1, 0, 0), {}, by decide +kernel, by decide +kernel, by decide +kernel, by decide +kernel, by decide +kernel, ⟨rfl, rfl, rfl, rfl⟩, by decide +kernel, by decide +kernel, by decide +kernel⟩,
   ⟨pan 0x201 [desc 1 0 0 2 4 4 0xFFFF, desc 1 0 64 32 4 4 0xFFFF] {}, 0, 3, win, parseOp 0x201 [desc 1 0 0 2 4 4 0xFFFF, desc 1 0 64 32 4 4 0xFFFF], pnlAt_of (by decide +kernel), by decide +kernel⟩,
   ⟨wnd 992 { st := .done, faults := [({ part := 3, code := 0x2008, panel := 0, step := some 0 }, 0, true)] }, 0, 3, 0, win, [({ part := 3, code := 0x2008, panel := 0, step := some 0 }, 0, true)], by decide +kernel⟩,
   ⟨at_ 992 (pan 0x031 [] {}), 0, 3, 0, win, (0, 0), by decide +kernel, by decide +kernel, by decide +kernel, by decide +kernel, by decide +kernel, .inl (by decide +kernel)⟩,
   ⟨wnd 992 { st := .abandoned 0, faults := [({ part := 3, code := 0x2006, panel := 0 }, 0, true)] }, 0, 3, 0, win, ({ part := 3, code := 0x2006, panel := 0 }, 0, true), by decide +kernel⟩,
   ⟨wnd 992 { st := .done, seams := [(2, [{}])] }, 0, 3, win, by decide +kernel⟩,
   ⟨at_ 5 { run 3 {} [] with panels := [(0, { part := some 3, seams := [(2, [{ due := 6 }, { due := 5 }])] })] }, 0, 3, { due := 5 }, by decide +kernel⟩,
   ⟨at_ 5 { run 3 {} [] with panels := [(0, { part := some 3, bads := [(5, 1, 36)] })] }, 0, 3, 5, 1, 36, by decide +kernel⟩,
   ⟨st [], 0, { part := 3, payload := .issue 5 1 1 1 }, 5, 1, 1, 1, by decide +kernel⟩,
   ⟨st [(.PRT_GRAN_GRAN,0,1)], 0, { part := 3, payload := .issue 5 1 1 1 }, 5, 1, 1, 1, by decide +kernel⟩⟩

/-- The hypotheses of SlotEntries can hold. -/
theorem witness_slotEntries :
   (∃ (s : State) (n q k seq o m c lat : Nat) (en : Entry) (b : Bank) (x : Tuft), nodeKind n = 2 ∧ s.firing n q k s.tally = some (en,
      seq, b) ∧ s.atInput n en.inp = some x ∧ x.stream = en.stream ∧ x.seq = seq ∧ outs en = [o] ∧ s.dest n o = .input m c lat)
    ∧ (∃ (s : State) (n q k seq o o' m c lat m' c' lat' : Nat) (en : Entry) (b : Bank) (x : Tuft), nodeKind n = 2 ∧ s.firing n q k s.tally
      = some (en, seq, b) ∧ s.atInput n en.inp = some x ∧ x.stream = en.stream ∧ x.seq = seq ∧ outs en = [o, o'] ∧ s.dest n o = .input m c
      lat ∧ s.dest n o' = .input m' c' lat' ∧ m ≠ m')
    ∧ (∃ (s : State) (n q k seq o m c lat : Nat) (en : Entry) (b : Bank), nodeKind n = 2 ∧ s.firing n q k s.tally = some (en, seq, b) ∧
      s.atInput n en.inp = none ∧ outs en = [o] ∧ s.dest n o = .input m c lat)
    ∧ (∃ (s : State) (n q k seq o m c lat : Nat) (en : Entry) (b : Bank) (x : Tuft), nodeKind n = 2 ∧ s.firing n q k s.tally = some (en,
      seq, b) ∧ s.atInput n en.inp = some x ∧ (x.stream ≠ en.stream ∨ x.seq ≠ seq) ∧ outs en = [o] ∧ s.dest n o = .input m c lat)
    ∧ (∃ (s : State) (w q k seq o m c lat : Nat) (en : Entry) (b : Bank) (y : Binding), w < 4096 ∧ s.firing (meshKey w) q k s.tally = some
      (en, seq, b) ∧ en.inp = 0 ∧ look? (s.panel w).sbind en.bind = some y ∧ y.done = false ∧ y.stream = en.stream ∧ seq < tuftsOf y.reg ∧
      ((s.panel w).tuftOf y.reg seq).2.1 = false ∧ (s.panel w).psnAll = false ∧ outs en = [o] ∧ s.dest (meshKey w) o = .input m c lat)
    ∧ (∃ (s : State) (w q k seq o m c lat : Nat) (en : Entry) (b : Bank), w < 4096 ∧ s.firing (meshKey w) q k s.tally = some (en, seq, b) ∧
      en.inp = 0 ∧ look? (s.panel w).sbind en.bind = none ∧ (s.panel w).st ≠ .idle ∧ outs en = [o] ∧ s.dest (meshKey w) o = .input m c lat)
    ∧ (∃ (s : State) (w q k seq : Nat) (en : Entry) (b : Bank) (x : Tuft) (y : Binding), w < 4096 ∧ s.firing (meshKey w) q k s.tally = some
      (en, seq, b) ∧ en.inp ≠ 0 ∧ s.atInput (meshKey w) en.inp = some x ∧ x.stream = en.stream ∧ x.seq = seq ∧ outs en = [0] ∧ x.check =
      checkOf x ∧ x.poison = false ∧ x.watch = false ∧ look? (s.panel w).rbind en.bind = some y ∧ y.done = false ∧ y.stream = x.stream ∧
      x.seq < tuftsOf y.reg)
    ∧ (∃ (s : State) (p q k seq : Nat) (en : Entry) (b : Bank) (x : Tuft), p < 32 ∧ s.firing (bandKey (64 + p)) q k s.tally = some (en,
      seq, b) ∧ en.inp < 64 ∧ s.atInput crossing en.inp = some x ∧ x.stream = en.stream ∧ x.seq = seq ∧ outs en = [0] ∧ s.is
      .LNK_P_STAT_UP p = true)
    ∧ (∃ (s : State) (n q k : Nat), s.firing n q k s.tally = none)
    ∧ (∃ (s : State) (n inp : Nat) (x : Tuft), (look [] (s.node n).inputs inp).find? (fun e => e.1 == s.tally) = some (s.tally, x) ∧ laneIn
      n inp = none ∧ s.inputTaken n inp = false ∧ s.inputOwner n inp = none)
    ∧ (∃ (s : State) (n inp q : Nat) (x : Tuft), (look [] (s.node n).inputs inp).find? (fun e => e.1 == s.tally) = some (s.tally, x) ∧
      laneIn n inp = none ∧ s.inputTaken n inp = false ∧ s.inputOwner n inp = some q ∧ nodeKind n = 4 ∧ n ≠ crossing ∧ s.reached q
      (s.boundary q (s.curStep q + 1) - 8) = false)
    ∧ (∃ (s : State) (n inp : Nat) (x : Tuft), (look [] (s.node n).inputs inp).find? (fun e => e.1 == s.tally) = some (s.tally, x) ∧
      s.inputTaken n inp = true) :=
  ⟨⟨nd 8192 { out := 1, inp := 8, stream := 5, seq := 9 } { inputs := [(8, [(0, { stream := 5, seq := 9 })])] }, 8192, 3, 0, 9, 0, 4111, 3, 1, { out := 1, inp := 8, stream := 5, seq := 9 }, bk { out := 1, inp := 8, stream := 5, seq := 9 }, { stream := 5, seq := 9 }, by decide +kernel⟩,
   ⟨nd 8192 { out := 3, inp := 8, stream := 5, seq := 9 } { inputs := [(8, [(0, { stream := 5, seq := 9 })])] }, 8192, 3, 0, 9, 0, 1, 4111, 3, 1, 4128, 3, 1, { out := 3, inp := 8, stream := 5, seq := 9 }, bk { out := 3, inp := 8, stream := 5, seq := 9 }, { stream := 5, seq := 9 }, by decide +kernel⟩,
   ⟨nd 8192 { out := 1, inp := 8, stream := 5, seq := 9 } {}, 8192, 3, 0, 9, 0, 4111, 3, 1, { out := 1, inp := 8, stream := 5, seq := 9 }, bk { out := 1, inp := 8, stream := 5, seq := 9 }, by decide +kernel⟩,
   ⟨nd 8192 { out := 1, inp := 8, stream := 5, seq := 9 } { inputs := [(8, [(0, { stream := 5, seq := 8 })])] }, 8192, 3, 0, 9, 0, 4111, 3, 1, { out := 1, inp := 8, stream := 5, seq := 9 }, bk { out := 1, inp := 8, stream := 5, seq := 9 }, { stream := 5, seq := 8 }, by decide +kernel⟩,
   ⟨{ nd 4096 { out := 8, stream := 5 } {} with panels := [(0, { part := some 3, gated := false, sbind := [(0, { stream := 5, reg := parseDesc (desc 0 5 4096 2 2 2 0) })] })] }, 0, 3, 0, 0, 3, 4097, 4, 1, { out := 8, stream := 5 }, bk { out := 8, stream := 5 }, { stream := 5, reg := parseDesc (desc 0 5 4096 2 2 2 0) }, by decide +kernel⟩,
   ⟨{ nd 4096 { out := 8, stream := 5 } {} with panels := [(0, { part := some 3, gated := false, st := .running })] }, 0, 3, 0, 0, 3, 4097, 4, 1, { out := 8, stream := 5 }, bk { out := 8, stream := 5 }, by decide +kernel⟩,
   ⟨{ nd 4096 { out := 1, inp := 4, stream := 5 } { inputs := [(4, [(0, sealed { payload := List.replicate 256 7, stream := 5 })])] } with panels := [(0, { part := some 3, gated := false, rbind := [(0, { stream := 5, reg := parseDesc (desc 0 5 4096 2 2 2 0) })] })] }, 0, 3, 0, 0, { out := 1, inp := 4, stream := 5 }, bk { out := 1, inp := 4, stream := 5 }, sealed { payload := List.replicate 256 7, stream := 5 }, { stream := 5, reg := parseDesc (desc 0 5 4096 2 2 2 0) }, by decide +kernel, by decide +kernel, by decide +kernel, rfl, by decide +kernel, by decide +kernel, by decide +kernel, check_sealed _, by decide +kernel, by decide +kernel, by decide +kernel, by decide +kernel, by decide +kernel, by decide +kernel⟩,
   ⟨{ nd 12383 { out := 1, inp := 63, stream := 5 } {} with nodes := (nd 12383 { out := 1, inp := 63, stream := 5 } {}).nodes ++ [(20480, { inputs := [(63, [(0, { stream := 5 })])] })], regs := ((nd 12383 { out := 1, inp := 63, stream := 5 } {}).set .LNK_P_STAT_UP 1 31).regs }, 31, 3, 0, 0, { out := 1, inp := 63, stream := 5 }, bk { out := 1, inp := 63, stream := 5 }, { stream := 5 }, by decide +kernel⟩,
   ⟨st [], 8192, 3, 0, by decide +kernel⟩,
   ⟨{ st [] with nodes := [(16384, { inputs := [(7, [(0, { stream := 5 })])] })] }, 16384, 7, { stream := 5 }, by decide +kernel⟩,
   ⟨{ run 3 {} [(.PRT_GRAN_GRAN,12,3)] with nodes := [(16384, { inputs := [(7, [(0, { stream := 5 })])], slices := [(3, { hi := 10, a := bk { inp := 7, offset := 5 } })] })] }, 16384, 7, 3, { stream := 5 }, by decide +kernel⟩,
   ⟨nd 8192 { out := 1, inp := 8, stream := 5, seq := 9 } { inputs := [(8, [(0, { stream := 5, seq := 9 })])] }, 8192, 8, { stream := 5, seq := 9 }, by decide +kernel⟩⟩

/-- The hypotheses of MemoryNodes can hold. -/
theorem witness_memoryNodes :
   (∃ (s : State) (d q k seq o m c lat : Nat) (en : Entry) (b : Bank) (h : Held), s.firing (memKey d) q k s.tally = some (en, seq, b) ∧
      8 ≤ en.inp ∧ s.boot.tripped = false ∧ seq ≤ (look {} b.binds en.bind).limit ∧ d < 8 ∧ (s.node (memKey d)).held.find? (fun h => h.at_
      == s.tally && h.q == q && h.k == k) = some h ∧ h.psn = false ∧ outs en = [o] ∧ s.dest (memKey d) o = .input m c lat ∧ m ≠ memKey d)
    ∧ (∃ (s : State) (d q k seq o m c lat : Nat) (en : Entry) (b : Bank) (h : Held), s.firing (memKey d) q k s.tally = some (en, seq, b) ∧
      8 ≤ en.inp ∧ s.boot.tripped = false ∧ seq ≤ (look {} b.binds en.bind).limit ∧ d < 8 ∧ (s.node (memKey d)).held.find? (fun h => h.at_
      == s.tally && h.q == q && h.k == k) = some h ∧ outs en = [o] ∧ s.dest (memKey d) o = .input m c lat ∧ m ≠ memKey d)
    ∧ (∃ (s : State) (d q k seq o m c lat : Nat) (en : Entry) (b : Bank), s.firing (memKey d) q k s.tally = some (en, seq, b) ∧ d < 8 ∧ 8 ≤
      en.inp ∧ s.boot.tripped = false ∧ (look {} b.binds en.bind).limit < seq ∧ outs en = [o] ∧ s.dest (memKey d) o = .input m c lat)
    ∧ (∃ (s : State) (d q k seq o w : Nat) (en : Entry) (b : Bank) (x : Tuft), s.firing (memKey d) q k s.tally = some (en, seq, b) ∧ d < 8
      ∧ en.inp < 8 ∧ 256 ≤ en.out ∧ s.boot.tripped = false ∧ seq ≤ (look {} b.binds en.bind).limit ∧ outs en = [o] ∧ s.dest (memKey d) o =
      .write w ∧ s.atInput (memKey d) en.inp = some x ∧ x.stream = en.stream ∧ x.seq = seq ∧ x.check = checkOf x ∧ x.poison = false ∧
      x.watch = false)
    ∧ (∃ (s : State) (d q k seq o w : Nat) (en : Entry) (b : Bank) (x : Tuft), s.firing (memKey d) q k s.tally = some (en, seq, b) ∧ d < 8
      ∧ en.inp < 8 ∧ 256 ≤ en.out ∧ s.boot.tripped = false ∧ seq ≤ (look {} b.binds en.bind).limit ∧ outs en = [o] ∧ s.dest (memKey d) o =
      .write w ∧ s.atInput (memKey d) en.inp = some x ∧ x.stream = en.stream ∧ x.seq = seq ∧ x.check = checkOf x ∧ x.poison = true ∧
      x.watch = false ∧ s.reached q (s.boundary q (s.curStep q + 1) - 8) = false)
    ∧ (∃ (s : State) (d q k seq o w : Nat) (en : Entry) (b : Bank) (x : Tuft), s.firing (memKey d) q k s.tally = some (en, seq, b) ∧ d < 8
      ∧ en.inp < 8 ∧ 256 ≤ en.out ∧ s.boot.tripped = false ∧ (look {} b.binds en.bind).limit < seq ∧ outs en = [o] ∧ s.dest (memKey d) o =
      .write w ∧ s.atInput (memKey d) en.inp = some x ∧ x.stream = en.stream ∧ x.seq = seq)
    ∧ (∃ (s : State) (d q k seq : Nat) (en : Entry) (b : Bank), s.firing (memKey d) q k ((s.tally + 512) % 2 ^ 56) = some (en, seq, b) ∧ 8
      ≤ en.inp ∧ seq ≤ (look {} b.binds en.bind).limit ∧ s.boot.tripped = false)
    ∧ (∃ (s : State) (d q k : Nat), (s.boot.tripped = true ∨ s.firing (memKey d) q k s.tally = none)) :=
  ⟨⟨nd 16384 { out := 1, inp := 8, stream := 5 } { held := [{ at_ := 0, q := 3, k := 0, bytes := List.replicate 256 7 }] }, 0, 3, 0, 0, 0, 4099, 1, 1, { out := 1, inp := 8, stream := 5 }, bk { out := 1, inp := 8, stream := 5 }, { at_ := 0, q := 3, k := 0, bytes := List.replicate 256 7 }, by decide +kernel⟩,
   ⟨nd 16384 { out := 1, inp := 8, stream := 5 } { held := [{ at_ := 0, q := 3, k := 0, bytes := List.replicate 256 7 }] }, 0, 3, 0, 0, 0, 4099, 1, 1, { out := 1, inp := 8, stream := 5 }, bk { out := 1, inp := 8, stream := 5 }, { at_ := 0, q := 3, k := 0, bytes := List.replicate 256 7 }, by decide +kernel⟩,
   ⟨nd 16384 { out := 1, inp := 8, stream := 5, seq := 1 } {}, 0, 3, 0, 1, 0, 4099, 1, 1, { out := 1, inp := 8, stream := 5, seq := 1 }, bk { out := 1, inp := 8, stream := 5, seq := 1 }, by decide +kernel⟩,
   ⟨nd 16384 { out := 256, inp := 1, stream := 5 } { inputs := [(1, [(0, sealed { payload := List.replicate 256 7, stream := 5 })])] }, 0, 3, 0, 0, 8, 0, { out := 256, inp := 1, stream := 5 }, bk { out := 256, inp := 1, stream := 5 }, sealed { payload := List.replicate 256 7, stream := 5 }, by decide +kernel, by decide +kernel, by decide +kernel, by decide +kernel, by decide +kernel, by decide +kernel, by decide +kernel, by decide +kernel, rfl, by decide +kernel, by decide +kernel, check_sealed _, by decide +kernel, by decide +kernel⟩,
   ⟨nd 16384 { out := 256, inp := 1, stream := 5 } { inputs := [(1, [(0, sealed { payload := List.replicate 256 7, stream := 5, poison := true })])] }, 0, 3, 0, 0, 8, 0, { out := 256, inp := 1, stream := 5 }, bk { out := 256, inp := 1, stream := 5 }, sealed { payload := List.replicate 256 7, stream := 5, poison := true }, by decide +kernel, by decide +kernel, by decide +kernel, by decide +kernel, by decide +kernel, by decide +kernel, by decide +kernel, by decide +kernel, rfl, by decide +kernel, by decide +kernel, check_sealed _, by decide +kernel, by decide +kernel, by decide +kernel⟩,
   ⟨nd 16384 { out := 256, inp := 1, stream := 5, seq := 1 } { inputs := [(1, [(0, { stream := 5, seq := 1 })])] }, 0, 3, 0, 1, 8, 0, { out := 256, inp := 1, stream := 5, seq := 1 }, bk { out := 256, inp := 1, stream := 5, seq := 1 }, { stream := 5, seq := 1 }, by decide +kernel⟩,
   ⟨nd 16384 { offset := 2, out := 1, inp := 8, stream := 5 } {}, 0, 3, 0, 0, { offset := 2, out := 1, inp := 8, stream := 5 }, bk { offset := 2, out := 1, inp := 8, stream := 5 }, by decide +kernel⟩,
   ⟨st [], 0, 3, 0, by decide +kernel⟩⟩

/-- The hypotheses of BankSwitches can hold. -/
theorem witness_bankSwitches :
   (∃ (s : State) (stop q b : Nat), s.runSt q = 3 ∧ (s.part q).haltedAt = none ∧ (∃ n ∈ s.nodesOf q, nodeStop n = stop) ∧ 64 ≤
      s.slotsAhead q (s.extend q b))
    ∧ (∃ (s : State) (stop q b : Nat), s.runSt q = 3 ∧ (s.part q).haltedAt = none ∧ (∃ n ∈ s.nodesOf q, nodeStop n = stop) ∧ s.slotsAhead q
      (s.extend q b) < 64)
    ∧ (∃ (s : State) (stop q : Nat), (s.runSt q ≠ 3 ∨ (s.part q).haltedAt ≠ none ∨ ∀ n ∈ s.nodesOf q, nodeStop n ≠ stop))
    ∧ (∃ (s : State) (q : Nat), s.slotsRun q (s.slotAt q s.tally) = true)
    ∧ (∃ (s : State) (q : Nat), s.slotsRun q (s.slotAt q s.tally) = false) :=
  ⟨⟨nd 16384 {} {}, 0, 3, 64, by decide +kernel⟩,
   ⟨nd 16384 {} {}, 0, 3, 63, by decide +kernel⟩,
   ⟨run 3 {} [], 0, 3, by decide +kernel⟩,
   ⟨run 3 {} [], 3, by decide +kernel⟩,
   ⟨run 4 {} [], 3, by decide +kernel⟩⟩

/-- The hypotheses of PortSending can hold. -/
theorem witness_portSending :
   (∃ (s : State) (p : Nat) (d : Kept) (rest : List Kept), s.sends p = true ∧ s.tally % 32 ≤ 28 ∧ p < 32 ∧ (s.port p).txQ = d :: rest)
    ∧ (∃ (s : State) (p : Nat), s.sends p = true ∧ s.tally % 32 ≤ 28 ∧ p < 32 ∧ (s.port p).txQ = [])
    ∧ (∃ (s : State) (p : Nat) (k : Kept), s.sends p = true ∧ s.tally % 32 = 30 ∧ p < 32 ∧ s.replayOf (s.port p) = some k)
    ∧ (∃ (s : State) (p : Nat), s.sends p = true ∧ s.tally % 32 = 30 ∧ p < 32 ∧ s.replayOf (s.port p) = none)
    ∧ (∃ (s : State) (p : Nat), s.sends p = true ∧ s.tally % 32 = 29 ∧ p < 32)
    ∧ (∃ (s : State) (p : Nat) (m : MaintMsg) (tb : TimeBase), s.sends p = true ∧ s.tally % 32 = 31 ∧ p < 32 ∧ let x := s.port p
      let naks := x.naks.filter (fun k => decide (-8192 ≤ cmp32 k.2 s.tally))
      let y : Port := { x with naks := naks, txSince := if x.txFrames.isEmpty then 0 else x.txSince + 1 }
      let ack (f : Fragment) : MaintMsg := .frag { f with ackseq := (x.rxFrames + 15) % 16, ackv := x.rxAny }
      let first := s.tb.syncMsgs.find? (fun m => m.1 == p)
      let conf := x.msgs.find? (fun m => !isFrag m)
      ∃ z : Port, ((∃ v, first = some v ∧ m = .sync v.2.1 v.2.2.1 v.2.2.2 ∧ z = y ∧ tb = { s.tb with syncMsgs := s.tb.syncMsgs.erase v }) ∨ (first = none ∧ tb = s.tb ∧ ((∃ c, conf = some (.probe c) ∧ m = .probe { c with t1 := s.tb.slots * 64 } ∧ z = { y with msgs := x.msgs.erase (.probe c), probeT1 := some (s.tb.slots * 64) }) ∨ (∃ v, conf = some v ∧ (∀ c, v ≠ .probe c) ∧ m = v ∧ z = { y with msgs := x.msgs.erase v }) ∨ (∃ f r, conf = none ∧ x.msgs = .frag f :: r ∧ m = ack f ∧ z = { y with msgs := r, ackDue := false }) ∨ (x.msgs = [] ∧ x.ackDue = true ∧ m = ack { ackOnly := true } ∧ z = { y with ackDue := false }) ∨ (x.msgs = [] ∧ x.ackDue = false ∧ m = .none ∧ z = y)))))
    ∧ (∃ (s : State) (p : Nat), s.sends p = false) :=
  ⟨⟨prt 31 28 { txQ := [{ part := 3, limit := 90 }] }, 31, { part := 3, limit := 90 }, [], by decide +kernel⟩,
   ⟨prt 31 0 {}, 31, by decide +kernel⟩,
   ⟨prt 31 30 { kept := [{ part := 3, limit := 30, nak := true }] }, 31, { part := 3, limit := 30, nak := true }, by decide +kernel⟩,
   ⟨prt 31 30 { kept := [{ part := 3, limit := 29, nak := true }] }, 31, by decide +kernel⟩,
   ⟨prt 0 29 {}, 0, by decide +kernel⟩,
   ⟨prt 0 31 { naks := [(7, 20)] }, 0, .none, {}, by decide +kernel, by decide +kernel, by decide +kernel, by
     intro x naks y first conf
     exact ⟨y, .inr ⟨rfl, rfl, .inr (.inr (.inr (.inr ⟨rfl, rfl, rfl, rfl⟩)))⟩⟩⟩,
   ⟨{ st [(.LNK_P_STAT_UP,0,1)] with boot := { tripped := true } }, 0, by decide +kernel⟩⟩

/-- The hypotheses of PortReceiving can hold. -/
theorem witness_portReceiving :
   (∃ (s : State) (p : Nat) (c : Cell), s.is .LNK_P_STAT_UP p = true ∧ p < 32 ∧ cellGood c = true ∧ c.kind = 1 ∧ c.lsn = (s.port
      p).rxLsn ∧ c.lsn < 8192 ∧ c.fecCorrected = false ∧ (∀ m ∈ (s.port p).missed, isMissed c.tuft m = false) ∧ (s.port p).delivery.length
      < (if p < 16 then 256 else 8192))
    ∧ (∃ (s : State) (p : Nat) (c : Cell), s.is .LNK_P_STAT_UP p = true ∧ p < 32 ∧ cellGood c = true ∧ c.kind = 2 ∧ c.lsn = (s.port
      p).rxLsn ∧ c.lsn < 8192 ∧ c.fecCorrected = false ∧ (∀ m ∈ (s.port p).missed, isMissed c.tuft m = false) ∧ (s.port p).delivery.length
      < (if p < 16 then 256 else 8192))
    ∧ (∃ (s : State) (p : Nat) (c : Cell) (m : Nat × Nat × Nat), s.is .LNK_P_STAT_UP p = true ∧ p < 32 ∧ cellGood c = true ∧ c.kind = 1 ∧
      c.lsn = (s.port p).rxLsn ∧ c.lsn < 8192 ∧ c.fecCorrected = false ∧ (s.port p).missed.find? (isMissed c.tuft) = some m)
    ∧ (∃ (s : State) (p : Nat) (c : Cell), s.is .LNK_P_STAT_UP p = true ∧ p < 32 ∧ cellGood c = true ∧ c.kind = 1 ∧ c.lsn = (s.port
      p).rxLsn ∧ c.lsn < 8192 ∧ c.fecCorrected = false ∧ (∀ m ∈ (s.port p).missed, isMissed c.tuft m = false) ∧ (if p < 16 then 256 else
      8192) ≤ (s.port p).delivery.length)
    ∧ (∃ (s : State) (p : Nat) (c : Cell), s.is .LNK_P_STAT_UP p = true ∧ p < 32 ∧ cellGood c = false ∧ c.fecCorrected = false)
    ∧ (∃ (s : State) (p n : Nat) (c : Cell), s.is .LNK_P_STAT_UP p = true ∧ p < 32 ∧ cellGood c = true ∧ c.kind = 0 ∧ (c.lsn + 8192 -
      (s.port p).rxLsn) % 8192 = n)
    ∧ (∃ (s : State) (p : Nat) (b : MaintBlock), s.is .LNK_P_STAT_UP p = true ∧ p < 32 ∧ blockGood b = true)
    ∧ (∃ (b : MaintBlock), blockGood b = false)
    ∧ (∃ (s : State) (p lsn : Nat) (k : Kept), (s.port p).kept.find? (fun k => k.lsn == lsn && k.nak && !k.again && decide (cmp32 k.limit
      s.tally < 0)) = some k)
    ∧ (∃ (s : State) (p lsn : Nat), (∀ k ∈ (s.port p).kept, k.lsn = lsn → k.nak = true → k.again = false → 0 ≤ cmp32 k.limit s.tally)) :=
  ⟨⟨prt 31 0 { rxLsn := 8191, missed := [(5, 0, 8)] }, 31, withLcrc { lsn := 8191, kind := 1, tuft := { stream := 5, step := 9 } }, by decide +kernel, by decide +kernel, cellGood_withLcrc rfl, by decide +kernel, by decide +kernel, by decide +kernel, by decide +kernel, by decide +kernel, by decide +kernel⟩,
   ⟨prt 15 0 { rxLsn := 8191, naks := [(3, 0)], delivery := List.replicate 255 (0, {}) }, 15, withLcrc { lsn := 8191, kind := 2, tuft := { stream := 5, step := 9 } }, by decide +kernel, by decide +kernel, cellGood_withLcrc rfl, by decide +kernel, by decide +kernel, by decide +kernel, by decide +kernel, by decide +kernel, by decide +kernel⟩,
   ⟨prt 31 0 { rxLsn := 8191, missed := [(5, 0, 9)] }, 31, withLcrc { lsn := 8191, kind := 1, tuft := { stream := 5, step := 9 } }, (5, 0, 9), by decide +kernel, by decide +kernel, cellGood_withLcrc rfl, by decide +kernel, by decide +kernel, by decide +kernel, by decide +kernel, by decide +kernel⟩,
   ⟨prt 15 0 { delivery := List.replicate 256 (0, {}) }, 15, withLcrc { kind := 1, tuft := { stream := 5, step := 9 } }, by decide +kernel, by decide +kernel, cellGood_withLcrc rfl, by decide +kernel, by decide +kernel, by decide +kernel, by decide +kernel, by decide +kernel, by decide +kernel⟩,
   ⟨prt 31 0 { rxLsn := 8191 }, 31, { lcrc := 0, uncorrectable := true }, by decide +kernel⟩,
   ⟨prt 31 0 { rxLsn := 8191 }, 31, 2, withLcrc { lsn := 1 }, by decide +kernel, by decide +kernel, cellGood_withLcrc rfl, by decide +kernel, by decide +kernel⟩,
   ⟨prt 31 0 { kept := [{ lsn := 7 }] }, 31, { bytes := blockBytes [7] .none }, by decide +kernel⟩,
   ⟨{ bytes := List.replicate 47 0 }, by decide +kernel⟩,
   ⟨{ st [(.TIM_TALLY_TALLY,0,91)] with ports := [(0, { kept := [{ lsn := 7, part := 3, limit := 90, nak := true }] })] }, 0, 7, { lsn := 7, part := 3, limit := 90, nak := true }, by decide +kernel⟩,
   ⟨{ st [(.TIM_TALLY_TALLY,0,90)] with ports := [(0, { kept := [{ lsn := 7, part := 3, limit := 90, nak := true }] })] }, 0, 7, by decide +kernel⟩⟩

/-- The hypotheses of PortLoss can hold. -/
theorem witness_portLoss :
   (∃ (s : State) (p : Nat), s.is .LNK_P_STAT_UP p = true ∧ p < 32 ∧ (s.port p).txFrames = [] ∧ (∀ q, s.portOwner p = some q → s.runSt q
      ≠ 3))
    ∧ (∃ (s : State) (p q : Nat), s.is .LNK_P_STAT_UP p = true ∧ p < 32 ∧ (s.port p).txFrames = [] ∧ s.portOwner p = some q ∧ s.runSt q = 3)
    ∧ (∃ (s : State) (p n : Nat) (f : List Fragment) (pk : Packet), s.is .LNK_P_STAT_UP p = true ∧ p < 32 ∧ (s.port p).txFrames = [(n, f)]
      ∧ (∀ q, s.portOwner p = some q → s.runSt q ≠ 3) ∧ readPacket s.coord (f.flatMap (·.data)) = pk ∧ pk.rxp = true ∧ pkReply pk = false
      ∧ pk.src < 24)
    ∧ (∃ (s : State) (p : Nat), (s.is .LNK_P_STAT_UP p = false ∨ 32 ≤ p))
    ∧ (∃ (s : State) (p : Nat), p < 32 ∧ s.is .LNK_P_STAT_UP p = false ∧ s.spare p = false ∧ (∀ q, s.portOwner p = some q → s.busy q =
      false) ∧ 7 ≤ s.get .MBX_BOOT_STAGE ∧ s.get .MBX_BOOT_STAGE ≤ 9 ∧ s.get .PWR_SHELF_STATE = 0 ∧ s.boot.tripped = false ∧ (look (0, 0)
      s.boot.ptest p).1 = 0)
    ∧ (∃ (s : State) (p : Nat), (s.is .LNK_P_STAT_UP p = true ∨ s.spare p = true ∨ (∃ q, s.portOwner p = some q ∧ s.busy q = true) ∨ s.get
      .PWR_SHELF_STATE ≠ 0 ∨ s.boot.tripped = true)) :=
  ⟨⟨prt 31 0 {}, 31, by decide +kernel, by decide +kernel, by decide +kernel, allNone (by decide +kernel)⟩,
   ⟨{ prt 31 0 {} with regs := (st [(.LNK_P_STAT_UP,31,1), (.PRT_PORTS_PORTS,3,2 ^ 31), (.TIM_LAUNCH_STATE_STATE,3,3)]).regs }, 31, 3, by decide +kernel⟩,
   ⟨prt 31 0 { txFrames := [(0, [{ last := true, data := pkBytes (rd8 5) }])] }, 31, 0, [{ last := true, data := pkBytes (rd8 5) }], readPacket 0 (pkBytes (rd8 5)), by decide +kernel, by decide +kernel, by decide +kernel, allNone (by decide +kernel), by decide +kernel, by decide +kernel, by decide +kernel, by decide +kernel⟩,
   ⟨prt 32 0 {}, 32, by decide +kernel⟩,
   ⟨st [(.MBX_BOOT_STAGE,0,7)], 31, by decide +kernel, by decide +kernel, by decide +kernel, allNone (by decide +kernel), by decide +kernel, by decide +kernel, by decide +kernel, by decide +kernel, by decide +kernel⟩,
   ⟨prt 31 0 {}, 31, .inl (by decide +kernel)⟩⟩

/-- The hypotheses of Stitches can hold. -/
theorem witness_stitches :
   (∃ (s : State) (n g : Nat) (east : Bool), n < 22 ∧ s.stitchTests n = false ∧ s.usedIn n g east = true)
    ∧ (∃ (s : State) (n : Nat), n < 22 ∧ s.stitchTests n = true)
    ∧ (∃ (s : State) (n g : Nat) (east : Bool), (22 ≤ n ∨ (s.stitchTests n = false ∧ s.usedIn n g east = false)))
    ∧ (∃ (s : State) (n : Nat) (f : Bool × List Byte) (r : List (Bool × List Byte)), 6 ≤ n ∧ n < 22 ∧ (s.stitchOf n).held = f :: r)
    ∧ (∃ (s : State) (n : Nat), (s.stitchOf n).held = [])
    ∧ (∃ (s : State) (n g : Nat), n < 22 ∧ (∃ q, q < 128 ∧ s.runSt q = 3) ∧ s.groupUsed n g = true ∧ (s.stitchOf n).down = false)
    ∧ (∃ (s : State) (n g : Nat), ((∀ q, q < 128 → s.runSt q ≠ 3) ∨ s.groupUsed n g = false ∨ (s.stitchOf n).down = true)) :=
  ⟨⟨st [], 21, 14, true, by decide +kernel⟩,
   ⟨st [(.MBX_BOOT_TEST,0,1), (.MEM_T_TEST_MODE,21,3)], 21, by decide +kernel⟩,
   ⟨st [], 5, 14, true, by decide +kernel⟩,
   ⟨{ st [] with stitch := [(21, { held := [(true, [1]), (false, [])] })] }, 21, (true, [1]), [(false, [])], by decide +kernel⟩,
   ⟨st [], 21, by decide +kernel⟩,
   ⟨run 3 {} [], 0, 13, by decide +kernel, ⟨3, by decide +kernel⟩, by decide +kernel, by decide +kernel⟩,
   ⟨st [], 0, 13, by decide +kernel⟩⟩

/-- The hypotheses of HbmUpkeep can hold. -/
theorem witness_hbmUpkeep :
   (∃ (s : State) (d : Nat), s.is .MEM_CTRL_SCRUB_EN = true ∧ d < 8 ∧ s.inSr d = false ∧ s.boot.tripped = false ∧ look 0 s.hbm.scrub d <
      36 * 2 ^ 25)
    ∧ (∃ (s : State) (d : Nat), d < 8 ∧ s.inSr d = false ∧ s.boot.tripped = false)
    ∧ (∃ (s : State) (d : Nat), (s.inSr d = true ∨ s.boot.tripped = true))
    ∧ (∃ (s : State), s.is .MEM_CTRL_SCRUB_EN = false)
    ∧ (∃ (s : State) (who : Nat), privileged who = true ∧ s.anyBusy = false)
    ∧ (∃ (s : State) (who : Nat), privileged who = true ∧ s.anyBusy = true)
    ∧ (∃ (s : State) (who q others : Nat), privileged who = true ∧ q < 128 ∧ ((List.range 128).filter (· ≠ q)).foldl (fun a p => a + s.get
      .MEM_QUOTA_QUOTA p) 0 = others)
    ∧ (∃ (who : Nat), privileged who = false) :=
  ⟨⟨{ st [(.MEM_CTRL_SCRUB_EN,0,1)] with hbm := { scrub := [(7, 36 * 2 ^ 25 - 1)] } }, 7, by decide +kernel⟩,
   ⟨st [], 7, by decide +kernel⟩,
   ⟨st [(.MEM_STAT_IN_SR,0,128)], 7, by decide +kernel⟩,
   ⟨st [(.MEM_CTRL_SCRUB_EN,0,0)], by decide +kernel⟩,
   ⟨st [], 129, by decide +kernel⟩,
   ⟨run 1 {} [], 0, by decide +kernel⟩,
   ⟨st [(.MEM_QUOTA_QUOTA,3,60)], 0, 127, 60, by decide +kernel⟩,
   ⟨1, by decide +kernel⟩⟩

/-- The hypotheses of Bar2 can hold. -/
theorem witness_bar2 :
   (∃ (s : State) (off len : Nat), let a := min 224 (s.get .MEM_WIN_BASE) * 2 ^ 30 + off
      off + len ≤ 2 ^ 36 ∧ a + len ≤ 0x4800000000 ∧ s.boot.tripped = false ∧ (∀ q, q < 128 → s.runSt q = 3 → 0 < (s.hbmRange q).2 → (s.hbmRange q).1 + (s.hbmRange q).2 ≤ a ∨ a + len ≤ (s.hbmRange q).1) ∧ (stacksOf a len).any s.inSr = false)
    ∧ (∃ (s : State) (off len : Nat), let a := min 224 (s.get .MEM_WIN_BASE) * 2 ^ 30 + off
      0 < len ∧ off + len ≤ 2 ^ 36 ∧ a + len ≤ 0x4800000000 ∧ s.boot.tripped = false ∧ (∀ q, q < 128 → s.runSt q = 3 → 0 < (s.hbmRange q).2 → (s.hbmRange q).1 + (s.hbmRange q).2 ≤ a ∨ a + len ≤ (s.hbmRange q).1) ∧ (stacksOf a len).any s.inSr = false)
    ∧ (∃ (s : State) (off : Nat) (data : List Byte), let a := min 224 (s.get .MEM_WIN_BASE) * 2 ^ 30 + off
      data ≠ [] ∧ off + data.length ≤ 2 ^ 36 ∧ a + data.length ≤ 0x4800000000 ∧ s.boot.tripped = false ∧ (∀ q, q < 128 → s.runSt q = 3 → 0 < (s.hbmRange q).2 → (s.hbmRange q).1 + (s.hbmRange q).2 ≤ a ∨ a + data.length ≤ (s.hbmRange q).1) ∧ (stacksOf a data.length).any s.inSr = false)
    ∧ (∃ (s : State) (off len q : Nat), let a := min 224 (s.get .MEM_WIN_BASE) * 2 ^ 30 + off
      off + len ≤ 2 ^ 36 ∧ a + len ≤ 0x4800000000 ∧ s.boot.tripped = false ∧ q < 128 ∧ s.runSt q = 3 ∧ 0 < (s.hbmRange q).2 ∧ a < (s.hbmRange q).1 + (s.hbmRange q).2 ∧ (s.hbmRange q).1 < a + len ∧ (∀ r, r < q → s.runSt r ≠ 3))
    ∧ (∃ (s : State) (off q : Nat) (data : List Byte), let a := min 224 (s.get .MEM_WIN_BASE) * 2 ^ 30 + off
      off + data.length ≤ 2 ^ 36 ∧ a + data.length ≤ 0x4800000000 ∧ s.boot.tripped = false ∧ q < 128 ∧ s.runSt q = 3 ∧ 0 < (s.hbmRange q).2 ∧ a < (s.hbmRange q).1 + (s.hbmRange q).2 ∧ (s.hbmRange q).1 < a + data.length ∧ data ≠ [] ∧ (∀ r, r < q → s.runSt r ≠ 3))
    ∧ (∃ (s : State) (off len : Nat), let a := min 224 (s.get .MEM_WIN_BASE) * 2 ^ 30 + off
      off + len ≤ 2 ^ 36 ∧ a + len ≤ 0x4800000000 ∧ s.boot.tripped = false ∧ (∀ q, q < 128 → s.runSt q = 3 → 0 < (s.hbmRange q).2 → (s.hbmRange q).1 + (s.hbmRange q).2 ≤ a ∨ a + len ≤ (s.hbmRange q).1) ∧ (stacksOf a len).any s.inSr = true)
    ∧ (∃ (s : State) (off len : Nat) (data : List Byte), (2 ^ 36 < off + len ∨ s.boot.tripped = true) ∧ data.length = len) :=
  ⟨⟨st [(.MEM_WIN_BASE,0,255)], 2 ^ 36 - 8, 8, by decide +kernel⟩,
   ⟨st [(.MEM_WIN_BASE,0,255)], 2 ^ 36 - 1, 1, by decide +kernel⟩,
   ⟨st [], 0, [7], by decide +kernel⟩,
   ⟨st [(.TIM_LAUNCH_STATE_STATE,3,3), (.PRT_HBM_SIZE_SIZE,3,1), (.PRT_HBM_BASE_BASE,3,512)], 2 ^ 30, 1, 3, by decide +kernel⟩,
   ⟨st [(.TIM_LAUNCH_STATE_STATE,3,3), (.PRT_HBM_SIZE_SIZE,3,1), (.PRT_HBM_BASE_BASE,3,512)], 2 ^ 30 - 1, 3, [7, 8], by decide +kernel⟩,
   ⟨st [(.MEM_STAT_IN_SR,0,1)], 0, 1, by decide +kernel⟩,
   ⟨st [], 2 ^ 36, 1, [7], by decide +kernel⟩⟩

/-- The hypotheses of BoardSetup can hold. -/
theorem witness_boardSetup :
   (∃ (s : State) (p : Nat), 16 ≤ p ∧ p < 32 ∧ (∀ q, s.portOwner p = some q → s.busy q = false) ∧ s.live .LNK_P_STAT_OPTICAL p = true)
    ∧ (∃ (s : State) (who p : Nat), (who ≠ 0 ∨ p < 16 ∨ 32 ≤ p ∨ ∃ q, s.portOwner p = some q ∧ s.busy q = true))
    ∧ (∃ (s : State) (who : Nat), privileged who = true ∧ s.is .MBX_SETUP_COMMITTED = false)
    ∧ (∃ (s : State) (who : Nat), (privileged who = false ∨ s.is .MBX_SETUP_COMMITTED = true))
    ∧ (∃ (s : State) (who v : Nat), privileged who = true ∧ bit v 0 = true ∧ bit v 8 = false ∧ s.is .LNK_COORD_RACKSET = true ∧ s.is
      .LNK_COORD_STRAP_BAD = false ∧ s.is .LNK_CONF_STAT_BUSY = false ∧ s.anyBusy = false)
    ∧ (∃ (s : State) (who v : Nat), privileged who = true ∧ bit v 0 = true ∧ bit v 8 = false ∧ (s.is .LNK_COORD_RACKSET = false ∨ s.is
      .LNK_COORD_STRAP_BAD = true ∨ s.is .LNK_CONF_STAT_BUSY = true ∨ s.anyBusy = true))
    ∧ (∃ (s : State) (who v : Nat), privileged who = true ∧ bit v 0 = false ∧ bit v 8 = true ∧ bits v 9 5 ∈ s.conformed)
    ∧ (∃ (s : State) (who v : Nat), privileged who = true ∧ bit v 0 = false ∧ bit v 8 = true ∧ bits v 9 5 ∉ s.conformed)
    ∧ (∃ (who : Nat), privileged who = false) :=
  ⟨⟨st [(.PWR_DOM_STAT_ON,2,0xFFFF)], 31, by decide +kernel, by decide +kernel, allNone (by decide +kernel), by decide +kernel⟩,
   ⟨st [], 129, 31, .inl (by decide +kernel)⟩,
   ⟨st [], 129, by decide +kernel⟩,
   ⟨st [(.MBX_SETUP_COMMITTED,0,1)], 0, by decide +kernel⟩,
   ⟨st [(.LNK_COORD_RACKSET,0,1)], 0, 1, by decide +kernel⟩,
   ⟨st [], 0, 1, by decide +kernel⟩,
   ⟨st [(.LNK_P_CONF_STATE,31,1)], 0, 256 + 31 * 512, by decide +kernel⟩,
   ⟨st [], 0, 256, by decide +kernel⟩,
   ⟨1, by decide +kernel⟩⟩

/-- The hypotheses of Probes can hold. -/
theorem witness_probes :
   (∃ (s : State) (p : Nat), s.is .LNK_P_STAT_UP p = true ∧ p < 32)
    ∧ (∃ (s : State) (p : Nat), (s.is .LNK_P_STAT_UP p = false ∨ 32 ≤ p))
    ∧ (∃ (s : State) (p : Nat) (m : ConfMsg) (t2 : Nat), (s.port p).probeIn = some (m, t2) ∧ s.tb.slots = t2 / 64 + 128 ∧ s.sends p = true)
    ∧ (∃ (s : State) (p t1 t4 : Nat) (m : ConfMsg) (n2 : Int), s.is .LNK_CONF_STAT_BUSY = true ∧ (s.port p).probeT1 = some t1 ∧ m.t1 = t1 ∧
      m.seq = (s.port p).probes ∧ (s.port p).probes < 16 ∧ n2 = ((t4 : Int) - t1) - ((m.t3 : Int) - m.t2) ∧ 0 ≤ n2)
    ∧ (∃ (s : State) (p : Nat) (m : ConfMsg), (s.is .LNK_CONF_STAT_BUSY = false ∨ (s.port p).probeT1 ≠ some m.t1 ∨ m.seq ≠ (s.port
      p).probes))
    ∧ (∃ (s : State) (p t1 : Nat), s.is .LNK_CONF_STAT_BUSY = true ∧ (s.port p).probeT1 = some t1 ∧ (s.port p).probes < 16 ∧ t1 / 64 + 2048
      ≤ s.tb.slots)
    ∧ (∃ (s : State) (p : Nat), (s.is .LNK_CONF_STAT_BUSY = false ∨ ∀ t1, (s.port p).probeT1 = some t1 → s.tb.slots < t1 / 64 + 2048))
    ∧ (∃ (s : State), s.is .LNK_CONF_STAT_BUSY = true ∧ (∀ p ∈ s.boot.confUp, s.is .LNK_P_STAT_UP p = true → 16 ≤ (s.port p).probes) ∧
      s.boot.confMask.Nodup ∧ (∀ p ∈ s.boot.confMask, p < 32))
    ∧ (∃ (s : State), (s.is .LNK_CONF_STAT_BUSY = false ∨ ∃ p ∈ s.boot.confUp, s.is .LNK_P_STAT_UP p = true ∧ (s.port p).probes < 16)) :=
  ⟨⟨prt 31 0 {}, 31, by decide +kernel⟩,
   ⟨prt 32 0 {}, 32, by decide +kernel⟩,
   ⟨{ prt 31 0 { probeIn := some ({}, 127) } with tb := { slots := 129 } }, 31, {}, 127, by decide +kernel⟩,
   ⟨{ st [(.LNK_CONF_STAT_BUSY,0,1)] with ports := [(4, { probeT1 := some 64, probes := 15 })] }, 4, 64, 8273, { t1 := 64, seq := 15, t2 := 100, t3 := 8308 }, 1, by decide +kernel⟩,
   ⟨st [], 4, {}, by decide +kernel⟩,
   ⟨{ st [(.LNK_CONF_STAT_BUSY,0,1)] with ports := [(4, { probeT1 := some 64, probes := 15 })], tb := { slots := 2049 } }, 4, 64, by decide +kernel⟩,
   ⟨st [], 4, .inl (by decide +kernel)⟩,
   ⟨{ prt 31 0 { probes := 16 } with regs := (st [(.LNK_P_STAT_UP,31,1), (.LNK_CONF_STAT_BUSY,0,1)]).regs, boot := { confMask := [31], confUp := [31] } }, by decide +kernel⟩,
   ⟨{ prt 31 0 { probes := 15 } with regs := (st [(.LNK_P_STAT_UP,31,1), (.LNK_CONF_STAT_BUSY,0,1)]).regs, boot := { confMask := [31], confUp := [31] } }, by decide +kernel⟩⟩

/-- The hypotheses of HopAdverts can hold. -/
theorem witness_hopAdverts :
   (∃ (s : State) (p : Nat) (m : ConfMsg), s.is .LNK_P_STAT_UP p = true ∧ p < 32 ∧ s.conflictWith p m = false)
    ∧ (∃ (s : State) (p : Nat) (m : ConfMsg), s.is .LNK_P_STAT_UP p = true ∧ p < 32 ∧ m.hops < 255 ∧ ((s.is .TIM_CTRL_CROWN = true ∧
      m.crown ≠ s.coord) ∨ (s.is .TIM_CTRL_CROWN = false ∧ p ∈ s.conformed ∧ ∃ r ∈ s.conformed, r ≠ p ∧ s.get .LNK_P_SPR_FARHOPS r < 255 ∧
      (s.port r).crown ≠ m.crown)))
    ∧ (∃ (s : State) (p : Nat), (s.is .LNK_P_STAT_UP p = false ∨ 32 ≤ p))
    ∧ (∃ (s : State), s.is .TIM_STATUS_CONFLICT = true ∧ s.boot.conflictSince + 2048 ≤ s.tb.slots)
    ∧ (∃ (s : State), (s.is .TIM_STATUS_CONFLICT = false ∨ s.tb.slots < s.boot.conflictSince + 2048)) :=
  ⟨⟨prt 31 0 {}, 31, { hops := 255 }, by decide +kernel⟩,
   ⟨{ prt 31 0 {} with regs := (st [(.LNK_P_STAT_UP,31,1), (.TIM_CTRL_CROWN,0,1)]).regs }, 31, { hops := 254, crown := 5 }, by decide +kernel⟩,
   ⟨prt 32 0 {}, 32, by decide +kernel⟩,
   ⟨{ st [(.TIM_STATUS_CONFLICT,0,1)] with boot := { conflictSince := 9 }, tb := { slots := 2057 } }, by decide +kernel⟩,
   ⟨{ st [(.TIM_STATUS_CONFLICT,0,1)] with boot := { conflictSince := 9 }, tb := { slots := 2056 } }, by decide +kernel⟩⟩

/-- The hypotheses of Submissions can hold. -/
theorem witness_submissions :
   (∃ (s : State) (fn : Nat) (b : List Byte) (r : List (List Byte)), (s.ring fn 0).fetched = b :: r ∧ (parseSub fn b).bad = true ∧
      s.cmdBusy fn = false)
    ∧ (∃ (s : State) (fn : Nat), ((s.ring fn 0).fetched = [] ∨ s.cmdBusy fn = true ∨ ∃ b r, (s.ring fn 0).fetched = b :: r ∧ (parseSub fn
      b).bad = false))
    ∧ (∃ (s : State) (fn : Nat) (d : Sub) (r : List (List Byte)), s.subFor fn 1 = some (d, r))
    ∧ (∃ (s : State) (fn : Nat) (d : Sub) (r : List (List Byte)), s.subFor fn 5 = some (d, r) ∧ s.loadBusy d.q = false)
    ∧ (∃ (s : State) (fn : Nat) (d : Sub) (r : List (List Byte)), s.subFor fn 5 = some (d, r) ∧ s.loadBusy d.q = true)
    ∧ (∃ (s : State) (fn : Nat) (d : Sub) (r : List (List Byte)), s.subFor fn 6 = some (d, r))
    ∧ (∃ (s : State) (fn : Nat) (d : Sub) (r : List (List Byte)), look? s.hre.loads fn = none ∧ s.subFor fn 2 = some (d, r) ∧ bit (d.argN
      20 1) 0 = false ∧ s.linkUp = true)
    ∧ (∃ (s : State) (fn : Nat) (d : Sub) (r : List (List Byte)), look? s.hre.loads fn = none ∧ s.subFor fn 2 = some (d, r) ∧ bit (d.argN
      20 1) 0 = false ∧ s.linkUp = false ∧ d.argN 16 4 ≠ 0)
    ∧ (∃ (s : State) (fn : Nat) (j : LoadJob), look? s.hre.loads fn = some j ∧ (j.second = false ∨ j.left ≠ 0))
    ∧ (∃ (s s1 : State) (fn : Nat) (j : LoadJob), look? s.hre.loads fn = some j ∧ j.second = true ∧ j.left = 0 ∧ s1 = { s with hre := {
      s.hre with loads := del s.hre.loads fn } })
    ∧ (∃ (s s1 : State) (fn : Nat) (d : Sub) (r : List (List Byte)), look? s.hre.loads fn = none ∧ s.subFor fn 2 = some (d, r) ∧ bit
      (d.argN 20 1) 0 = true ∧ s1 = (s.setFetched fn r).setPart d.q { s.part d.q with loadFn := fn } ∧ s.inRange d.q (d.argN 8 8) (d.argN
      16 4) = true ∧ (∀ k < 8, s.inSr k = false))
    ∧ (∃ (s : State) (fn : Nat) (d : Sub) (r : List (List Byte)), look? s.hre.loads fn = none ∧ s.subFor fn 2 = some (d, r) ∧ bit (d.argN
      20 1) 0 = true ∧ s.inRange d.q (d.argN 8 8) (d.argN 16 4) = false)
    ∧ (∃ (s s1 : State) (fn : Nat) (d : Sub) (r : List (List Byte)), look? s.hre.loads fn = none ∧ s.subFor fn 2 = some (d, r) ∧ bit
      (d.argN 20 1) 0 = true ∧ s1 = (s.setFetched fn r).setPart d.q { s.part d.q with loadFn := fn } ∧ s.inRange d.q (d.argN 8 8) (d.argN
      16 4) = true ∧ (∃ k ∈ stacksOf (d.argN 8 8) (d.argN 16 4), s.inSr k = true))
    ∧ (∃ (s : State) (q : Nat) (m : Image), (s.part q).loading = some m ∧ q < 128 ∧ s.domsReady q m = true ∧ s.boot.tripped = false ∧ (∀ k
      < 8, s.inSr k = false) ∧ (∀ d < 8, 600 ≤ s.rail d))
    ∧ (∃ (s : State) (q : Nat), ((s.part q).loading = none ∨ 128 ≤ q ∨ s.boot.tripped = true ∨ ∃ m, (s.part q).loading = some m ∧
      s.domsReady q m = false))
    ∧ (∃ (s : State) (fn : Nat) (d : Sub) (r : List (List Byte)), s.subFor fn 3 = some (d, r) ∧ s.busy d.q = true)
    ∧ (∃ (s : State) (fn : Nat) (d : Sub) (r : List (List Byte)), s.subFor fn 3 = some (d, r) ∧ s.busy d.q = false ∧ d.q < 128)
    ∧ (∃ (s : State) (fn : Nat), (∀ op, s.subFor fn op = none) ∧ look? s.hre.loads fn = none) :=
  ⟨⟨{ st [] with hre := host [subD 0 3 9 []] }, 0, subD 0 3 9 [], [], by decide +kernel⟩,
   ⟨st [], 0, .inl (by decide +kernel)⟩,
   ⟨cmd 1 0 [] {}, 0, parseSub 0 (subD 1 3 9 []), [], by decide +kernel⟩,
   ⟨cmd 5 3 [] {}, 0, parseSub 0 (subD 5 3 9 []), [], by decide +kernel⟩,
   ⟨{ cmd 5 3 [] {} with parts := [(3, { loading := some (im {}) })] }, 0, parseSub 0 (subD 5 3 9 []), [], by decide +kernel⟩,
   ⟨cmd 6 3 [] {}, 0, parseSub 0 (subD 6 3 9 []), [], by decide +kernel⟩,
   ⟨{ lod with regs := (st [(.PCX_LINK_RATE,0,5)]).regs }, 0, parseSub 0 lodD, [], by decide +kernel⟩,
   ⟨lod, 0, parseSub 0 lodD, [], by decide +kernel⟩,
   ⟨{ st [] with hre := { loads := [(0, { left := 1, second := true })] } }, 0, { left := 1, second := true }, by decide +kernel⟩,
   ⟨{ st [] with hre := { loads := [(0, { desc := lodD, got1 := [(0, imgB)], got2 := [(0, imgB)], second := true })] } }, _, 0, { desc := lodD, got1 := [(0, imgB)], got2 := [(0, imgB)], second := true }, by decide +kernel, by decide +kernel, by decide +kernel, rfl⟩,
   ⟨{ st [(.PRT_HBM_SIZE_SIZE,3,1), (.PRT_HBM_BASE_BASE,3,512)] with hre := host [subD 2 3 9 (toLE 8 (2 ^ 30) ++ toLE 4 160 ++ [1])] }, _, 0, parseSub 0 (subD 2 3 9 (toLE 8 (2 ^ 30) ++ toLE 4 160 ++ [1])), [], by decide +kernel, by decide +kernel, by decide +kernel, rfl, by decide +kernel, by decide +kernel⟩,
   ⟨{ st [] with hre := host [subD 2 3 9 (toLE 8 (2 ^ 30) ++ toLE 4 160 ++ [1])] }, 0, parseSub 0 (subD 2 3 9 (toLE 8 (2 ^ 30) ++ toLE 4 160 ++ [1])), [], by decide +kernel⟩,
   ⟨{ st [(.PRT_HBM_SIZE_SIZE,3,1), (.PRT_HBM_BASE_BASE,3,512), (.MEM_STAT_IN_SR,0,1)] with hre := host [subD 2 3 9 (toLE 8 (2 ^ 30) ++ toLE 4 160 ++ [1])] }, _, 0, parseSub 0 (subD 2 3 9 (toLE 8 (2 ^ 30) ++ toLE 4 160 ++ [1])), [], by decide +kernel, by decide +kernel, by decide +kernel, rfl, by decide +kernel, by decide +kernel⟩,
   ⟨{ st [(.PWR_DOM_STAT_ON,0,2 ^ 32 - 1), (.PWR_DOM_STAT_ON,1,2 ^ 32 - 1), (.PWR_DOM_STAT_ON,2,2 ^ 14 - 1)] with parts := [(127, { loading := some (im {}) })] }, 127, im {}, by decide +kernel⟩,
   ⟨st [], 3, .inl (by decide +kernel)⟩,
   ⟨cmd 3 1 [] {}, 0, parseSub 0 (subD 3 3 9 []), [], by decide +kernel⟩,
   ⟨cmd 3 4 [] {}, 0, parseSub 0 (subD 3 3 9 []), [], by decide +kernel⟩,
   ⟨st [], 0, subFor_none (by decide +kernel), by decide +kernel⟩⟩

/-- The hypotheses of DebugHalts can hold. -/
theorem witness_debugHalts :
   (∃ (s : State) (fn h : Nat) (d : Sub) (r : List (List Byte)), s.subFor fn 7 = some (d, r) ∧ s.runSt d.q = 3 ∧ s.haltStep d.q = some h
      ∧ (s.get .DBG_HALT_STATE d.q = 0 ∨ (s.get .DBG_HALT_STATE d.q = 1 ∧ h < s.get .DBG_HSTEP_STEP d.q)))
    ∧ (∃ (s : State) (fn h : Nat) (d : Sub) (r : List (List Byte)) (x : HaltSt), s.subFor fn 7 = some (d, r) ∧ s.runSt d.q = 3 ∧ s.haltStep
      d.q = some h ∧ s.get .DBG_HALT_STATE d.q = 1 ∧ s.get .DBG_HSTEP_STEP d.q ≤ h ∧ (s.part d.q).halt = some x)
    ∧ (∃ (s : State) (fn : Nat) (d : Sub) (r : List (List Byte)), s.subFor fn 7 = some (d, r) ∧ s.runSt d.q = 3 ∧ s.get .DBG_HALT_STATE d.q
      < 2 ∧ s.haltStep d.q = none)
    ∧ (∃ (s : State) (fn : Nat) (d : Sub) (r : List (List Byte)), s.subFor fn 7 = some (d, r) ∧ (s.runSt d.q ≠ 3 ∨ 2 ≤ s.get
      .DBG_HALT_STATE d.q))
    ∧ (∃ (s : State) (m : HaltMsg), s.runSt m.part = 3 ∧ m.launch = s.get .TIM_LAUNCH_AT_AT m.part ∧ (s.get .DBG_HALT_STATE m.part = 0 ∨
      (s.get .DBG_HALT_STATE m.part = 1 ∧ m.hstep < s.get .DBG_HSTEP_STEP m.part)))
    ∧ (∃ (s : State) (m : HaltMsg), (s.runSt m.part ≠ 3 ∨ m.launch ≠ s.get .TIM_LAUNCH_AT_AT m.part ∨ 2 ≤ s.get .DBG_HALT_STATE m.part ∨
      (s.get .DBG_HALT_STATE m.part = 1 ∧ s.get .DBG_HSTEP_STEP m.part ≤ m.hstep)))
    ∧ (∃ (s : State) (q : Nat) (hs : HaltSt), (s.part q).halt = some hs ∧ s.runSt q = 3 ∧ (s.part q).stop = none ∧ s.get .DBG_HALT_STATE q
      = 1 ∧ s.reached q (s.boundary q (s.get .DBG_HSTEP_STEP q)) = true)
    ∧ (∃ (s : State) (q : Nat), ((s.part q).halt = none ∨ s.runSt q ≠ 3 ∨ (s.part q).stop ≠ none ∨ s.get .DBG_HALT_STATE q ≠ 1 ∨ s.reached
      q (s.boundary q (s.get .DBG_HSTEP_STEP q)) = false))
    ∧ (∃ (s : State) (fn : Nat) (d : Sub) (r : List (List Byte)), s.subFor fn 8 = some (d, r) ∧ s.is .TIM_CTRL_CROWN = true ∧ s.get
      .DBG_HALT_STATE d.q = 2 ∧ s.resuming d.q = false)
    ∧ (∃ (s : State) (fn : Nat) (d : Sub) (r : List (List Byte)), s.subFor fn 8 = some (d, r) ∧ (s.is .TIM_CTRL_CROWN = false ∨ s.get
      .DBG_HALT_STATE d.q ≠ 2 ∨ s.resuming d.q = true))
    ∧ (∃ (s : State) (fn : Nat), (∀ op, s.subFor fn op = none))
    ∧ (∃ (s : State) (m : HaltMsg), 0 ≤ cmp32 m.r s.tally ∧ s.get .DBG_HALT_STATE m.part = 2 ∧ s.get .DBG_HSTEP_STEP m.part = m.hstep ∧
      (s.image m.part).img.ports.all (s.portFits (s.image m.part)) = true ∧ s.is .TIM_STATUS_LOCK = true)
    ∧ (∃ (s : State) (m : HaltMsg) (c : Nat), let fits := (s.image m.part).img.ports.all (s.portFits (s.image m.part))
      let right := s.get .DBG_HALT_STATE m.part = 2 ∧ s.get .DBG_HSTEP_STEP m.part = m.hstep
      ((cmp32 m.r s.tally < 0 ∧ c = 1) ∨ (0 ≤ cmp32 m.r s.tally ∧ ¬ right ∧ c = 7) ∨ (0 ≤ cmp32 m.r s.tally ∧ right ∧ fits = false ∧ c = 4) ∨ (0 ≤ cmp32 m.r s.tally ∧ right ∧ fits = true ∧ s.is .TIM_STATUS_LOCK = false ∧ c = 5)))
    ∧ (∃ (s : State) (m : HaltMsg) (h : HaltSt), (s.part m.part).halt = some h ∧ s.is .TIM_CTRL_CROWN = true ∧ h.cmds ≠ [] ∧ m.r = h.msg.r)
    ∧ (∃ (s : State) (m : HaltMsg) (h : HaltSt), (s.part m.part).halt = some h ∧ s.is .TIM_CTRL_CROWN = true ∧ 2 ≤ s.get .DBG_HALT_STATE
      m.part ∧ h.cmds ≠ [] ∧ m.r = h.msg.r)
    ∧ (∃ (s : State) (m : HaltMsg), ((s.part m.part).halt = none ∨ s.is .TIM_CTRL_CROWN = false ∨ ∃ h, (s.part m.part).halt = some h ∧
      (h.cmds = [] ∨ m.r ≠ h.msg.r)))
    ∧ (∃ (s : State) (m : HaltMsg) (h : HaltSt), (s.part m.part).halt = some h ∧ s.get .DBG_HALT_STATE m.part = 3 ∧ m.r = h.msg.r)
    ∧ (∃ (s : State) (q : Nat) (h : HaltSt), (s.part q).halt = some h ∧ s.get .DBG_HALT_STATE q = 3 ∧ h.commit = false ∧ cmp32 h.msg.r
      s.tally ≤ ((max 0x400 (s.get .TIM_COMMIT_MARGIN_MARGIN) : Nat) : Int) ∧ (h.cmds = [] ∨ ∀ c ∈ s.memberCoords q, c ∈ h.armedBy))
    ∧ (∃ (s : State) (q c : Nat) (h : HaltSt), (s.part q).halt = some h ∧ s.get .DBG_HALT_STATE q = 3 ∧ h.commit = false ∧ cmp32 h.msg.r
      s.tally ≤ ((max 0x400 (s.get .TIM_COMMIT_MARGIN_MARGIN) : Nat) : Int) ∧ h.cmds ≠ [] ∧ (s.memberCoords q).find? (fun c => !decide (c
      ∈ h.armedBy)) = some c)
    ∧ (∃ (s : State) (q : Nat) (hs : HaltSt), (s.part q).halt = some hs ∧ s.get .DBG_HALT_STATE q = 3 ∧ hs.commit = true ∧ s.tally =
      hs.msg.r ∧ (∀ x ∈ s.ctxsOf q, (s.ctx x).reply = none))
    ∧ (∃ (s : State) (q : Nat), ((s.part q).halt = none ∨ s.get .DBG_HALT_STATE q ≠ 3 ∨ ∃ h, (s.part q).halt = some h ∧ (h.commit = false ∨
      s.tally ≠ h.msg.r)))
    ∧ (∃ (s : State) (q : Nat), ((s.part q).halt = none ∨ s.get .DBG_HALT_STATE q ≠ 3 ∨ ∃ h, (s.part q).halt = some h ∧ (h.commit = true ∨
      ((max 0x400 (s.get .TIM_COMMIT_MARGIN_MARGIN) : Nat) : Int) < cmp32 h.msg.r s.tally))) :=
  ⟨⟨cmd 7 3 [] { halts := [1] }, 0, 1, parseSub 0 (subD 7 3 9 []), [], by decide +kernel⟩,
   ⟨{ cmd 7 3 [(.DBG_HALT_STATE,3,1), (.DBG_HSTEP_STEP,3,1)] { halts := [1] } with parts := [(3, { image := some (im { halts := [1] }), halt := some {} })] }, 0, 1, parseSub 0 (subD 7 3 9 []), [], {}, by decide +kernel⟩,
   ⟨cmd 7 3 [] {}, 0, parseSub 0 (subD 7 3 9 []), [], by decide +kernel⟩,
   ⟨cmd 7 4 [] {}, 0, parseSub 0 (subD 7 3 9 []), [], by decide +kernel⟩,
   ⟨run 3 { halts := [1] } [(.TIM_LAUNCH_AT_AT,3,7), (.DBG_HALT_STATE,3,1), (.DBG_HSTEP_STEP,3,2)], { part := 3, launch := 7, hstep := 1 }, by decide +kernel⟩,
   ⟨run 3 {} [], { part := 3, launch := 7, hstep := 1 }, by decide +kernel⟩,
   ⟨hlt [(.DBG_HALT_STATE,3,1), (.DBG_HSTEP_STEP,3,1), (.TIM_TALLY_TALLY,0,1000)] {}, 3, {}, by decide +kernel⟩,
   ⟨hlt [(.DBG_HALT_STATE,3,1), (.DBG_HSTEP_STEP,3,1), (.TIM_TALLY_TALLY,0,999)] {}, 3, by decide +kernel⟩,
   ⟨cmd 8 3 [(.TIM_CTRL_CROWN,0,1), (.DBG_HALT_STATE,3,2)] {}, 0, parseSub 0 (subD 8 3 9 []), [], by decide +kernel⟩,
   ⟨cmd 8 3 [(.DBG_HALT_STATE,3,2)] {}, 0, parseSub 0 (subD 8 3 9 []), [], by decide +kernel⟩,
   ⟨st [], 0, subFor_none (by decide +kernel)⟩,
   ⟨hlt [(.DBG_HALT_STATE,3,2), (.DBG_HSTEP_STEP,3,1), (.TIM_STATUS_LOCK,0,1)] {}, { part := 3, hstep := 1 }, by decide +kernel⟩,
   ⟨st [(.TIM_TALLY_TALLY,0,1)], { part := 3 }, 1, .inl (by decide +kernel)⟩,
   ⟨hlt [(.TIM_CTRL_CROWN,0,1)] { cmds := [(0, 9, true)] }, { part := 3, src := 5 }, { cmds := [(0, 9, true)] }, by decide +kernel⟩,
   ⟨hlt [(.TIM_CTRL_CROWN,0,1), (.DBG_HALT_STATE,3,2)] { cmds := [(0, 9, true)] }, { part := 3, src := 5 }, { cmds := [(0, 9, true)] }, by decide +kernel⟩,
   ⟨st [], { part := 3 }, .inl (by decide +kernel)⟩,
   ⟨hlt [(.DBG_HALT_STATE,3,3)] {}, { part := 3 }, {}, by decide +kernel⟩,
   ⟨hlt [(.DBG_HALT_STATE,3,3)] { msg := { r := 4096 } }, 3, { msg := { r := 4096 } }, by decide +kernel⟩,
   ⟨hlt [(.DBG_HALT_STATE,3,3)] { msg := { r := 4096 }, cmds := [(0, 9, true)] }, 3, 0, { msg := { r := 4096 }, cmds := [(0, 9, true)] }, by decide +kernel⟩,
   ⟨hlt [(.DBG_HALT_STATE,3,3), (.TIM_TALLY_TALLY,0,4000)] { msg := { r := 4000 }, commit := true }, 3, { msg := { r := 4000 }, commit := true }, by decide +kernel⟩,
   ⟨hlt [(.DBG_HALT_STATE,3,3), (.TIM_TALLY_TALLY,0,3999)] { msg := { r := 4000 }, commit := true }, 3, .inr (.inr ⟨{ msg := { r := 4000 }, commit := true }, by decide +kernel⟩)⟩,
   ⟨hlt [(.DBG_HALT_STATE,3,3)] { msg := { r := 4097 } }, 3, .inr (.inr ⟨{ msg := { r := 4097 } }, by decide +kernel⟩)⟩⟩

/-- The hypotheses of Intakes can hold. -/
theorem witness_intakes :
   (∃ (s : State) (q k : Nat) (p : ImgIntake), s.point q k = some p ∧ q < 128 ∧ s.intakeSt q k = .waiting ∧ s.liveSlot q s.tally = some
      p.slot ∧ (s.part q).base ≤ p.slot ∧ s.ringOn (s.part q).ringFn (ringOf p) = true)
    ∧ (∃ (s : State) (q k : Nat) (p : ImgIntake), s.point q k = some p ∧ q < 128 ∧ s.intakeSt q k = .waiting ∧ s.liveSlot q s.tally = some
      p.slot ∧ (s.part q).base ≤ p.slot ∧ s.ringOn (s.part q).ringFn (ringOf p) = false ∧ (s.ring (s.part q).ringFn (ringOf p)).stopped =
      false)
    ∧ (∃ (s : State) (q k : Nat) (p : ImgIntake), s.point q k = some p ∧ q < 128 ∧ s.intakeSt q k = .waiting ∧ s.liveSlot q s.tally = some
      p.slot ∧ (s.part q).base ≤ p.slot ∧ (s.ring (s.part q).ringFn (ringOf p)).stopped = true)
    ∧ (∃ (s : State) (q k : Nat), (s.point q k = none ∨ 128 ≤ q ∨ s.intakeSt q k ≠ .waiting ∨ ∃ p, s.point q k = some p ∧ (s.liveSlot q
      s.tally ≠ some p.slot ∨ p.slot < (s.part q).base)))
    ∧ (∃ (s : State) (q k tag : Nat) (p : ImgIntake) (d : Dma) (w : List Byte), look? s.hre.dma tag = some d ∧ d.purp = .point q k ∧
      w.length = d.len ∧ s.point q k = some p ∧ s.intakeSt q k = .reading ∧ s.hre.dmaWait = [] ∧ s.linkUp = true)
    ∧ (∃ (s : State) (q k tag i n : Nat) (p : ImgIntake) (d : Dma) (data : List Byte), look? s.hre.dma tag = some d ∧ d.purp = .desc q k i
      n ∧ data.length = d.len ∧ s.point q k = some p ∧ s.intakeSt q k = .reading ∧ s.hre.dmaWait = [] ∧ s.linkUp = true)
    ∧ (∃ (s : State) (q k tag j off : Nat) (d : Dma) (data : List Byte), look? s.hre.dma tag = some d ∧ d.purp = .input q k j off ∧
      data.length = d.len ∧ s.intakeSt q k = .reading ∧ s.hre.dmaWait = [])
    ∧ (∃ (s : State) (q k tag : Nat) (p : ImgIntake) (d : Dma) (c : Cpl), look? s.hre.dma tag = some d ∧ (d.purp = .point q k ∨ (∃ i n,
      d.purp = .desc q k i n) ∨ (∃ j off, d.purp = .input q k j off)) ∧ c ≠ .ok ∧ s.point q k = some p ∧ s.intakeSt q k = .reading ∧
      s.hre.dmaWait = [])
    ∧ (∃ (s : State) (q k : Nat) (p : ImgIntake), IntakeReady s q k p ∧ (s.inRead q k).bad = false ∧ p.n ≤ (s.inRead q k).shown ∧ lensOk
      p.cap ((s.inRead q k).descList p.n) = true ∧ (s.ring (s.part q).ringFn (ringOf p)).stopped = false ∧ s.boot.tripped = false)
    ∧ (∃ (s : State) (q k : Nat) (p : ImgIntake), IntakeReady s q k p ∧ (s.inRead q k).bad = false ∧ (s.inRead q k).shown < p.n ∧ p.skip =
      true ∧ (s.ring (s.part q).ringFn (ringOf p)).stopped = false ∧ s.boot.tripped = false)
    ∧ (∃ (s : State) (q k : Nat) (p : ImgIntake), IntakeReady s q k p ∧ ((s.ring (s.part q).ringFn (ringOf p)).stopped = true ∨ ((s.inRead
      q k).bad = false ∧ (((s.inRead q k).shown < p.n ∧ p.skip = false) ∨ (p.n ≤ (s.inRead q k).shown ∧ lensOk p.cap ((s.inRead q
      k).descList p.n) = false)))))
    ∧ (∃ (s : State) (q k : Nat) (p : ImgIntake), IntakeReady s q k p ∧ (s.ring (s.part q).ringFn (ringOf p)).stopped = false ∧ (s.inRead q
      k).bad = true)
    ∧ (∃ (s : State) (q k : Nat), (∀ p, ¬ IntakeReady s q k p))
    ∧ (∃ (s : State) (q k : Nat) (p : ImgIntake), s.point q k = some p ∧ q < 128 ∧ s.runSt q = 3 ∧ (s.part q).haltedAt = none ∧ (s.part
      q).base ≤ p.slot ∧ p.slot < s.boundary q (s.image q).steps ∧ (s.intakeSt q k = .waiting ∨ s.intakeSt q k = .reading ∨ s.intakeSt q k
      = .failed) ∧ s.reached q (p.slot + p.w) = true)
    ∧ (∃ (s : State) (q k : Nat), (s.point q k = none ∨ s.runSt q ≠ 3 ∨ (s.part q).haltedAt ≠ none ∨ s.intakeSt q k = .done ∨ s.intakeSt q
      k = .skipped ∨ s.intakeSt q k = .faulted ∨ ∃ p, s.point q k = some p ∧ s.reached q (p.slot + p.w) = false)) :=
  ⟨⟨itk [(.HRE_CTRL_ENABLE,0,1), (.RING_CFG_ENABLE,4,1), (.TIM_TALLY_TALLY,0,5)] .waiting { slot := 5, n := 1 } {}, 3, 0, { slot := 5, n := 1 }, by decide +kernel⟩,
   ⟨itk [(.TIM_TALLY_TALLY,0,5)] .waiting { slot := 5, n := 1 } {}, 3, 0, { slot := 5, n := 1 }, by decide +kernel⟩,
   ⟨{ itk [(.TIM_TALLY_TALLY,0,5)] .waiting { slot := 5, n := 1 } {} with hre := { rings := [(4, { stopped := true })] } }, 3, 0, { slot := 5, n := 1 }, by decide +kernel⟩,
   ⟨st [], 3, 0, .inl (by decide +kernel)⟩,
   ⟨{ itk [(.TIM_TALLY_TALLY,0,15)] .reading { slot := 5, n := 1, w := 10, cap := 2 } { left := 1 } with hre := { dma := [(6, { purp := .point 3 0, len := 16 })] } }, 3, 0, 6, { slot := 5, n := 1, w := 10, cap := 2 }, { purp := .point 3 0, len := 16 }, toLE 16 1, by decide +kernel⟩,
   ⟨{ itk [(.TIM_TALLY_TALLY,0,15)] .reading { slot := 5, n := 1, w := 10, cap := 2 } { left := 1 } with hre := { dma := [(6, { purp := .desc 3 0 0 1, len := 64 })] } }, 3, 0, 6, 0, 1, { slot := 5, n := 1, w := 10, cap := 2 }, { purp := .desc 3 0 0 1, len := 64 }, toLE 64 1, by decide +kernel⟩,
   ⟨{ itk [(.TIM_TALLY_TALLY,0,15)] .reading { slot := 5, n := 1, w := 10, cap := 2 } { left := 1 } with hre := { dma := [(6, { purp := .input 3 0 0 0, len := 2 })] } }, 3, 0, 6, 0, 0, { purp := .input 3 0 0 0, len := 2 }, [7, 8], by decide +kernel⟩,
   ⟨{ itk [(.TIM_TALLY_TALLY,0,15)] .reading { slot := 5, n := 1, w := 10, cap := 2 } { left := 1 } with hre := { dma := [(6, { purp := .point 3 0, len := 16 })] } }, 3, 0, 6, { slot := 5, n := 1, w := 10, cap := 2 }, { purp := .point 3 0, len := 16 }, .error, by decide +kernel, .inl rfl, by decide +kernel, by decide +kernel, by decide +kernel, by decide +kernel⟩,
   ⟨itk [(.TIM_TALLY_TALLY,0,15)] .reading { slot := 5, n := 1, w := 10, cap := 2 } { shown := 1, takes := 1, descs := [(0, toLE 8 0 ++ toLE 56 2)] }, 3, 0, { slot := 5, n := 1, w := 10, cap := 2 }, intakeReady_of (by decide +kernel), by decide +kernel, by decide +kernel, by decide +kernel, by decide +kernel, by decide +kernel⟩,
   ⟨itk [(.TIM_TALLY_TALLY,0,15)] .reading { slot := 5, n := 1, w := 10, skip := true } {}, 3, 0, { slot := 5, n := 1, w := 10, skip := true }, intakeReady_of (by decide +kernel), by decide +kernel, by decide +kernel, by decide +kernel, by decide +kernel, by decide +kernel⟩,
   ⟨itk [(.TIM_TALLY_TALLY,0,15)] .reading { slot := 5, n := 1, w := 10, cap := 2 } {}, 3, 0, { slot := 5, n := 1, w := 10, cap := 2 }, intakeReady_of (by decide +kernel), by decide +kernel⟩,
   ⟨itk [(.TIM_TALLY_TALLY,0,15)] .reading { slot := 5, n := 1, w := 10, cap := 2 } { bad := true }, 3, 0, { slot := 5, n := 1, w := 10, cap := 2 }, intakeReady_of (by decide +kernel), by decide +kernel, by decide +kernel⟩,
   ⟨st [], 3, 0, notReady_of (by decide +kernel)⟩,
   ⟨itk [(.TIM_TALLY_TALLY,0,15)] .failed { slot := 5, n := 1, w := 10, cap := 2 } {}, 3, 0, { slot := 5, n := 1, w := 10, cap := 2 }, by decide +kernel⟩,
   ⟨st [], 3, 0, .inl (by decide +kernel)⟩⟩

/-- The hypotheses of RingReads can hold. -/
theorem witness_ringReads :
   (∃ (s : State) (who r v : Nat), r < 16 ∧ r ≠ 3 ∧ fnOf who ≤ 128 ∧ s.live .RING_CFG_ENABLE (16 * fnOf who + r) = true ∧ s.locked
      .RING_CFG_ENABLE (16 * fnOf who + r) = false ∧ bit v 8 = true ∧ s.is .RING_CFG_ENABLE (16 * fnOf who + r) = false)
    ∧ (∃ (s : State) (who r v : Nat), r < 16 ∧ r ≠ 3 ∧ fnOf who ≤ 128 ∧ s.live .RING_CFG_ENABLE (16 * fnOf who + r) = true ∧ s.locked
      .RING_CFG_ENABLE (16 * fnOf who + r) = false ∧ (bit v 8 = false ∨ s.is .RING_CFG_ENABLE (16 * fnOf who + r) = true))
    ∧ (∃ (s : State) (who r : Nat), r < 16 ∧ r ≠ 3 ∧ s.live .RING_CFG_ENABLE (16 * fnOf who + r) = true ∧ s.locked .RING_CFG_ENABLE (16 *
      fnOf who + r) = true)
    ∧ (∃ (s : State) (who r : Nat), (16 ≤ r ∨ r = 3 ∨ s.live .RING_CFG_ENABLE (16 * fnOf who + r) = false))
    ∧ (∃ (s : State) (who r v : Nat), bit v 0 = true ∧ r < 16 ∧ s.domOn 72 = true ∧ s.ringOn (fnOf who) r = true)
    ∧ (∃ (s : State) (who r v : Nat), (bit v 0 = false ∨ 16 ≤ r ∨ s.domOn 72 = false ∨ s.ringOn (fnOf who) r = false))
    ∧ (∃ (s : State) (fn r : Nat), s.get .PWR_SHELF_STATE = 0 ∧ fn < 129 ∧ r < 16 ∧ s.pollDue fn r = true)
    ∧ (∃ (s : State), (s.get .PWR_SHELF_STATE ≠ 0 ∨ ∀ fn < 129, ∀ r < 16, s.pollDue fn r = false))
    ∧ (∃ (s : State) (tag fn r : Nat) (d : Dma) (w : List Byte), look? s.hre.dma tag = some d ∧ d.purp = .doorbell fn r ∧ w.length = d.len
      ∧ r < 16 ∧ fieldLE w 4 1 = s.get .RING_CFG_GEN (16 * fn + r) ∧ s.ringOn fn r = true ∧ s.idxDist fn r w ≤ s.ringN fn r ∧
      s.hre.dmaWait = [])
    ∧ (∃ (s : State) (tag fn r : Nat) (d : Dma) (w : List Byte), look? s.hre.dma tag = some d ∧ d.purp = .doorbell fn r ∧ w.length = d.len
      ∧ r < 16 ∧ fieldLE w 4 1 = s.get .RING_CFG_GEN (16 * fn + r) ∧ s.ringOn fn r = true ∧ s.ringN fn r < s.idxDist fn r w)
    ∧ (∃ (s : State) (tag fn r : Nat) (d : Dma) (w : List Byte), look? s.hre.dma tag = some d ∧ d.purp = .doorbell fn r ∧ w.length = d.len
      ∧ (fieldLE w 4 1 ≠ s.get .RING_CFG_GEN (16 * fn + r) ∨ s.ringOn fn r = false) ∧ s.hre.dmaWait = [])
    ∧ (∃ (s : State) (tag fn i n : Nat) (d : Dma) (data : List Byte), look? s.hre.dma tag = some d ∧ d.purp = .sub fn i n ∧ data.length =
      d.len ∧ s.hre.dmaWait = [])
    ∧ (∃ (s : State) (tag fn r i n : Nat) (d : Dma) (data : List Byte), look? s.hre.dma tag = some d ∧ d.purp = .bufs fn r i n ∧
      data.length = d.len ∧ s.hre.dmaWait = [] ∧ 12 ≤ r ∧ r < 16)
    ∧ (∃ (s : State) (tag fn off : Nat) (sec : Bool) (d : Dma) (j : LoadJob) (data : List Byte), look? s.hre.dma tag = some d ∧ d.purp =
      .load fn sec off ∧ data.length = d.len ∧ look? s.hre.loads fn = some j ∧ s.hre.dmaWait = [] ∧ s.linkUp = true)
    ∧ (∃ (s : State) (tag : Nat) (d : Dma) (data : List Byte), look? s.hre.dma tag = some d ∧ (d.purp = .push ∨ d.purp = .void) ∧
      data.length = d.len ∧ s.hre.dmaWait = [])
    ∧ (∃ (i : Instr) (s : State) (tag : Nat) (d : Dma), ReadFails i s tag d)
    ∧ (∃ (i : Instr) (s : State) (tag fn r : Nat) (d : Dma), ReadFails i s tag d ∧ d.purp = .doorbell fn r ∧ s.hre.dmaWait = [])
    ∧ (∃ (i : Instr) (s : State) (tag fn x n : Nat) (d : Dma), ReadFails i s tag d ∧ d.purp = .sub fn x n ∧ s.hre.dmaWait = [] ∧
      s.boot.perst = false)
    ∧ (∃ (i : Instr) (s : State) (tag fn r x n : Nat) (d : Dma), ReadFails i s tag d ∧ d.purp = .bufs fn r x n ∧ s.hre.dmaWait = [] ∧ r %
      16 ≠ 2)
    ∧ (∃ (i : Instr) (s : State) (tag fn off : Nat) (sec : Bool) (d : Dma) (j : LoadJob), ReadFails i s tag d ∧ d.purp = .load fn sec off ∧
      s.hre.dmaWait = [] ∧ look? s.hre.loads fn = some j)
    ∧ (∃ (i : Instr) (s : State) (tag : Nat) (d : Dma), ReadFails i s tag d ∧ d.purp = .push ∧ s.hre.dmaWait = [])
    ∧ (∃ (i : Instr) (s : State) (tag : Nat) (d : Dma), ReadFails i s tag d ∧ d.purp = .void ∧ s.hre.dmaWait = [])
    ∧ (∃ (s : State) (tag : Nat) (a : Nat × Nat), look? s.hre.dma tag = none ∧ look? s.hre.quar tag = some a)
    ∧ (∃ (s : State) (tag : Nat) (c : Cpl) (data : List Byte), ((look? s.hre.dma tag = none ∧ look? s.hre.quar tag = none) ∨ (c = .ok ∧ ∃
      d, look? s.hre.dma tag = some d ∧ data.length ≠ d.len)))
    ∧ (∃ (s : State) (tag : Nat), (look? s.hre.dma tag = none ∨ ∃ d, look? s.hre.dma tag = some d ∧ s.tick < d.due))
    ∧ (∃ (s : State) (tag : Nat) (a : Nat × Nat), look? s.hre.quar tag = some a ∧ a.2 ≤ s.tick)
    ∧ (∃ (s : State) (tag : Nat), (look? s.hre.quar tag = none ∨ ∃ a, look? s.hre.quar tag = some a ∧ s.tick < a.2)) :=
  ⟨⟨st [(.PWR_DOM_STAT_ON,2,0xFFFF)], 0, 15, 256, by decide +kernel⟩,
   ⟨st [(.PWR_DOM_STAT_ON,2,0xFFFF)], 128, 15, 0, by decide +kernel⟩,
   ⟨st [(.PWR_DOM_STAT_ON,2,0xFFFF), (.TIM_LAUNCH_STATE_STATE,3,3)], 4, 1, by decide +kernel⟩,
   ⟨st [(.PWR_DOM_STAT_ON,2,0xFFFF)], 0, 3, by decide +kernel⟩,
   ⟨rng 0 {} {}, 129, 0, 1, by decide +kernel⟩,
   ⟨rng 0 {} {}, 129, 0, 2, by decide +kernel⟩,
   ⟨{ rng 0 {} {} with regs := ((rng 0 {} {}).set .TIM_TICK_TICK (2 ^ 40)).regs }, 0, 0, by decide +kernel⟩,
   ⟨st [(.PWR_SHELF_STATE,0,2)], .inl (by decide +kernel)⟩,
   ⟨rdg 0 {} { purp := .doorbell 0 0, len := 16, due := 0 }, 6, 0, 0, { purp := .doorbell 0 0, len := 16, due := 0 }, toLE 16 64, by decide +kernel⟩,
   ⟨rdg 0 {} { purp := .doorbell 0 0, len := 16, due := 0 }, 6, 0, 0, { purp := .doorbell 0 0, len := 16, due := 0 }, toLE 16 65, by decide +kernel⟩,
   ⟨rdg 0 {} { purp := .doorbell 0 0, len := 16, due := 0 }, 6, 0, 0, { purp := .doorbell 0 0, len := 16, due := 0 }, toLE 16 (2 ^ 32), by decide +kernel⟩,
   ⟨rdg 0 {} { purp := .sub 0 0 1, len := 64, due := 0 }, 6, 0, 0, 1, { purp := .sub 0 0 1, len := 64, due := 0 }, lodD, by decide +kernel⟩,
   ⟨rdg 12 {} { purp := .bufs 0 12 0 1, len := 64, due := 0 }, 6, 0, 12, 0, 1, { purp := .bufs 0 12 0 1, len := 64, due := 0 }, toLE 64 0, by decide +kernel⟩,
   ⟨{ rdg 0 {} { purp := .load 0 false 0, len := 160, due := 0 } with hre := { loads := [(0, { desc := lodD, left := 1 })], dma := [(6, { purp := .load 0 false 0, len := 160, due := 0 })] } }, 6, 0, 0, false, { purp := .load 0 false 0, len := 160, due := 0 }, { desc := lodD, left := 1 }, imgB, by decide +kernel⟩,
   ⟨rdg 0 {} { purp := .push, len := 4, due := 0 }, 6, { purp := .push, len := 4, due := 0 }, toLE 4 0, by decide +kernel⟩,
   ⟨.dmaCompletion 6 .error [], rdg 0 {} { purp := .push, len := 4, due := 0 }, 6, { purp := .push, len := 4, due := 0 }, readFails_of (by decide +kernel)⟩,
   ⟨.dmaCompletion 6 .error [], rdg 0 {} { purp := .doorbell 0 0, len := 16, due := 0 }, 6, 0, 0, { purp := .doorbell 0 0, len := 16, due := 0 }, readFails_of (by decide +kernel), by decide +kernel, by decide +kernel⟩,
   ⟨.dmaCompletion 6 .error [], { rdg 0 {} { purp := .sub 0 0 1, len := 64, due := 0 } with boot := { perst := false } }, 6, 0, 0, 1, { purp := .sub 0 0 1, len := 64, due := 0 }, readFails_of (by decide +kernel), by decide +kernel, by decide +kernel, by decide +kernel⟩,
   ⟨.dmaCompletion 6 .error [], rdg 12 {} { purp := .bufs 0 12 0 1, len := 64, due := 0 }, 6, 0, 12, 0, 1, { purp := .bufs 0 12 0 1, len := 64, due := 0 }, readFails_of (by decide +kernel), by decide +kernel, by decide +kernel, by decide +kernel⟩,
   ⟨.dmaCompletion 6 .error [], { rdg 0 {} { purp := .load 0 false 0, len := 160, due := 0 } with hre := { loads := [(0, { desc := lodD, left := 1 })], dma := [(6, { purp := .load 0 false 0, len := 160, due := 0 })] } }, 6, 0, 0, false, { purp := .load 0 false 0, len := 160, due := 0 }, { desc := lodD, left := 1 }, readFails_of (by decide +kernel), by decide +kernel, by decide +kernel, by decide +kernel⟩,
   ⟨.dmaCompletion 6 .error [], rdg 0 {} { purp := .push, len := 4, due := 0 }, 6, { purp := .push, len := 4, due := 0 }, readFails_of (by decide +kernel), by decide +kernel, by decide +kernel⟩,
   ⟨.dmaCompletion 6 .error [], rdg 0 {} { purp := .void, len := 4, due := 0 }, 6, { purp := .void, len := 4, due := 0 }, readFails_of (by decide +kernel), by decide +kernel, by decide +kernel⟩,
   ⟨{ st [] with hre := { quar := [(6, 5, 9)] } }, 6, (5, 9), by decide +kernel⟩,
   ⟨st [], 6, .ok, [], .inl (by decide +kernel)⟩,
   ⟨rdg 0 {} { purp := .push, len := 4, due := 1 }, 6, .inr ⟨{ purp := .push, len := 4, due := 1 }, by decide +kernel⟩⟩,
   ⟨{ st [(.TIM_TICK_TICK,0,9)] with hre := { quar := [(6, 5, 9)] } }, 6, (5, 9), by decide +kernel⟩,
   ⟨{ st [(.TIM_TICK_TICK,0,8)] with hre := { quar := [(6, 5, 9)] } }, 6, .inr ⟨(5, 9), by decide +kernel⟩⟩⟩

/-- The hypotheses of RingWrites can hold. -/
theorem witness_ringWrites :
   (∃ (s : State) (fn r k : Nat) (f : Frame) (fs : List Frame), (s.ring fn r).frames = f :: fs ∧ r < 16 ∧ need f.bytes.length (blens
      (s.ring fn r).fetched) 0 = some k ∧ s.ringOn fn r = true ∧ (s.ring fn r).gap = none ∧ f.dropped = false ∧ k ≤ 256 ∧ k ≤ s.ringN fn r)
    ∧ (∃ (s : State) (fn r : Nat), ((s.ring fn r).frames = [] ∨ s.ringOn fn r = false ∨ (s.ring fn r).gap ≠ none ∨ ∃ f fs, (s.ring fn
      r).frames = f :: fs ∧ (need f.bytes.length (blens (s.ring fn r).fetched) 0 = none ∨ f.dropped = true ∨ ∃ k, need f.bytes.length
      (blens (s.ring fn r).fetched) 0 = some k ∧ min 256 (s.ringN fn r) < k)))
    ∧ (∃ (s : State) (fn r : Nat) (f : Frame) (fs : List Frame), (s.ring fn r).frames = f :: fs ∧ (s.ring fn r).infl = 0 ∧ ((need
      f.bytes.length (blens (s.ring fn r).fetched) 0 = none ∧ ∃ due, f.due = some due ∧ due ≤ s.tick) ∨ (need f.bytes.length (blens
      (s.ring fn r).fetched) 0 = none ∧ min 256 (s.ringN fn r) ≤ (s.ring fn r).fetched.length) ∨ ∃ k, need f.bytes.length (blens (s.ring
      fn r).fetched) 0 = some k ∧ min 256 (s.ringN fn r) < k))
    ∧ (∃ (s : State) (fn r : Nat), ((s.ring fn r).frames = [] ∨ (s.ring fn r).infl ≠ 0 ∨ ∃ f fs, (s.ring fn r).frames = f :: fs ∧ ((∃ k,
      need f.bytes.length (blens (s.ring fn r).fetched) 0 = some k ∧ k ≤ min 256 (s.ringN fn r)) ∨ (need f.bytes.length (blens (s.ring fn
      r).fetched) 0 = none ∧ (∀ due, f.due = some due → s.tick < due) ∧ (s.ring fn r).fetched.length < min 256 (s.ringN fn r)))))
    ∧ (∃ (s : State) (fn r a c : Nat) (b : List Byte) (bs : List (List Byte)), (s.ring fn r).gap = some (a, c) ∧ (s.ring fn r).fetched = b
      :: bs ∧ s.ringOn fn r = true)
    ∧ (∃ (s : State) (fn r : Nat), ((s.ring fn r).gap = none ∨ (s.ring fn r).fetched = [] ∨ s.ringOn fn r = false))
    ∧ (∃ (s : State) (fn : Nat) (c : Cplr) (r : List Cplr), s.boot.tripped = false ∧ (s.func fn).cq = c :: r ∧ s.ringOn fn 1 = true ∧
      (s.func fn).backlog = [] ∧ (s.func fn).lost = 0 ∧ c.size ≤ s.cqRoom fn)
    ∧ (∃ (s : State) (fn : Nat) (c : Cplr) (r : List Cplr), s.boot.tripped = false ∧ (s.func fn).cq = c :: r ∧ (s.ringOn fn 1 = false ∨
      (s.func fn).backlog ≠ [] ∨ 0 < (s.func fn).lost ∨ s.cqRoom fn < c.size) ∧ (s.func fn).backlog.length < 512)
    ∧ (∃ (s : State) (fn : Nat) (c : Cplr) (r : List Cplr), s.boot.tripped = false ∧ (s.func fn).cq = c :: r ∧ 512 ≤ (s.func
      fn).backlog.length)
    ∧ (∃ (s : State) (fn : Nat), (s.boot.tripped = true ∨ (s.func fn).cq = []))
    ∧ (∃ (s : State) (fn : Nat), s.ringOn fn 1 = true ∧ 0 < (s.func fn).lost ∧ 1 ≤ s.cqRoom fn)
    ∧ (∃ (s : State) (fn : Nat) (c : Cplr) (r : List Cplr), s.ringOn fn 1 = true ∧ (s.func fn).lost = 0 ∧ (s.func fn).backlog = c :: r ∧
      c.size ≤ s.cqRoom fn)
    ∧ (∃ (s : State) (fn : Nat), (s.ringOn fn 1 = false ∨ s.cqRoom fn = 0 ∨ ((s.func fn).lost = 0 ∧ (s.func fn).backlog = []))) :=
  ⟨⟨rng 12 { frames := [{ bytes := [7, 8] }], fetched := [toLE 8 0 ++ toLE 56 2] } {}, 0, 12, 1, { bytes := [7, 8] }, [], by decide +kernel⟩,
   ⟨st [], 0, 12, .inl (by decide +kernel)⟩,
   ⟨{ st [(.TIM_TICK_TICK,0,9)] with hre := { rings := [(12, { frames := [{ bytes := [7], due := some 9 }] })] } }, 0, 12, { bytes := [7], due := some 9 }, [], by decide +kernel, by decide +kernel, .inl ⟨by decide +kernel, 9, by decide +kernel⟩⟩,
   ⟨st [], 0, 12, .inl (by decide +kernel)⟩,
   ⟨rng 12 { gap := some (0, 1), fetched := [[]] } {}, 0, 12, 0, 1, [], [], by decide +kernel⟩,
   ⟨rng 12 { gap := some (0, 1) } {}, 0, 12, by decide +kernel⟩,
   ⟨rng 1 { hidx := 2 ^ 32 - 55 } { cq := [{ cont := [1] }] }, 0, { cont := [1] }, [], by decide +kernel⟩,
   ⟨rng 1 { hidx := 2 ^ 32 - 56 } { cq := [{ cont := [1] }], backlog := List.replicate 511 {} }, 0, { cont := [1] }, [], by decide +kernel⟩,
   ⟨rng 1 {} { cq := [{}], backlog := List.replicate 512 {} }, 0, {}, [], by decide +kernel⟩,
   ⟨rng 1 {} {}, 0, by decide +kernel⟩,
   ⟨rng 1 { hidx := 2 ^ 32 - 63 } { lost := 1 }, 0, by decide +kernel⟩,
   ⟨rng 1 { hidx := 2 ^ 32 - 63 } { backlog := [{}] }, 0, {}, [], by decide +kernel⟩,
   ⟨rng 1 { hidx := 2 ^ 32 - 64 } { lost := 1 }, 0, by decide +kernel⟩⟩

/-- The hypotheses of SeqEncodings can hold. -/
theorem witness_seqEncodings :
   (∃ (w : Nat), w < 2 ^ 32 ∧ bits w 26 6 = 0)
    ∧ (∃ (w : Nat), w < 2 ^ 32 ∧ bits w 26 6 ∈ [0x01, 0x02, 0x03, 0x08, 0x09, 0x0A, 0x0B, 0x0C, 0x0D, 0x0E, 0x0F, 0x10, 0x11, 0x12, 0x13,
      0x14, 0x16, 0x17, 0x18])
    ∧ (∃ (w : Nat), w < 2 ^ 32 ∧ bits w 26 6 ∈ [0x04, 0x05, 0x06])
    ∧ (∃ (w : Nat), w < 2 ^ 32 ∧ bits w 26 6 = 0x07)
    ∧ (∃ (w : Nat), w < 2 ^ 32 ∧ bits w 26 6 = 0x15)
    ∧ (∃ (w : Nat), w < 2 ^ 32 ∧ bits w 26 6 = 0x19)
    ∧ (∃ (w : Nat), w < 2 ^ 32 ∧ bits w 26 6 ∈ [0x20, 0x29])
    ∧ (∃ (w : Nat), w < 2 ^ 32 ∧ bits w 26 6 = 0x21)
    ∧ (∃ (w : Nat), w < 2 ^ 32 ∧ bits w 26 6 = 0x24)
    ∧ (∃ (w : Nat), w < 2 ^ 32 ∧ bits w 26 6 = 0x25)
    ∧ (∃ (w : Nat), w < 2 ^ 32 ∧ bits w 26 6 = 0x28)
    ∧ (∃ (w : Nat), w < 2 ^ 32 ∧ bits w 26 6 = 0x2A)
    ∧ (∃ (w : Nat), w < 2 ^ 32 ∧ bits w 26 6 = 0x3F)
    ∧ (∃ (w : Nat), w < 2 ^ 32 ∧ (bits w 26 6 ∈ [0x1A, 0x1B, 0x1C, 0x1D, 0x1E, 0x1F, 0x22, 0x23, 0x26, 0x27] ∨ 0x2B ≤ bits w 26 6) ∧ bits w
      26 6 ≠ 0x3F) :=
  ⟨⟨0x0 * 2 ^ 26 + 2 ^ 26 - 1, by decide +kernel⟩,
   ⟨0x18 * 2 ^ 26 + 2 ^ 26 - 1, by decide +kernel⟩,
   ⟨0x6 * 2 ^ 26 + 2 ^ 26 - 1, by decide +kernel⟩,
   ⟨0x7 * 2 ^ 26 + 2 ^ 26 - 1, by decide +kernel⟩,
   ⟨0x15 * 2 ^ 26 + 2 ^ 26 - 1, by decide +kernel⟩,
   ⟨0x19 * 2 ^ 26 + 2 ^ 26 - 1, by decide +kernel⟩,
   ⟨0x29 * 2 ^ 26 + 2 ^ 26 - 1, by decide +kernel⟩,
   ⟨0x21 * 2 ^ 26 + 2 ^ 26 - 1, by decide +kernel⟩,
   ⟨0x24 * 2 ^ 26 + 2 ^ 26 - 1, by decide +kernel⟩,
   ⟨0x25 * 2 ^ 26 + 2 ^ 26 - 1, by decide +kernel⟩,
   ⟨0x28 * 2 ^ 26 + 2 ^ 26 - 1, by decide +kernel⟩,
   ⟨0x2a * 2 ^ 26 + 2 ^ 26 - 1, by decide +kernel⟩,
   ⟨0x3f * 2 ^ 26 + 2 ^ 26 - 1, by decide +kernel⟩,
   ⟨0x3e * 2 ^ 26 + 2 ^ 26 - 1, by decide +kernel⟩⟩

/-- The hypotheses of SeqChecks can hold. -/
theorem witness_seqChecks :
   (∃ (s : State) (x : Nat), ∃ c ∈ (.illegalInstruction, 4096) :: seqOps, NoSem s x ∧ s.ctxRuns x = true ∧ s.get .SEQ_CTX_STATE_STATE x
      = 2 ∧ (s.pcOf x % 4 ≠ 0 ∨ s.winSize x ≤ s.pcOf x))
    ∧ (∃ (s : State) (x w : Nat) (e : Ecc), ∃ c ∈ seqOps, (e = .double ∨ e = .many) ∧ NoSem s x ∧ SeqReady s x c.2 w)
    ∧ (∃ (s : State) (x w a n : Nat) (e : Ecc), ∃ c ∈ seqOps, (e = .clean ∨ e = .single) ∧ NoSem s x ∧ SeqAt s x c.2 w ∧ (∀ j < 8, ¬
      AtBreak s x j) ∧ (s.ctx x).lock = some (a, n) ∧ (32 ≤ n ∨ lockOkKind c.2 = false))
    ∧ (∃ (s : State) (x w : Nat), ∃ c ∈ seqOps, SeqReady s x c.2 w)
    ∧ (∃ (s : State) (x : Nat), ∃ c ∈ (.illegalInstruction, 4096) :: seqOps, (s.get .SEQ_CTX_STATE_STATE x ≠ 2 ∨ s.ctxRuns x = false))
    ∧ (∃ (s : State) (x k w : Nat), ∃ c ∈ (.illegalInstruction, 4096) :: seqOps, SeqAt s x k w ∧ k ≠ c.2)
    ∧ (∃ (s : State) (x w : Nat), NoSem s x ∧ s.ctxRuns x = true ∧ s.get .SEQ_CTX_STATE_STATE x = 2 ∧ s.pcOf x % 4 = 0 ∧ s.pcOf x <
      s.winSize x ∧ ofLE (readBytes (s.ctx x).imem (s.pcOf x) 4) = w ∧ seqKind w = none ∧ (∀ j < 8, ¬ AtBreak s x j) ∧ (s.ctx x).lock =
      none)
    ∧ (∃ (s : State) (x w n : Nat), s.ctxRuns x = true ∧ s.get .SEQ_CTX_STATE_STATE x = 2 ∧ s.pcOf x % 4 = 0 ∧ s.pcOf x < s.winSize x ∧ ofLE (readBytes (s.ctx x).imem (s.pcOf x) 4) = w ∧ seqKind w = none ∧ (∀ j < 8, ¬ AtBreak s x j) ∧ (s.ctx x).lock = none ∧ n < 32 ∧ let q := s.get .SEQ_CTX_BIND_PART x
      s.getBit .SEQ_SEM_HELD n q = true ∧ look? (s.part q).semOwner n = some x ∧ (∀ y ∈ (s.part q).semWait, (s.ctx y).waitArg ≠ n))
    ∧ (∃ (s : State) (x w j : Nat), ∃ c ∈ seqOps, SeqAt s x c.2 w ∧ j < 8 ∧ AtBreak s x j)
    ∧ (∃ (s : State) (x w j h : Nat), SeqAt s x 0 w ∧ (s.ctx x).lock = none ∧ j < 8 ∧ (∀ i < 8, AtBreak s x i ↔ i = j) ∧ let q := s.get .SEQ_CTX_BIND_PART x
      let m : HaltMsg := { part := q, src := s.coord, hard := false, cause := 2, hstep := h, launch := s.get .TIM_LAUNCH_AT_AT q,
                           tcoord := s.coord }
      s.get .DBG_HALT_STATE q = 0 ∧ s.haltStep q = some h ∧ (s.part q).halt = none ∧ (s.part q).resumedAt = none)
    ∧ (∃ (s : State) (x w j : Nat), SeqAt s x 0 w ∧ (s.ctx x).lock = none ∧ j < 8 ∧ (∀ i < 8, AtBreak s x i ↔ i = j) ∧ let q := s.get .SEQ_CTX_BIND_PART x
      (s.get .DBG_HALT_STATE q ≠ 0 ∨ ∃ r, (s.part q).resumedAt = some r ∧ (s.tally + 2 ^ 56 - r) % 2 ^ 56 ≤ 64)) :=
  ⟨⟨seq (enc 0 1 2 0) [(.SEQ_CTX_STATE_PC,0,2)] {} {} [], 0, _, .head _, noSem_of (by decide +kernel), by decide +kernel, by decide +kernel, by decide +kernel⟩,
   ⟨seq (enc 0 1 2 0) [] {} {} [], 0, enc 0 1 2 0, .double, _, .head _, by decide +kernel, noSem_of (by decide +kernel), seqReady_of (by decide +kernel)⟩,
   ⟨seq (enc 0 1 2 0) [] { lock := some (5, 32) } {} [], 0, enc 0 1 2 0, 5, 32, .single, _, .head _, by decide +kernel, noSem_of (by decide +kernel), seqAt_of (by decide +kernel), by unfold AtBreak; decide +kernel, by decide +kernel, by decide +kernel⟩,
   ⟨seq (enc 0 1 2 0) [] { lock := some (5, 31) } {} [], 0, enc 0 1 2 0, _, .head _, seqReady_of (by decide +kernel)⟩,
   ⟨st [], 0, _, .head _, by decide +kernel⟩,
   ⟨seq (enc 0 1 2 0) [] {} {} [], 0, 0, enc 0 1 2 0, _, .head _, seqAt_of (by decide +kernel), by decide +kernel⟩,
   ⟨seq 63 [] {} {} [], 0, 63, noSem_of (by decide +kernel), by decide +kernel, by decide +kernel, by decide +kernel, by decide +kernel, by decide +kernel, by decide +kernel, by unfold AtBreak; decide +kernel, by decide +kernel⟩,
   ⟨seq 63 [(.SEQ_SEM_HELD,3,2 ^ 31)] {} { semOwner := [(31, 0)] } [], 0, 63, 31, by decide +kernel, by decide +kernel, by decide +kernel, by decide +kernel, by decide +kernel, by decide +kernel, by unfold AtBreak; decide +kernel, by decide +kernel, by decide +kernel, by decide +kernel, by decide +kernel, by decide +kernel⟩,
   ⟨seq (enc 0 1 2 0) [(.DBG_BP_EN,31,1)] {} {} [], 0, enc 0 1 2 0, 7, _, .head _, seqAt_of (by decide +kernel), by decide +kernel, by unfold AtBreak; decide +kernel⟩,
   ⟨seq (enc 0 1 2 0) [(.DBG_BP_EN,31,1)] {} { image := some (im { halts := [1] }) } [], 0, enc 0 1 2 0, 7, 1, seqAt_of (by decide +kernel), by decide +kernel, by decide +kernel, by unfold AtBreak; decide +kernel, by decide +kernel, by decide +kernel, by decide +kernel, by decide +kernel⟩,
   ⟨seq (enc 0 1 2 0) [(.DBG_BP_EN,31,1), (.DBG_HALT_STATE,3,1)] {} {} [], 0, enc 0 1 2 0, 7, seqAt_of (by decide +kernel), by decide +kernel, by decide +kernel, by unfold AtBreak; decide +kernel, .inl (by decide +kernel)⟩⟩

/-- The hypotheses of SeqAlu can hold. -/
theorem witness_seqAlu :
   (∃ (s : State) (x w : Nat), SeqReady s x 0x1C0 w) :=
  ⟨seq (enc 0x1C0 1 2 63) [] {} {} [], 0, enc 0x1C0 1 2 63, seqReady_of (by decide +kernel)⟩

/-- The hypotheses of SeqBranches can hold. -/
theorem witness_seqBranches :
   (∃ (s : State) (x w : Nat), ∃ c ∈ ([(.beq, 0x200, fun a b => decide (a = b)), (.bne, 0x240, fun a b => decide (a ≠ b)), (.blt, 0x280,
      fun a b => decide (a.toInt < b.toInt)), (.bge, 0x2C0, fun a b => decide (b.toInt ≤ a.toInt)), (.bltu, 0x300, fun a b => decide
      (a.toNat < b.toNat)), (.bgeu, 0x340, fun a b => decide (b.toNat ≤ a.toNat))] : List ((Nat → Ecc → Instr) × Nat × (BitVec 64 → BitVec
      64 → Bool))), SeqReady s x c.2.1 w)
    ∧ (∃ (s : State) (x w : Nat), SeqReady s x 0x380 w)
    ∧ (∃ (s : State) (x w : Nat), SeqReady s x 0x3C0 w) :=
  ⟨⟨seq (enc 0x200 1 2 0xFFFF) [] {} {} [], 0, enc 0x200 1 2 0xFFFF, _, .head _, seqReady_of (by decide +kernel)⟩,
   ⟨seq (enc 0x380 1 0 0xFFFF) [] {} {} [], 0, enc 0x380 1 0 0xFFFF, seqReady_of (by decide +kernel)⟩,
   ⟨seq (enc 0x3C0 0 2 0xFFFF) [] {} {} [], 0, enc 0x3C0 0 2 0xFFFF, seqReady_of (by decide +kernel)⟩⟩

/-- The hypotheses of SeqMemory can hold. -/
theorem witness_seqMemory :
   (∃ (s : State) (x w : Nat), SeqReady s x 0x400 w ∧ seqEa s x w % 8 = 0 ∧ seqEa s x w + 8 ≤ s.winSize x)
    ∧ (∃ (s : State) (x w : Nat), SeqReady s x 0x440 w ∧ seqEa s x w % 8 = 0 ∧ seqEa s x w + 8 ≤ s.winSize x)
    ∧ (∃ (s : State) (x w : Nat), SeqReady s x 0x480 w ∧ seqEa s x w % 8 = 0 ∧ seqEa s x w + 8 ≤ s.shrSize (s.get .SEQ_CTX_BIND_PART x))
    ∧ (∃ (s : State) (x w : Nat), SeqReady s x 0x4C0 w ∧ let q := s.get .SEQ_CTX_BIND_PART x
      let a := seqEa s x w
      a % 8 = 0 ∧ a + 8 ≤ s.shrSize q)
    ∧ (∃ (s : State) (x w : Nat), ∃ c ∈ ([(.ld, 0x400, 3), (.st, 0x440, 3), (.lds, 0x480, 5), (.sts, 0x4C0, 5), (.lkl, 0x500, 5)] : List ((Nat → Ecc → Instr) × Nat × Nat)), NoSem s x ∧ SeqReady s x c.2.1 w ∧ let size := if c.2.2 = 3 then s.winSize x else s.shrSize (s.get .SEQ_CTX_BIND_PART x)
      (seqEa s x w % 8 ≠ 0 ∨ size < seqEa s x w + 8)) :=
  ⟨⟨seq (enc 0x400 1 0 0x3FF8) [] {} {} [], 0, enc 0x400 1 0 0x3FF8, seqReady_of (by decide +kernel), by decide +kernel, by decide +kernel⟩,
   ⟨seq (enc 0x440 1 0 0x3FF8) [] {} {} [], 0, enc 0x440 1 0 0x3FF8, seqReady_of (by decide +kernel), by decide +kernel, by decide +kernel⟩,
   ⟨seq (enc 0x480 0 0 0xFF8) [] {} {} [], 0, enc 0x480 0 0 0xFF8, seqReady_of (by decide +kernel), by decide +kernel, by decide +kernel⟩,
   ⟨seq (enc 0x4C0 1 0 0xFF8) [] {} {} [], 0, enc 0x4C0 1 0 0xFF8, seqReady_of (by decide +kernel), by decide +kernel, by decide +kernel⟩,
   ⟨seq (enc 0x400 1 0 0x4000) [] {} {} [], 0, enc 0x400 1 0 0x4000, _, .head _, noSem_of (by decide +kernel), seqReady_of (by decide +kernel), by decide +kernel⟩⟩

/-- The hypotheses of SeqLocks can hold. -/
theorem witness_seqLocks :
   (∃ (s : State) (x w : Nat), SeqReady s x 0x500 w ∧ seqEa s x w % 8 = 0 ∧ seqEa s x w + 8 ≤ s.shrSize (s.get .SEQ_CTX_BIND_PART x))
    ∧ (∃ (s : State) (x w b n : Nat), SeqReady s x 0x540 w ∧ (s.ctx x).lock = some (b, n) ∧ (s.g x (bits w 16 5)).toNat = b)
    ∧ (∃ (s : State) (x w : Nat), NoSem s x ∧ SeqReady s x 0x540 w ∧ ((s.ctx x).lock = none ∨ ∃ b n, (s.ctx x).lock = some (b, n) ∧ (s.g x
      (bits w 16 5)).toNat ≠ b)) :=
  ⟨⟨seq (enc 0x500 1 0 0xFF8) [] {} {} [], 0, enc 0x500 1 0 0xFF8, seqReady_of (by decide +kernel), by decide +kernel, by decide +kernel⟩,
   ⟨seq (enc 0x540 1 2 0) [] { g := [(2, 8)], lock := some (8, 31) } {} [], 0, enc 0x540 1 2 0, 8, 31, seqReady_of (by decide +kernel), by decide +kernel, by decide +kernel⟩,
   ⟨seq (enc 0x540 1 2 0) [] { g := [(2, 9)], lock := some (8, 31) } {} [], 0, enc 0x540 1 2 0, noSem_of (by decide +kernel), seqReady_of (by decide +kernel), .inr ⟨8, 31, by decide +kernel⟩⟩⟩

/-- The hypotheses of SeqBoard can hold. -/
theorem witness_seqBoard :
   (∃ (s : State) (x w tag : Nat) (store : Bool), SeqReady s x (if store then 0x5C0 else 0x580) w ∧ let a := seqEa s x w
      let stop := 8 + x / 16
      a % 8 = 0 ∧ a < 2 ^ 52 ∧ s.freeRtag stop = some tag)
    ∧ (∃ (s : State) (x w : Nat) (store : Bool), SeqReady s x (if store then 0x5C0 else 0x580) w ∧ seqEa s x w % 8 = 0 ∧ seqEa s x w < 2 ^
      52 ∧ s.freeRtag (8 + x / 16) = none)
    ∧ (∃ (s : State) (x w : Nat) (store : Bool), NoSem s x ∧ SeqReady s x (if store then 0x5C0 else 0x580) w ∧ (seqEa s x w % 8 ≠ 0 ∨ 2 ^
      52 ≤ seqEa s x w)) :=
  ⟨⟨seq (enc 0x580 1 2 0x7FF8) [] { g := [(2, 2 ^ 52 - 2 ^ 15)] } {} [], 0, enc 0x580 1 2 0x7FF8, 0, false, seqReady_of (by decide +kernel), by decide +kernel, by decide +kernel, by decide +kernel⟩,
   ⟨{ seq (enc 0x5C0 1 0 8) [] {} {} [] with ctl := { reqs := (List.range 256).map (fun i => (256 * 8 + i, { purp := .str 0 })) } }, 0, enc 0x5C0 1 0 8, true, seqReady_of (by decide +kernel), by decide +kernel, by decide +kernel, by decide +kernel⟩,
   ⟨seq (enc 0x580 1 2 0) [] { g := [(2, 2 ^ 52)] } {} [], 0, enc 0x580 1 2 0, false, noSem_of (by decide +kernel), seqReady_of (by decide +kernel), by decide +kernel⟩⟩

/-- The hypotheses of SeqTime can hold. -/
theorem witness_seqTime :
   (∃ (s : State) (x w : Nat), SeqReady s x 0x600 w ∧ 0 < cmp32 (s.slotTally (s.get .SEQ_CTX_BIND_PART x) (seqEa s x w)) s.tally)
    ∧ (∃ (s : State) (x w n : Nat), SeqReady s x 0x600 w ∧ let q := s.get .SEQ_CTX_BIND_PART x
      cmp32 (s.slotTally q (seqEa s x w)) s.tally = -(n : Int))
    ∧ (∃ (s : State) (x n : Nat), s.ctxRuns x = true ∧ s.get .SEQ_CTX_STATE_STATE x = 3 ∧ let q := s.get .SEQ_CTX_BIND_PART x
      cmp32 (s.slotTally q (s.ctx x).waitArg) s.tally = -(n : Int))
    ∧ (∃ (s : State) (x : Nat), (s.ctxRuns x = false ∨ s.get .SEQ_CTX_STATE_STATE x ≠ 3 ∨ 0 < cmp32 (s.slotTally (s.get .SEQ_CTX_BIND_PART
      x) (s.ctx x).waitArg) s.tally))
    ∧ (∃ (s : State) (x w : Nat), SeqReady s x 0x640 w) :=
  ⟨⟨seq (enc 0x600 1 0 1) [] {} {} [], 0, enc 0x600 1 0 1, seqReady_of (by decide +kernel), by decide +kernel⟩,
   ⟨seq (enc 0x600 1 0 5) [(.TIM_TALLY_TALLY,0,7)] {} {} [], 0, enc 0x600 1 0 5, 2, seqReady_of (by decide +kernel), by decide +kernel⟩,
   ⟨seq (0) [(.SEQ_CTX_STATE_STATE,0,3), (.TIM_TALLY_TALLY,0,7)] { waitArg := 7 } {} [], 0, 0, by decide +kernel⟩,
   ⟨seq (0) [(.SEQ_CTX_STATE_STATE,0,3), (.TIM_TALLY_TALLY,0,6)] { waitArg := 7 } {} [], 0, by decide +kernel⟩,
   ⟨seq (enc 0x640 1 0 1) [] {} {} [], 0, enc 0x640 1 0 1, seqReady_of (by decide +kernel)⟩⟩

/-- The hypotheses of SeqIssue can hold. -/
theorem witness_seqIssue :
   (∃ (s : State) (x w : Nat) (b : List Byte) (i : Instr), SeqQueues s x w i b ∧ (s.ctx x).queue.length < 8 ∧ look [] s.ctl.wait (2 * (8
      + x / 16)) ≠ [] ∧ s.issuePackets x ((s.ctx x).queue.headD b) ≠ [])
    ∧ (∃ (s : State) (x w : Nat) (b : List Byte) (i : Instr), SeqQueues s x w i b ∧ (s.ctx x).queue = [] ∧ look [] s.ctl.wait (2 * (8 + x /
      16)) = [])
    ∧ (∃ (s : State) (x w : Nat) (b c : List Byte) (r : List (List Byte)) (i : Instr), SeqQueues s x w i b ∧ (s.ctx x).queue = c :: r ∧
      r.length < 7 ∧ look [] s.ctl.wait (2 * (8 + x / 16)) = [] ∧ s.issuePackets x c ≠ [])
    ∧ (∃ (s : State) (x w : Nat) (b : List Byte) (i : Instr), SeqQueues s x w i b ∧ 8 ≤ (s.ctx x).queue.length)
    ∧ (∃ (b : List Byte), b.length = 20)
    ∧ (∃ (b : List Byte), b.length = 5)
    ∧ (∃ (s : State) (x w : Nat), NoSem s x ∧ SeqReady s x 0x800 w ∧ (seqEa s x w % 4 ≠ 0 ∨ s.winSize x < seqEa s x w + 20)) :=
  ⟨⟨{ seq (enc 0x840 0 2 1) [] { g := [(2, 9)], queue := List.replicate 7 (toLE 5 0) } {} [] with ctl := { wait := [(16, [localPk 8 0 3 .ack])] } }, 0, enc 0x840 0 2 1, (toLE 4 9 ++ toLE 1 1), .switch 0 .clean, .inr ⟨rfl, seqReady_of (by decide +kernel), by decide +kernel⟩, by decide +kernel, by decide +kernel, by decide +kernel⟩,
   ⟨seq (enc 0x840 0 2 1) [] { g := [(2, 9)] } {} [], 0, enc 0x840 0 2 1, (toLE 4 9 ++ toLE 1 1), .switch 0 .clean, .inr ⟨rfl, seqReady_of (by decide +kernel), by decide +kernel⟩, by decide +kernel, by decide +kernel⟩,
   ⟨seq (enc 0x840 0 2 1) [] { g := [(2, 9)], queue := List.replicate 7 (toLE 5 0) } {} [], 0, enc 0x840 0 2 1, (toLE 4 9 ++ toLE 1 1), toLE 5 0, List.replicate 6 (toLE 5 0), .switch 0 .clean, .inr ⟨rfl, seqReady_of (by decide +kernel), by decide +kernel⟩, by decide +kernel, by decide +kernel, by decide +kernel, by decide +kernel⟩,
   ⟨seq (enc 0x840 0 2 1) [] { g := [(2, 9)], queue := List.replicate 8 (toLE 5 0) } {} [], 0, enc 0x840 0 2 1, (toLE 4 9 ++ toLE 1 1), .switch 0 .clean, .inr ⟨rfl, seqReady_of (by decide +kernel), by decide +kernel⟩, by decide +kernel⟩,
   ⟨toLE 20 0, by decide +kernel⟩,
   ⟨toLE 5 0, by decide +kernel⟩,
   ⟨seq (enc 0x800 0 0 0x3FF0) [] {} {} [], 0, enc 0x800 0 0 0x3FF0, noSem_of (by decide +kernel), seqReady_of (by decide +kernel), by decide +kernel⟩⟩

/-- The hypotheses of SeqSemaphores can hold. -/
theorem witness_seqSemaphores :
   (∃ (s : State) (x w : Nat), SeqReady s x 0x900 w ∧ let q := s.get .SEQ_CTX_BIND_PART x
      let n := bits w 0 16 % 32
      s.getBit .SEQ_SEM_HELD n q = false ∧ s.get .SEQ_SEM_HELD q < 2 ^ 32)
    ∧ (∃ (s : State) (x w : Nat), SeqReady s x 0x900 w ∧ let q := s.get .SEQ_CTX_BIND_PART x
      let n := bits w 0 16 % 32
      s.getBit .SEQ_SEM_HELD n q = true ∧ look? (s.part q).semOwner n ≠ some x ∧ bit (bits w 0 16) 5 = false)
    ∧ (∃ (s : State) (x w : Nat), SeqReady s x 0x900 w ∧ let q := s.get .SEQ_CTX_BIND_PART x
      let n := bits w 0 16 % 32
      s.getBit .SEQ_SEM_HELD n q = true ∧ look? (s.part q).semOwner n ≠ some x ∧ bit (bits w 0 16) 5 = true)
    ∧ (∃ (s : State) (x w : Nat), SeqReady s x 0x900 w ∧ let q := s.get .SEQ_CTX_BIND_PART x
      let n := bits w 0 16 % 32
      s.getBit .SEQ_SEM_HELD n q = true ∧ look? (s.part q).semOwner n = some x ∧ (∀ y ∈ (s.part q).semWait, (s.ctx y).waitArg ≠ n))
    ∧ (∃ (s : State) (x w : Nat), SeqReady s x 0x940 w ∧ let q := s.get .SEQ_CTX_BIND_PART x
      let n := bits w 0 16 % 32
      s.getBit .SEQ_SEM_HELD n q = true ∧ look? (s.part q).semOwner n = some x ∧ s.get .SEQ_SEM_HELD q < 2 ^ 32 ∧ (s.part q).semWait.filter (fun y => (s.ctx y).waitArg == n) = [])
    ∧ (∃ (s : State) (x w y : Nat) (ys : List Nat), SeqReady s x 0x940 w ∧ let q := s.get .SEQ_CTX_BIND_PART x
      let n := bits w 0 16 % 32
      s.getBit .SEQ_SEM_HELD n q = true ∧ look? (s.part q).semOwner n = some x ∧ y ≠ x ∧ (s.part q).semWait.filter (fun y => (s.ctx y).waitArg == n) = y :: ys)
    ∧ (∃ (s : State) (x w : Nat), NoSem s x ∧ SeqReady s x 0x940 w)
    ∧ (∃ (s : State) (x w : Nat), NoSem s x ∧ SeqReady s x 0xFC0 w ∧ bits w 0 16 = 0)
    ∧ (∃ (s : State) (x w n : Nat), SeqReady s x 0xFC0 w ∧ bits w 0 16 = 0 ∧ n < 32 ∧ let q := s.get .SEQ_CTX_BIND_PART x
      s.getBit .SEQ_SEM_HELD n q = true ∧ look? (s.part q).semOwner n = some x ∧ (∀ y ∈ (s.part q).semWait, (s.ctx y).waitArg ≠ n))
    ∧ (∃ (s : State) (x w : Nat), NoSem s x ∧ SeqReady s x 0xFC0 w ∧ bits w 0 16 ≠ 0) :=
  ⟨⟨seq (enc 0x900 1 0 63) [(.SEQ_SEM_HELD,3,2 ^ 31 - 1)] {} {} [], 0, enc 0x900 1 0 63, seqReady_of (by decide +kernel), by decide +kernel, by decide +kernel⟩,
   ⟨seq (enc 0x900 1 0 31) [(.SEQ_SEM_HELD,3,2 ^ 31)] {} { semOwner := [(31, 5)] } [], 0, enc 0x900 1 0 31, seqReady_of (by decide +kernel), by decide +kernel, by decide +kernel, by decide +kernel⟩,
   ⟨seq (enc 0x900 1 0 63) [(.SEQ_SEM_HELD,3,2 ^ 31)] {} { semOwner := [(31, 5)] } [], 0, enc 0x900 1 0 63, seqReady_of (by decide +kernel), by decide +kernel, by decide +kernel, by decide +kernel⟩,
   ⟨seq (enc 0x900 1 0 31) [(.SEQ_SEM_HELD,3,2 ^ 31)] {} { semOwner := [(31, 0)] } [], 0, enc 0x900 1 0 31, seqReady_of (by decide +kernel), by decide +kernel, by decide +kernel, by decide +kernel⟩,
   ⟨seq (enc 0x940 0 0 31) [(.SEQ_SEM_HELD,3,2 ^ 31)] {} { semOwner := [(31, 0)] } [], 0, enc 0x940 0 0 31, seqReady_of (by decide +kernel), by decide +kernel, by decide +kernel, by decide +kernel, by decide +kernel⟩,
   ⟨seq (enc 0x940 0 0 31) [(.SEQ_SEM_HELD,3,2 ^ 31)] {} { semOwner := [(31, 0)], semWait := [5] } [(5, { waitArg := 31 })], 0, enc 0x940 0 0 31, 5, [], seqReady_of (by decide +kernel), by decide +kernel, by decide +kernel, by decide +kernel, by decide +kernel⟩,
   ⟨seq (enc 0x940 0 0 31) [] {} {} [], 0, enc 0x940 0 0 31, noSem_of (by decide +kernel), seqReady_of (by decide +kernel)⟩,
   ⟨seq (enc 0xFC0 0 0 0) [] {} {} [], 0, enc 0xFC0 0 0 0, noSem_of (by decide +kernel), seqReady_of (by decide +kernel), by decide +kernel⟩,
   ⟨seq (enc 0xFC0 0 0 0) [(.SEQ_SEM_HELD,3,2 ^ 31)] {} { semOwner := [(31, 0)] } [], 0, enc 0xFC0 0 0 0, 31, seqReady_of (by decide +kernel), by decide +kernel, by decide +kernel, by decide +kernel, by decide +kernel, by decide +kernel⟩,
   ⟨seq (enc 0xFC0 0 0 0xFFFF) [] {} {} [], 0, enc 0xFC0 0 0 0xFFFF, noSem_of (by decide +kernel), seqReady_of (by decide +kernel), by decide +kernel⟩⟩

/-- The hypotheses of SeqIntakeEgress can hold. -/
theorem witness_seqIntakeEgress :
   (∃ (s : State) (x w : Nat), SeqReady s x 0xA00 w ∧ let q := s.get .SEQ_CTX_BIND_PART x
      let k := bits w 0 16
      k < (s.image q).img.intakes.length ∧ (look? (s.part q).intakes k = some .done ∨ look? (s.part q).intakes k = some .skipped))
    ∧ (∃ (s : State) (x w : Nat), SeqReady s x 0xA00 w ∧ let q := s.get .SEQ_CTX_BIND_PART x
      let k := bits w 0 16
      k < (s.image q).img.intakes.length ∧ look? (s.part q).intakes k ≠ some .done ∧ look? (s.part q).intakes k ≠ some .skipped)
    ∧ (∃ (s : State) (x w : Nat), NoSem s x ∧ SeqReady s x 0xA00 w ∧ (s.image (s.get .SEQ_CTX_BIND_PART x)).img.intakes.length ≤ bits w 0
      16)
    ∧ (∃ (s : State) (x w : Nat), SeqReady s x 0xA40 w ∧ let q := s.get .SEQ_CTX_BIND_PART x
      let b := readBytes (s.ctx x).dmem (seqEa s x w) 24
      let r := fieldLE b 16 1
      seqEa s x w % 8 = 0 ∧ seqEa s x w + 24 ≤ s.winSize x ∧ fieldLE b 17 7 = 0 ∧ fieldLE b 8 4 ≠ 0 ∧ r ≤ 3 ∧ s.get .PRT_HBM_BASE_BASE q * 2 ^ 21 ≤ fieldLE b 0 8 ∧ fieldLE b 0 8 + fieldLE b 8 4 ≤ (s.get .PRT_HBM_BASE_BASE q + s.get .PRT_HBM_SIZE_SIZE q) * 2 ^ 21)
    ∧ (∃ (s : State) (x w : Nat), NoSem s x ∧ SeqReady s x 0xA40 w)
    ∧ (∃ (s : State) (x : Nat) (f : Frame), (s.ctx x).egr = some f ∧ s.ctxRuns x = true ∧ (s.get .SEQ_CTX_STATE_STATE x = 7 ∨ (s.get
      .SEQ_CTX_STATE_STATE x = 11 ∧ (s.ctx x).haltSt = 7)))
    ∧ (∃ (s : State) (x : Nat), ((s.ctx x).egr = none ∨ s.ctxRuns x = false ∨ (s.get .SEQ_CTX_STATE_STATE x ≠ 7 ∧ s.get
      .SEQ_CTX_STATE_STATE x ≠ 11)))
    ∧ (∃ (s : State) (x w : Nat), SeqReady s x 0xA80 w)
    ∧ (∃ (s : State) (who x a : Nat), privileged who = true ∧ s.domOn 75 = true ∧ s.get .SEQ_MEM_SEL_CTX = x ∧ 8 * s.get .SEQ_MEM_ADDR_ADDR
      = a ∧ (s.is .SEQ_CTX_BIND_BOUND x && s.busy (s.get .SEQ_CTX_BIND_PART x)) = false ∧ a + 8 ≤ s.winSize x)
    ∧ (∃ (s : State) (who x a : Nat), privileged who = true ∧ s.domOn 75 = true ∧ s.get .SEQ_MEM_SEL_CTX = x ∧ 8 * s.get .SEQ_MEM_ADDR_ADDR
      = a ∧ (s.is .SEQ_CTX_BIND_BOUND x && s.busy (s.get .SEQ_CTX_BIND_PART x)) = false)
    ∧ (∃ (s : State) (who : Nat), privileged who = true ∧ s.domOn 75 = true ∧ (s.is .SEQ_CTX_BIND_BOUND (s.get .SEQ_MEM_SEL_CTX) && s.busy
      (s.get .SEQ_CTX_BIND_PART (s.get .SEQ_MEM_SEL_CTX))) = true)
    ∧ (∃ (s : State) (who : Nat), (privileged who = false ∨ s.domOn 75 = false)) :=
  ⟨⟨seq (enc 0xA00 1 0 1) [] {} { image := some (im { intakes := List.replicate 2 {} }), intakes := [(1, .skipped)] } [], 0, enc 0xA00 1 0 1, seqReady_of (by decide +kernel), by decide +kernel, by decide +kernel⟩,
   ⟨seq (enc 0xA00 1 0 1) [] {} { image := some (im { intakes := List.replicate 2 {} }), intakes := [(1, .reading)] } [], 0, enc 0xA00 1 0 1, seqReady_of (by decide +kernel), by decide +kernel, by decide +kernel, by decide +kernel⟩,
   ⟨seq (enc 0xA00 1 0 255) [] {} { image := some (im { intakes := List.replicate 255 {} }) } [], 0, enc 0xA00 1 0 255, noSem_of (by decide +kernel), seqReady_of (by decide +kernel), by decide +kernel⟩,
   ⟨seq (enc 0xA40 0 0 0) [(.PRT_HBM_SIZE_SIZE,3,1), (.PRT_HBM_BASE_BASE,3,512)] { dmem := writeBytes [] 0 (toLE 8 (2 ^ 30) ++ toLE 4 (2 ^ 21) ++ toLE 4 9 ++ [3]) } {} [], 0, enc 0xA40 0 0 0, seqReady_of (by decide +kernel), by decide +kernel, by decide +kernel, by decide +kernel, by decide +kernel, by decide +kernel, by decide +kernel, by decide +kernel⟩,
   ⟨seq (enc 0xA40 0 0 4) [] {} {} [], 0, enc 0xA40 0 0 4, noSem_of (by decide +kernel), seqReady_of (by decide +kernel)⟩,
   ⟨seq 0 [(.SEQ_CTX_STATE_STATE,0,11)] { egr := some {}, haltSt := 7 } {} [], 0, {}, by decide +kernel⟩,
   ⟨st [], 0, by decide +kernel⟩,
   ⟨seq (enc 0xA80 0 0 0) [] {} {} [], 0, enc 0xA80 0 0 0, seqReady_of (by decide +kernel)⟩,
   ⟨st [(.PWR_DOM_STAT_ON,2,0xFFFF), (.SEQ_MEM_ADDR_ADDR,0,2047)], 129, 0, 16376, by decide +kernel⟩,
   ⟨st [(.PWR_DOM_STAT_ON,2,0xFFFF), (.SEQ_MEM_SEL_CTX,0,127)], 0, 127, 0, by decide +kernel⟩,
   ⟨st [(.PWR_DOM_STAT_ON,2,0xFFFF), (.SEQ_CTX_BIND_BOUND,0,1), (.TIM_LAUNCH_STATE_STATE,0,3)], 0, by decide +kernel⟩,
   ⟨st [], 0, by decide +kernel⟩⟩

/-- The hypotheses of FunctionResets can hold. -/
theorem witness_functionResets :
   (∃ (s : State) (f : Nat), f < 128 ∧ s.busy f = false)
    ∧ (∃ (s : State) (f : Nat), f < 128 ∧ s.busy f = true)
    ∧ (∃ (s : State) (f : Nat), f < 128 ∧ (s.func (f + 1)).flr = false)
    ∧ (∃ (s : State) (f : Nat), f < 128 ∧ (s.func (f + 1)).flr = true ∧ s.busy f = false)
    ∧ (∃ (s : State) (f : Nat), (128 ≤ f ∨ ((s.func (f + 1)).flr = true ∧ s.busy f = true)))
    ∧ (∃ (f : Nat), f < 128)
    ∧ (∃ (f : Nat), 128 ≤ f)
    ∧ (∃ (s : State), s.boot.powered = true)
    ∧ (∃ (s : State), s.boot.powered = false) :=
  ⟨⟨st [], 127, by decide +kernel⟩,
   ⟨run 1 {} [], 3, by decide +kernel⟩,
   ⟨st [], 127, by decide +kernel⟩,
   ⟨{ st [] with hre := { funcs := [(128, { flr := true })] } }, 127, by decide +kernel⟩,
   ⟨{ run 3 {} [] with hre := { funcs := [(4, { flr := true })] } }, 3, by decide +kernel⟩,
   ⟨127, by decide +kernel⟩,
   ⟨128, by decide +kernel⟩,
   ⟨st [], by decide +kernel⟩,
   ⟨{ st [] with boot := { powered := false } }, by decide +kernel⟩⟩

/-- The hypotheses of ControlRings can hold. -/
theorem witness_controlRings :
   (∃ (s : State) (reply : Bool) (stop : Nat) (pk : Packet), s.mayEnter stop reply = some pk)
    ∧ (∃ (s : State) (reply : Bool) (stop : Nat) (pk : Packet), s.mayEnter stop reply = some pk ∧ s.inTransit reply stop (pkUrgent pk) =
      false ∧ (reply = true ∨ QuadStill s stop ((s.waiting stop reply).erase pk)))
    ∧ (∃ (s : State) (stop i : Nat) (pk : Packet) (b : List Byte) (r : List (List Byte)), s.mayEnter stop false = some pk ∧ s.inTransit
      false stop (pkUrgent pk) = false ∧ checkBytes (pkBytes pk) = 0 ∧ (s.waiting stop false).erase pk = [] ∧ 8 ≤ stop ∧ stop < 16 ∧
      QuadHeads s stop ∧ i < 16 ∧ (∀ j < i, (s.ctx (16 * (stop - 8) + j)).queue = []) ∧ (s.ctx (16 * (stop - 8) + i)).queue = b :: r)
    ∧ (∃ (s : State) (reply : Bool) (stop : Nat), s.mayEnter stop reply = none)
    ∧ (∃ (s : State) (reply : Bool) (stop : Nat) (pk : Packet), s.mayEnter stop reply = some pk ∧ s.inTransit reply stop (pkUrgent pk) =
      true)
    ∧ (∃ (s : State) (reply u : Bool) (stop : Nat) (pk : Packet), s.mayHop reply stop u = some pk)
    ∧ (∃ (s : State) (reply u : Bool) (stop : Nat) (pk : Packet), s.mayHop reply stop u = some pk ∧ (u = true ∨ s.mayHop reply stop true =
      none))
    ∧ (∃ (s : State) (reply u : Bool) (stop : Nat), (s.mayHop reply stop u = none ∨ (u = false ∧ (s.mayHop reply stop true).isSome)))
    ∧ (∃ (s : State) (reply u : Bool) (stop : Nat) (pk : Packet), (s.bufs stop reply u).find? (fun p => s.target p == stop) = some pk ∧
      checkBytes (pkBytes pk) ≠ 0)
    ∧ (∃ (s : State) (reply u : Bool) (stop : Nat) (pk : Packet), (s.bufs stop reply u).find? (fun p => s.target p == stop) = some pk ∧
      checkBytes (pkBytes pk) = 0 ∧ (reply = true ∨ (s.ejected stop reply).length < 8) ∧ NoneLeaves s ∧ (stop = 20 ∨ stop = 21 → s.leaves
      pk = true → ∃ c n p, s.exitPort pk.dcoord = some p ∧ pk.tunnel = some (c, n + 1) ∧ 8 ≤ (s.port p).txFrames.length))
    ∧ (∃ (s : State) (reply u : Bool) (stop c n p : Nat) (pk : Packet), (s.bufs stop reply u).find? (fun p => s.target p == stop) = some pk
      ∧ checkBytes (pkBytes pk) = 0 ∧ (reply = true ∨ (s.ejected stop reply).length < 8) ∧ NoneLeaves s ∧ (stop = 20 ∨ stop = 21) ∧
      s.leaves pk = true ∧ (∀ x, pk.dbg ≠ some (true, x)) ∧ s.exitPort pk.dcoord = some p ∧ pk.tunnel = some (c, n + 1) ∧ (s.port
      p).txFrames.length < 8)
    ∧ (∃ (s : State) (reply u : Bool) (stop : Nat) (pk : Packet), (s.bufs stop reply u).find? (fun p => s.target p == stop) = some pk ∧
      checkBytes (pkBytes pk) = 0 ∧ (reply = true ∨ (s.ejected stop reply).length < 8) ∧ NoneLeaves s ∧ (stop = 20 ∨ stop = 21) ∧ s.leaves
      pk = true ∧ (∀ x, pk.dbg ≠ some (true, x)) ∧ (s.exitPort pk.dcoord = none ∨ pk.tunnel = none ∨ ∃ c, pk.tunnel = some (c, 0)))
    ∧ (∃ (s : State) (u : Bool) (stop : Nat) (pk : Packet), (s.bufs stop false u).find? (fun p => s.target p == stop) = some pk ∧
      checkBytes (pkBytes pk) = 0 ∧ 8 ≤ (s.ejected stop false).length ∧ (s.bufs (nextStop false stop) false u).length < bufCap u ∧
      pk.circuits < 256 ∧ (u = true ∨ s.mayHop false stop true = none))
    ∧ (∃ (s : State) (u : Bool) (stop : Nat) (pk : Packet), (s.bufs stop false u).find? (fun p => s.target p == stop) = some pk ∧
      checkBytes (pkBytes pk) = 0 ∧ 8 ≤ (s.ejected stop false).length ∧ (bufCap u ≤ (s.bufs (nextStop false stop) false u).length ∨ 256 ≤
      pk.circuits ∨ (u = false ∧ (s.mayHop false stop true).isSome)))
    ∧ (∃ (s : State) (reply u : Bool) (stop : Nat), (∀ p ∈ s.bufs stop reply u, s.target p ≠ stop))
    ∧ (∃ (s : State) (stop : Nat) (u : Bool) (pk : Packet), (s.bufs stop false u).find? (fun p => s.target p == stop && decide (256 ≤
      p.circuits)) = some pk ∧ (u = true → ∀ p ∈ s.bufs stop false false, ¬ (s.target p = stop ∧ 256 ≤ p.circuits)))
    ∧ (∃ (s : State) (stop : Nat), (∀ u, ∀ p ∈ s.bufs stop false u, ¬ (s.target p = stop ∧ 256 ≤ p.circuits)))
    ∧ (∃ (bs : List Byte), checkBytes bs = 0)
    ∧ (∃ (bs : List Byte), checkBytes bs ≠ 0)
    ∧ (∃ (s : State) (bs : List Byte), NoneLeaves s ∧ checkBytes bs = 0)
    ∧ (∃ (s : State) (p : Nat) (f : Fragment), NoneLeaves s ∧ f.ackOnly = false ∧ f.ackv = false ∧ f.fseq = (s.port p).rxFrames % 16 ∧
      f.fidx = 0 ∧ f.last = true ∧ f.data.length = 32 ∧ checkBytes f.data ≠ 0 ∧ (s.bufs (gatewayOf p) false false).length < 4)
    ∧ (∃ (s : State) (f : Fragment), NoneLeaves s ∧ f.ackOnly = false ∧ f.ackv = false)
    ∧ (∃ (s : State) (f : Fragment), NoneLeaves s ∧ f.ackOnly = true ∧ f.ackv = true)
    ∧ (∃ (s : State) (p : Nat), 64 ≤ (s.port p).txSince ∧ (s.port p).txFrames ≠ [])
    ∧ (∃ (s : State) (p : Nat), ((s.port p).txSince < 64 ∨ (s.port p).txFrames = [])) :=
  ⟨⟨{ st [] with ctl := { wait := [(2, [rd8 5])] } }, false, 1, rd8 5, by decide +kernel⟩,
   ⟨{ st [] with ctl := { wait := [(2, [rd8 24])] } }, false, 1, rd8 24, by decide +kernel, by decide +kernel, .inr (.inl (by decide))⟩,
   ⟨{ seq 0 [] { g := [(2, 9)], queue := [toLE 4 0 ++ toLE 1 1] } {} [] with ctl := { wait := [(16, [rd8 5])] } }, 8, 0, rd8 5, (toLE 4 0 ++ toLE 1 1), [], by decide +kernel, by decide +kernel, by decide +kernel, by decide +kernel, by decide +kernel, by decide +kernel, quadHeads_of (by decide +kernel), by decide +kernel, by decide +kernel, by decide +kernel⟩,
   ⟨st [], true, 23, by decide +kernel⟩,
   ⟨{ st [] with ctl := { wait := [(2, [rd8 5])], bufs := [(0, [rd8 6])] } }, false, 1, rd8 5, by decide +kernel⟩,
   ⟨bfs 92 (rd8 0), false, false, 23, rd8 0, by decide +kernel⟩,
   ⟨bfs 92 (rd8 0), false, false, 23, rd8 0, by decide +kernel⟩,
   ⟨st [], false, true, 0, by decide +kernel⟩,
   ⟨bfs 98 (rd8 24), true, false, 24, rd8 24, by decide +kernel⟩,
   ⟨bfs 20 (rd8 5), false, false, 5, rd8 5, by decide +kernel, by decide +kernel, by decide +kernel, noneLeaves_of (by decide +kernel), fun h => absurd h (by decide)⟩,
   ⟨{ st [(.LNK_P_CONF_STATE, 4, 1), (.LNK_P_CONF_FAR, 4, 7)] with ctl := { bufs := [(80, [{ rd8 5 with remote := true, dcoord := 7, tunnel := some (9, 4) }])] } }, false, false, 20, 9, 3, 4, { rd8 5 with remote := true, dcoord := 7, tunnel := some (9, 4) }, by decide +kernel, by decide +kernel, by decide +kernel, noneLeaves_of (by decide +kernel), by decide +kernel, by decide +kernel, nofun, by decide +kernel, by decide +kernel, by decide +kernel⟩,
   ⟨bfs 80 { rd8 5 with remote := true, dcoord := 7 }, false, false, 20, { rd8 5 with remote := true, dcoord := 7 }, by decide +kernel, by decide +kernel, by decide +kernel, noneLeaves_of (by decide +kernel), by decide +kernel, by decide +kernel, nofun, .inr (.inl rfl)⟩,
   ⟨{ st [] with ctl := { bufs := [(92, [rd8 23])], ejq := [(46, List.replicate 8 {})] } }, false, 23, rd8 23, by decide +kernel⟩,
   ⟨{ st [] with ctl := { bufs := [(92, [rd8 23]), (0, List.replicate 4 {})], ejq := [(46, List.replicate 8 {})] } }, false, 23, rd8 23, by decide +kernel⟩,
   ⟨bfs 20 (rd8 6), false, false, 5, by decide +kernel⟩,
   ⟨bfs 20 { rd8 5 with circuits := 256 }, 5, false, { rd8 5 with circuits := 256 }, by decide +kernel⟩,
   ⟨bfs 20 (rd8 5), 5, by decide +kernel⟩,
   ⟨pkBytes (rd8 5), by decide +kernel⟩,
   ⟨[], by decide +kernel⟩,
   ⟨st [], pkBytes (rd8 5), noneLeaves_of (by decide +kernel), by decide +kernel⟩,
   ⟨prt 4 0 { rxFrames := 16 }, 4, { last := true, data := List.replicate 32 7 }, noneLeaves_of (by decide +kernel), by decide +kernel, by decide +kernel, by decide +kernel, by decide +kernel, by decide +kernel, by decide +kernel, by decide +kernel, by decide +kernel⟩,
   ⟨prt 4 0 { rxFrames := 16 }, { fseq := 3 }, noneLeaves_of (by decide +kernel), by decide +kernel, by decide +kernel⟩,
   ⟨prt 4 0 { txFrames := [(0, [{}])] }, { ackOnly := true, ackv := true }, noneLeaves_of (by decide +kernel), by decide +kernel, by decide +kernel⟩,
   ⟨prt 4 0 { txFrames := [(0, [{}])], txSince := 64 }, 4, by decide +kernel⟩,
   ⟨prt 4 0 { txFrames := [(0, [{}])], txSince := 63 }, 4, by decide +kernel⟩⟩

/-- The hypotheses of Requests can hold. -/
theorem witness_requests :
   (∃ (s : State) (stop a n : Nat) (pk : Packet), pk.payload = .read a n ∧ s.boardCheck stop pk a n false = .ok ∧ a < hbmEnd ∧
      s.boot.tripped = false)
    ∧ (∃ (s : State) (stop a n : Nat) (pk : Packet), pk.payload = .read a n ∧ s.boardCheck stop pk a n false = .ok ∧ hbmEnd ≤ a ∧ a <
      regBase)
    ∧ (∃ (s : State) (stop a n : Nat) (pk : Packet), pk.payload = .read a n ∧ s.boardCheck stop pk a n false = .ok ∧ regBase ≤ a ∧ hbmEnd ≤
      a)
    ∧ (∃ (s : State) (stop a n st k i : Nat) (pk : Packet), pk.payload = .read a n ∧ s.boardCheck stop pk a n false = .memErr st k i ∧
      (hbmEnd ≤ a ∨ s.boot.tripped = false))
    ∧ (∃ (s : State) (stop a : Nat) (bs : List Byte) (st k i : Nat) (pk : Packet), pk.payload = .write a bs ∧ s.boardCheck stop pk a
      bs.length true = .memErr st k i ∧ (hbmEnd ≤ a ∨ s.boot.tripped = false))
    ∧ (∃ (s : State) (stop a n : Nat) (pk : Packet), pk.payload = .read a n ∧ s.boardCheck stop pk a n false = .denied ∧ (hbmEnd ≤ a ∨
      s.boot.tripped = false))
    ∧ (∃ (s : State) (stop a : Nat) (pk : Packet) (bs : List Byte), pk.payload = .write a bs ∧ s.boardCheck stop pk a bs.length true =
      .denied ∧ (hbmEnd ≤ a ∨ s.boot.tripped = false))
    ∧ (∃ (s : State) (stop a : Nat) (pk : Packet) (bs : List Byte), pk.payload = .write a bs ∧ s.boardCheck stop pk a bs.length true = .ok
      ∧ a < hbmEnd ∧ s.boot.tripped = false)
    ∧ (∃ (s : State) (stop a : Nat) (pk : Packet) (bs : List Byte), pk.payload = .write a bs ∧ s.boardCheck stop pk a bs.length true = .ok
      ∧ hbmEnd ≤ a ∧ a < regBase)
    ∧ (∃ (s : State) (stop a : Nat) (pk : Packet) (bs : List Byte), pk.payload = .write a bs ∧ s.boardCheck stop pk a bs.length true = .ok
      ∧ hbmEnd ≤ a ∧ regBase ≤ a)
    ∧ (∃ (s : State) (i : Instr) (stop st : Nat) (pk : Packet) (b : List Byte) (r : Req), Brings i stop pk st b ∧ look? s.ctl.reqs (256 *
      stop + pk.rtag % 256) = some r)
    ∧ (∃ (s : State) (i : Instr) (stop st : Nat) (pk : Packet) (b : List Byte), Brings i stop pk st b ∧ look? s.ctl.reqs (256 * stop +
      pk.rtag % 256) = none)
    ∧ (∃ (s : State) (stop rtag : Nat) (r : Req), look? s.ctl.reqs (256 * stop + rtag) = some r ∧ r.due ≤ s.tick)
    ∧ (∃ (s : State) (stop rtag : Nat), (∀ r, look? s.ctl.reqs (256 * stop + rtag) = some r → s.tick < r.due))
    ∧ (∃ (s : State) (stop rtag t0 : Nat), look? s.ctl.retired (256 * stop + rtag) = some t0 ∧ t0 ≤ s.tick)
    ∧ (∃ (s : State) (stop rtag : Nat), (∀ t0, look? s.ctl.retired (256 * stop + rtag) = some t0 → s.tick < t0)) :=
  ⟨⟨st [], 7, hbmEnd - 8, 8, { rd8 0 with priv := true, payload := .read (hbmEnd - 8) 8 }, by decide +kernel⟩,
   ⟨{ st [] with panels := [(0, { gated := false, mem := [(1, 5)] })] }, 0, panelBase, 8, { rd8 0 with priv := true, payload := .read (panelBase) 8 }, by decide +kernel⟩,
   ⟨st [], 23, regBase + 8, 8, { rd8 0 with priv := true, payload := .read (regBase + 8) 8 }, by decide +kernel⟩,
   ⟨st [], 23, regBase + 1, 8, 7, 8, 23, { rd8 0 with priv := true, payload := .read (regBase + 1) 8 }, by decide +kernel⟩,
   ⟨st [], 23, regBase + 1, [7, 8, 9, 10], 7, 8, 23, { rd8 0 with priv := true, payload := .write (regBase + 1) [7, 8, 9, 10] }, by decide +kernel⟩,
   ⟨st [], 0, 0, 8, rd8 0, by decide +kernel⟩,
   ⟨st [], 0, 0, { rd8 0 with payload := .write 0 [7] }, [7], by decide +kernel⟩,
   ⟨st [], 0, 4, { rd8 0 with priv := true, payload := .write (4) [7, 8, 9, 10] }, [7, 8, 9, 10], by decide +kernel⟩,
   ⟨{ st [] with panels := [(0, { gated := false })] }, 0, panelBase + 0x7FFFC, { rd8 0 with priv := true, payload := .write (panelBase + 0x7FFFC) [7, 8, 9, 10] }, [7, 8, 9, 10], by decide +kernel⟩,
   ⟨st [], 23, regBase + 8, { rd8 0 with priv := true, payload := .write (regBase + 8) [7, 8, 9, 10] }, [7, 8, 9, 10], by decide +kernel⟩,
   ⟨rq (.ldr 0 31) [(.SEQ_CTX_STATE_STATE, 0, 6)], .data 8 { rxp := false, dst := 8, rtag := 5, payload := .data [7] }, 8, 0, { rxp := false, dst := 8, rtag := 5, payload := .data [7] }, [7], { purp := .ldr 0 31, due := 10 }, .inl ⟨rfl, rfl, rfl⟩, by decide +kernel⟩,
   ⟨st [], .error 8 { rxp := false, dst := 8, rtag := 5, payload := .error 255 }, 8, 255, { rxp := false, dst := 8, rtag := 5, payload := .error 255 }, [], .inr (.inr ⟨rfl, rfl, rfl⟩), by decide +kernel⟩,
   ⟨rq (.dacc false) [(.TIM_TICK_TICK, 0, 10)], 8, 5, { purp := .dacc false, due := 10 }, by decide +kernel⟩,
   ⟨rq (.dacc false) [(.TIM_TICK_TICK, 0, 9)], 8, 5, allSome (v := { purp := .dacc false, due := 10 }) (by decide +kernel) (by decide +kernel)⟩,
   ⟨{ st [] with ctl := { retired := [(2053, 0)] } }, 8, 5, 0, by decide +kernel⟩,
   ⟨{ st [] with ctl := { retired := [(2053, 1)] } }, 8, 5, allSome (v := 1) (by decide +kernel) (by decide +kernel)⟩⟩

/-- The hypotheses of FaultStops can hold. -/
theorem witness_faultStops :
   (∃ (s : State) (m : FaultMsg) (k : Nat), Stops s m.part ∧ k = (if 2 ≤ s.get .DBG_HALT_STATE m.part then s.get .DBG_HSTEP_STEP m.part
      - 1 else m.step.getD (s.curStep m.part)) ∧ Lower s m.part k)
    ∧ (∃ (s : State) (m : FaultMsg) (k : Nat), k = (if 2 ≤ s.get .DBG_HALT_STATE m.part then s.get .DBG_HSTEP_STEP m.part - 1 else
      m.step.getD (s.curStep m.part)) ∧ (¬ Stops s m.part ∨ ∃ h, (s.part m.part).stop = some h ∧ h.stopStep ≤ k))
    ∧ (∃ (s : State) (m : StopNote), Stops s m.part ∧ m.launch = s.get .TIM_LAUNCH_AT_AT m.part ∧ Lower s m.part m.stopStep)
    ∧ (∃ (s : State) (m : StopNote), (¬ Stops s m.part ∨ m.launch ≠ s.get .TIM_LAUNCH_AT_AT m.part ∨ ∃ h, (s.part m.part).stop = some h ∧
      h.stopStep ≤ m.stopStep))
    ∧ (∃ (s : State) (q : Nat) (n : StopNote), (s.part q).stop = some n ∧ s.runSt q = 3 ∧ (s.part q).haltedAt = none ∧ (2 ≤ s.get
      .DBG_HALT_STATE q ∨ s.boundary q (s.image q).steps ≤ s.curSlot q ∨ (s.slotTally q (s.curSlot q) = s.tally ∧ s.curSlot q ∈ (s.image
      q).img.grid ∧ s.boundary q (n.stopStep + 1) ≤ s.curSlot q)))
    ∧ (∃ (s : State) (q : Nat), ((s.part q).stop = none ∨ s.runSt q ≠ 3 ∨ (s.part q).haltedAt ≠ none))
    ∧ (∃ (s : State) (q : Nat) (n : StopNote), (s.part q).stop = some n ∧ s.get .DBG_HALT_STATE q < 2 ∧ s.curSlot q < s.boundary q (s.image
      q).steps ∧ (s.slotTally q (s.curSlot q) ≠ s.tally ∨ s.curSlot q ∉ (s.image q).img.grid ∨ s.curSlot q < s.boundary q (n.stopStep +
      1)))
    ∧ (∃ (s : State) (q b : Nat) (n : StopNote), (s.part q).haltedAt = some b ∧ (s.part q).stop = some n ∧ (s.part q).faulted = false ∧
      s.reached q (b + (s.image q).stopreach) = true)
    ∧ (∃ (s : State) (q : Nat), ((s.part q).haltedAt = none ∨ (s.part q).stop = none ∨ (s.part q).faulted = true ∨ ∃ b, (s.part q).haltedAt
      = some b ∧ s.reached q (b + (s.image q).stopreach) = false)) :=
  ⟨⟨run 3 {} [], { part := 3, step := some 1 }, 1, by unfold Stops; decide +kernel, by decide +kernel, allNone (by decide +kernel)⟩,
   ⟨st [], { part := 3, step := some 1 }, 1, by decide +kernel, .inl (by unfold Stops; decide +kernel)⟩,
   ⟨run 3 {} [], { part := 3, stopStep := 1 }, by unfold Stops; decide +kernel, by decide +kernel, allNone (by decide +kernel)⟩,
   ⟨run 3 {} [], { part := 3, stopStep := 1, launch := 7 }, .inr (.inl (by decide +kernel))⟩,
   ⟨{ run 3 {} [(.TIM_TALLY_TALLY, 0, 1000)] with parts := [(3, { image := some (im {}), stop := some {} })] }, 3, {}, by decide +kernel⟩,
   ⟨st [], 3, by decide +kernel⟩,
   ⟨{ run 3 {} [(.TIM_TALLY_TALLY, 0, 999)] with parts := [(3, { image := some (im {}), stop := some {} })] }, 3, {}, by decide +kernel⟩,
   ⟨{ run 4 {} [(.TIM_TALLY_TALLY, 0, 1100)] with parts := [(3, { image := some (im {}), stop := some {}, haltedAt := some 1000 })] }, 3, 1000, {}, by decide +kernel⟩,
   ⟨st [], 3, .inl (by decide +kernel)⟩⟩

/-- The hypotheses of RunEnds can hold. -/
theorem witness_runEnds :
   (∃ (s : State) (q c : Nat), s.dueCk q = some c ∧ s.runSt q = 3 ∧ (s.part q).haltedAt = none)
    ∧ (∃ (s : State) (q : Nat), (s.dueCk q = none ∨ s.runSt q ≠ 3 ∨ (s.part q).haltedAt ≠ none))
    ∧ (∃ (s : State) (q c a : Nat) (r : List (Nat × Nat)), (s.part q).ckPend = (c, a) :: r ∧ s.reached q (s.boundary q (c + 1) + (s.image
      q).stopreach) = true ∧ Lower s q c)
    ∧ (∃ (s : State) (q c a : Nat) (r : List (Nat × Nat)) (n : StopNote), (s.part q).ckPend = (c, a) :: r ∧ s.reached q (s.boundary q (c +
      1) + (s.image q).stopreach) = true ∧ (s.part q).stop = some n ∧ n.stopStep ≤ c)
    ∧ (∃ (s : State) (q : Nat), (∀ c a r, (s.part q).ckPend = (c, a) :: r → s.reached q (s.boundary q (c + 1) + (s.image q).stopreach) =
      false))
    ∧ (∃ (s : State) (q : Nat), s.runSt q = 3 ∧ (s.part q).haltedAt = none ∧ (s.part q).stop = none ∧ (s.part q).finished = false ∧
      s.reached q (s.boundary q (s.image q).steps) = true)
    ∧ (∃ (s : State) (q : Nat), (s.runSt q ≠ 3 ∨ (s.part q).finished = true ∨ (s.part q).haltedAt ≠ none ∨ (s.part q).stop ≠ none ∨
      s.reached q (s.boundary q (s.image q).steps) = false))
    ∧ (∃ (s : State) (q : Nat), (s.part q).crowned = true ∧ s.runSt q = 3 ∧ (s.part q).stop = none ∧ (s.part q).stamped = false ∧ (∀ x ∈
      (s.image q).members, ∃ r ∈ (s.part q).reports, r.member = x) ∧ s.reached q (s.boundary q (s.image q).steps + (s.image q).stopreach)
      = true)
    ∧ (∃ (s : State) (q : Nat), ((s.part q).crowned = false ∨ s.runSt q ≠ 3 ∨ (s.part q).stop ≠ none ∨ (s.part q).stamped = true ∨ (∃ x ∈
      (s.image q).members, ∀ r ∈ (s.part q).reports, r.member ≠ x) ∨ s.reached q (s.boundary q (s.image q).steps + (s.image q).stopreach)
      = false))
    ∧ (∃ (s : State) (q x : Nat), (s.image q).members.find? (fun x => !(s.part q).reports.any (fun r => r.member == x)) = some x ∧ (s.part
      q).crowned = true ∧ s.runSt q = 3 ∧ (s.part q).stop = none ∧ (s.part q).stamped = false ∧ s.reached q (s.boundary q (s.image
      q).steps + 2 * (s.image q).stopreach) = true)
    ∧ (∃ (s : State) (q : Nat), ((∀ x ∈ (s.image q).members, ∃ r ∈ (s.part q).reports, r.member = x) ∨ (s.part q).crowned = false ∨ s.runSt
      q ≠ 3 ∨ (s.part q).stop ≠ none ∨ (s.part q).stamped = true ∨ s.reached q (s.boundary q (s.image q).steps + 2 * (s.image
      q).stopreach) = false)) :=
  ⟨⟨{ run 3 {} [(.TIM_TALLY_TALLY, 0, 1000)] with parts := [(3, { image := some (im { ckSteps := [0] }), ckPend := [] })] }, 3, 0, by decide +kernel⟩,
   ⟨st [], 3, by decide +kernel⟩,
   ⟨{ run 3 {} [(.TIM_TALLY_TALLY, 0, 1100)] with parts := [(3, { image := some (im { ckSteps := [0] }), ckPend := [(0, 1)] })] }, 3, 0, 1, [], by decide +kernel, by decide +kernel, allNone (by decide +kernel)⟩,
   ⟨{ run 3 {} [(.TIM_TALLY_TALLY, 0, 1100)] with parts := [(3, { image := some (im { ckSteps := [0] }), ckPend := [(0, 1)], stop := some {} })] }, 3, 0, 1, [], {}, by decide +kernel⟩,
   ⟨{ run 3 {} [(.TIM_TALLY_TALLY, 0, 1099)] with parts := [(3, { image := some (im { ckSteps := [0] }), ckPend := [(0, 1)] })] }, 3, fun c a r e => by rw [show ({ run 3 {} [(.TIM_TALLY_TALLY, 0, 1099)] with parts := [(3, { image := some (im { ckSteps := [0] }), ckPend := [(0, 1)] })] } : State).part 3 = { image := some (im { ckSteps := [0] }), ckPend := [(0, 1)] } from by decide +kernel] at e; cases e; decide +kernel⟩,
   ⟨run 3 {} [(.TIM_TALLY_TALLY, 0, 2000)], 3, by decide +kernel⟩,
   ⟨st [], 3, by decide +kernel⟩,
   ⟨{ run 3 {} [(.TIM_TALLY_TALLY, 0, 2100)] with parts := [(3, { image := some (im {}), crowned := true, reports := (List.range 8).map (fun k => { part := 3, member := k }) })] }, 3, by decide +kernel⟩,
   ⟨st [], 3, .inl (by decide +kernel)⟩,
   ⟨{ run 3 {} [(.TIM_TALLY_TALLY, 0, 2200)] with parts := [(3, { image := some (im {}), crowned := true, reports := [{ part := 3, member := 0 }] })] }, 3, 1, by decide +kernel⟩,
   ⟨st [], 3, .inr (.inl (by decide +kernel))⟩⟩

/-- The hypotheses of AllotmentsAndPower can hold. -/
theorem witness_allotmentsAndPower :
   (∃ (s : State) (who q o : Nat), privileged who = true ∧ q < 128 ∧ o < 0x30 ∧ s.allotHeld q = true)
    ∧ (∃ (who off : Nat), (privileged who = false ∨ off < addrOf .PRT_GRAN_GRAN ∨ addrOf .PRT_GRAN_GRAN + 64 * 128 ≤ off ∨ 0x30 ≤ (off -
      addrOf .PRT_GRAN_GRAN) % 64))
    ∧ (∃ (s : State) (who q w v : Nat), privileged who = true ∧ q < 128 ∧ w < 4 ∧ s.allotHeld q = false ∧ (∀ p < 128, p ≠ q → s.get
      .PRT_GRAN_GRAN (4 * p + w) &&& (v % 2 ^ 32) = 0))
    ∧ (∃ (s : State) (who q w v p : Nat), privileged who = true ∧ q < 128 ∧ w < 4 ∧ s.allotHeld q = false ∧ p < 128 ∧ p ≠ q ∧ s.get
      .PRT_GRAN_GRAN (4 * p + w) &&& (v % 2 ^ 32) ≠ 0)
    ∧ (∃ (s : State) (who q : Nat), privileged who = true ∧ q < 128 ∧ s.allotHeld q = false)
    ∧ (∃ (s : State) (who q : Nat), privileged who = true ∧ q < 128 ∧ s.allotHeld q = false)
    ∧ (∃ (s : State) (who q : Nat), privileged who = true ∧ q < 128 ∧ s.allotHeld q = false)
    ∧ (∃ (s : State) (who q w : Nat), privileged who = true ∧ q < 128 ∧ w < 3 ∧ s.allotHeld q = false)
    ∧ (∃ (s : State) (who q : Nat), privileged who = true ∧ q < 128 ∧ s.allotHeld q = false)
    ∧ (∃ (s : State) (who q v b : Nat), privileged who = true ∧ q < 128 ∧ s.allotHeld q = false ∧ 0 < bits v 16 13 ∧ 
      let fits (b : Nat) : Prop := b + bits v 16 13 ≤ 4096 ∧ ∀ p < 128, p ≠ q → s.get .SEQ_SHR_SIZE p = 0
        ∨ b + bits v 16 13 ≤ s.get .SEQ_SHR_BASE p ∨ s.get .SEQ_SHR_BASE p + s.get .SEQ_SHR_SIZE p ≤ b
      fits b ∧ (∀ a < b, ¬ fits a))
    ∧ (∃ (s : State) (who q v : Nat), privileged who = true ∧ q < 128 ∧ s.allotHeld q = false ∧ (∀ b, b + bits v 16 13 ≤ 4096 → ∃ p < 128,
      p ≠ q ∧ s.get .SEQ_SHR_SIZE p ≠ 0 ∧ s.get .SEQ_SHR_BASE p < b + bits v 16 13 ∧ b < s.get .SEQ_SHR_BASE p + s.get .SEQ_SHR_SIZE p) ∧
      0 < bits v 16 13)
    ∧ (∃ (who q : Nat), privileged who = true ∧ q < 128)
    ∧ (∃ (who q : Nat), (privileged who = false ∨ 128 ≤ q))
    ∧ (∃ (who w : Nat), privileged who = true ∧ w < 5)
    ∧ (∃ (who w : Nat), (privileged who = false ∨ 5 ≤ w))
    ∧ (∃ (s : State) (d : Nat), d < 78 ∧ s.wantOn d = true ∧ s.domOn d = false)
    ∧ (∃ (s : State) (d : Nat), (s.wantOn d = false ∨ s.domOn d = true ∨ 78 ≤ d))
    ∧ (∃ (s : State) (who v : Nat), privileged who = true ∧ bit v 0 = true ∧ (∀ q < 128, s.allotHeld q = false) ∧ s.is .LNK_CONF_STAT_BUSY
      = false ∧ s.get .PWR_SHELF_STATE = 0)
    ∧ (∃ (s : State) (who v : Nat), privileged who = true ∧ bit v 0 = true ∧ ((∃ q < 128, s.allotHeld q = true) ∨ s.is .LNK_CONF_STAT_BUSY
      = true ∨ s.get .PWR_SHELF_STATE ≠ 0))
    ∧ (∃ (who v : Nat), privileged who = true ∧ bit v 0 = false)
    ∧ (∃ (who : Nat), privileged who = false)
    ∧ (∃ (s : State), s.get .PWR_SHELF_STATE = 1)
    ∧ (∃ (s : State), s.get .PWR_SHELF_STATE ≠ 1)
    ∧ (∃ (s : State), s.get .PWR_SHELF_STATE = 2)
    ∧ (∃ (s : State), s.get .PWR_SHELF_STATE = 1)
    ∧ (∃ (s : State), s.get .PWR_SHELF_STATE ≠ 1 ∧ s.get .PWR_SHELF_STATE ≠ 2)
    ∧ (∃ (s : State), s.get .PWR_SHELF_STATE = 3 ∧ (∀ d < 78, s.wantOn d = true → s.domOn d = true))
    ∧ (∃ (s : State), (s.get .PWR_SHELF_STATE ≠ 3 ∨ ∃ d < 78, s.wantOn d = true ∧ s.domOn d = false)) :=
  ⟨⟨run 0 {} [], 129, 3, 0x2C, by decide +kernel⟩,
   ⟨128, 0, by decide +kernel⟩,
   ⟨st [(.PRT_GRAN_GRAN, 16, 1)], 0, 127, 0, 2 ^ 32 - 2, by decide +kernel⟩,
   ⟨st [(.PRT_GRAN_GRAN, 16, 1)], 0, 127, 0, 2 ^ 32 - 1, 4, by decide +kernel⟩,
   ⟨st [(.PRT_HBM_SIZE_SIZE, 3, 1)], 0, 3, by decide +kernel⟩,
   ⟨st [], 0, 3, by decide +kernel⟩,
   ⟨st [], 0, 3, by decide +kernel⟩,
   ⟨st [], 0, 3, 2, by decide +kernel⟩,
   ⟨st [], 0, 3, by decide +kernel⟩,
   ⟨st [(.SEQ_SHR_SIZE, 4, 1)], 0, 3, 4095 * 2 ^ 16 + 15, 1, by decide +kernel⟩,
   ⟨st [(.SEQ_SHR_SIZE, 4, 4096)], 0, 3, 1 * 2 ^ 16, by decide +kernel, by decide +kernel, by decide +kernel, fun b hb => ⟨4, by decide, by decide, by decide +kernel, by rw [show (st [(.SEQ_SHR_SIZE, 4, 4096)]).get .SEQ_SHR_BASE 4 = 0 from by decide +kernel]; simp [bits], by rw [show (st [(.SEQ_SHR_SIZE, 4, 4096)]).get .SEQ_SHR_BASE 4 = 0 from by decide +kernel, show (st [(.SEQ_SHR_SIZE, 4, 4096)]).get .SEQ_SHR_SIZE 4 = 4096 from by decide +kernel]; simp [bits] at hb; omega⟩, by decide +kernel⟩,
   ⟨0, 127, by decide +kernel⟩,
   ⟨1, 127, by decide +kernel⟩,
   ⟨0, 4, by decide +kernel⟩,
   ⟨1, 4, by decide +kernel⟩,
   ⟨st [(.PWR_DOM_STAT_ON, 0, 0), (.PWR_DOM_STAT_ON, 1, 0), (.PWR_DOM_STAT_ON, 2, 0)], 77, by decide +kernel⟩,
   ⟨st [(.PWR_SHELF_STATE, 0, 2)], 0, by decide +kernel⟩,
   ⟨st [], 129, 1, by decide +kernel⟩,
   ⟨run 0 {} [], 0, 1, by decide +kernel, by decide +kernel, .inl ⟨3, by decide +kernel⟩⟩,
   ⟨129, 2, by decide +kernel⟩,
   ⟨128, by decide +kernel⟩,
   ⟨st [(.PWR_SHELF_STATE, 0, 1)], by decide +kernel⟩,
   ⟨st [], by decide +kernel⟩,
   ⟨st [(.PWR_SHELF_STATE, 0, 2)], by decide +kernel⟩,
   ⟨st [(.PWR_SHELF_STATE, 0, 1)], by decide +kernel⟩,
   ⟨st [], by decide +kernel⟩,
   ⟨st [(.PWR_SHELF_STATE, 0, 3), (.PWR_DOM_STAT_ON, 0, 2 ^ 32 - 1), (.PWR_DOM_STAT_ON, 1, 2 ^ 32 - 1), (.PWR_DOM_STAT_ON, 2, 2 ^ 14 - 1)], by decide +kernel⟩,
   ⟨st [], .inl (by decide +kernel)⟩⟩

/-- The hypotheses of Observing can hold. -/
theorem witness_observing :
   (∃ (r : Readings), r.mcDown = false)
    ∧ (∃ (r : Readings), r.mcDown = true)
    ∧ (∃ (s : State) (r mv : Nat), r ≤ 8 ∧ s.railOk r mv = true ∧ s.boot.released = true ∧ 600 ≤ s.rail r ∧ s.rail r ≤ 900)
    ∧ (∃ (s : State) (r mv : Nat), r ≤ 8 ∧ s.railOk r mv = true ∧ s.boot.released = true ∧ s.rail r < mv ∧ mv ≤ s.rail r + 50)
    ∧ (∃ (s : State) (r mv : Nat), r ≤ 8 ∧ s.railOk r mv = true ∧ s.boot.released = true ∧ s.rail r ≠ mv)
    ∧ (∃ (s : State) (r mv : Nat), (8 < r ∨ s.boot.released = false ∨ (r = 8 ∧ (mv < 700 ∨ 850 < mv)) ∨ (r < 8 ∧ (mv < 600 ∨ 900 < mv)) ∨
      (r < 8 ∧ mv < 730 ∧ ∃ q < 128, s.allotHeld q = true) ∨ s.rail r = mv))
    ∧ (∃ (s : State) (n : Nat), (s.cap n).snaps = [])
    ∧ (∃ (s : State) (n k : Nat) (clr : Bool), n < 16 ∧ (s.cap n).snaps = [(k, clr)])
    ∧ (∃ (n : Nat), n < 16)
    ∧ (∃ (i : Instr) (who n v : Nat), (i = .cuEnable who n v ∨ i = .cuSnap who n v) ∧ privileged who = true ∧ n < 16)
    ∧ (∃ (who n : Nat), (privileged who = false ∨ 16 ≤ n))
    ∧ (∃ (s : State) (q p w : Nat) (d : Dump), look? (s.panel p).dumps w = some d ∧ (s.panel p).part = some q ∧ ceilDiv d.bytes.length 256
      * 256 ≤ (s.part q).obwTok)
    ∧ (∃ (s : State) (q p w : Nat), (look? (s.panel p).dumps w = none ∨ (s.panel p).part ≠ some q ∨ ∃ d, look? (s.panel p).dumps w = some d
      ∧ (s.part q).obwTok < ceilDiv d.bytes.length 256 * 256))
    ∧ (∃ (s : State) (q : Nat), (s.part q).obwPrev + 128 ≤ s.tb.slots)
    ∧ (∃ (s : State) (q : Nat), s.tb.slots < (s.part q).obwPrev + 128)
    ∧ (∃ (s : State) (who v : Nat), privileged who = true ∧ bit v 0 = true ∧ s.domOn 77 = true ∧ (∀ d < 8, s.get .MON_DIE_TJ d < 256))
    ∧ (∃ (s : State) (who v : Nat), (bit v 0 = false ∨ privileged who = false ∨ s.domOn 77 = false))
    ∧ (∃ (s : State) (who v tag : Nat), privileged who = true ∧ bit v 0 = true ∧ s.domOn 77 = true ∧ s.is .DBG_DACC_CTRL_BUSY = false ∧
      s.freeRtag 19 = some tag)
    ∧ (∃ (s : State) (who v : Nat), (s.is .DBG_DACC_CTRL_BUSY = true ∨ bit v 0 = false ∨ privileged who = false ∨ s.domOn 77 = false ∨
      s.freeRtag 19 = none)) :=
  ⟨⟨{}, by decide +kernel⟩,
   ⟨{ mcDown := true }, by decide +kernel⟩,
   ⟨{ st [] with boot := { released := true } }, 0, 900, by decide +kernel⟩,
   ⟨{ st [] with boot := { released := true, rails := [(0, 750)] } }, 0, 800, by decide +kernel⟩,
   ⟨{ st [] with boot := { released := true } }, 8, 700, by decide +kernel⟩,
   ⟨st [], 9, 700, .inl (by decide)⟩,
   ⟨{ st [(.CU_CTRL_EN, 3, 1)] with caps := [(3, { queue := [64] })] }, 3, by decide +kernel⟩,
   ⟨{ st [] with caps := [(15, { snaps := [(0, true)], count := 2 })] }, 15, 0, true, by decide +kernel⟩,
   ⟨15, by decide +kernel⟩,
   ⟨.cuSnap 0 15 3, 0, 15, 3, .inr rfl, by decide +kernel, by decide +kernel⟩,
   ⟨1, 15, by decide +kernel⟩,
   ⟨{ st [] with panels := [(0, { part := some 3, dumps := [(2, { ring := 1, bytes := List.replicate 256 7 })] })], parts := [(3, { image := some (im { egSize := 256 }), obwTok := 256 })] }, 3, 0, 2, { ring := 1, bytes := List.replicate 256 7 }, by decide +kernel⟩,
   ⟨st [], 3, 0, 2, .inl (by decide +kernel)⟩,
   ⟨{ st [(.DBG_OBW_BYTES, 3, 256)] with tb := { slots := 128 } }, 3, by decide +kernel⟩,
   ⟨{ st [] with tb := { slots := 127 } }, 3, by decide +kernel⟩,
   ⟨st [(.PWR_DOM_STAT_ON, 2, 0xFFFF), (.MON_DIE_TJ, 7, 255)], 0, 1, by decide +kernel⟩,
   ⟨st [(.PWR_DOM_STAT_ON, 2, 0)], 0, 1, by decide +kernel⟩,
   ⟨st [(.PWR_DOM_STAT_ON, 2, 0xFFFF)], 0, 1, 0, by decide +kernel⟩,
   ⟨st [(.DBG_DACC_CTRL_BUSY, 0, 1)], 0, 1, by decide +kernel⟩⟩

/-- The hypotheses of EventLog can hold. -/
theorem witness_eventLog :
   (∃ (s : State), s.is .EVR_FREEZE_FREEZE = false)
    ∧ (∃ (s : State), s.is .EVR_FREEZE_FREEZE = true)
    ∧ (∃ (s : State) (who v : Nat), privileged who = true ∧ bit v 0 = true ∧ s.is .EVR_FREEZE_FREEZE = false)
    ∧ (∃ (s : State) (who v : Nat), privileged who = true ∧ bit v 0 = true ∧ s.is .EVR_FREEZE_FREEZE = true)
    ∧ (∃ (s : State) (who v : Nat), privileged who = true ∧ bit v 0 = false ∧ s.is .EVR_FREEZE_FREEZE = true)
    ∧ (∃ (s : State) (who v : Nat), privileged who = true ∧ bit v 0 = false ∧ s.is .EVR_FREEZE_FREEZE = false)
    ∧ (∃ (who : Nat), privileged who = false)
    ∧ (∃ (v : Nat), bit v 0 = false)
    ∧ (∃ (v : Nat), bit v 0 = true)
    ∧ (∃ (s : State), s.is .EVR_FREEZE_FREEZE = true ∧ s.evr.deadline ≤ s.tick)
    ∧ (∃ (s : State), (s.is .EVR_FREEZE_FREEZE = false ∨ s.tick < s.evr.deadline))
    ∧ (∃ (s : State) (who : Nat), who ≠ 129 ∧ s.is .EVR_FREEZE_FREEZE = false)
    ∧ (∃ (s : State) (who : Nat), who ≠ 129 ∧ s.is .EVR_FREEZE_FREEZE = true)
    ∧ (∃ (s : State) (quote t0 : Nat), s.is .EVR_FREEZE_FREEZE = false ∧ s.evr.armed = some (quote % 2 ^ 32, t0) ∧ s.tick < t0 ∧ s.get
      .EVR_WRITTEN_COUNT = quote % 2 ^ 32)
    ∧ (∃ (s : State) (quote reason : Nat), s.is .EVR_FREEZE_FREEZE = false ∧ (((∀ t0, s.evr.armed = some (quote % 2 ^ 32, t0) → t0 ≤
      s.tick) ∧ reason = 2) ∨ ((∃ t0, s.evr.armed = some (quote % 2 ^ 32, t0) ∧ s.tick < t0) ∧ s.get .EVR_WRITTEN_COUNT ≠ quote % 2 ^ 32 ∧
      reason = 3)))
    ∧ (∃ (s : State), s.is .EVR_FREEZE_FREEZE = true)
    ∧ (∃ (s : State) (quote t0 : Nat), s.evr.armed = some (quote, t0) ∧ t0 ≤ s.tick)
    ∧ (∃ (s : State), (∀ quote t0, s.evr.armed = some (quote, t0) → s.tick < t0)) :=
  ⟨⟨st [], by decide +kernel⟩,
   ⟨st [(.EVR_FREEZE_FREEZE, 0, 1)], by decide +kernel⟩,
   ⟨st [], 0, 1, by decide +kernel⟩,
   ⟨st [(.EVR_FREEZE_FREEZE, 0, 1)], 0, 1, by decide +kernel⟩,
   ⟨{ st [(.EVR_FREEZE_FREEZE, 0, 1)] with evr := { hold := [{ code := 0x5001, sev := 3 }] } }, 0, 0, by decide +kernel⟩,
   ⟨st [], 129, 0, by decide +kernel⟩,
   ⟨1, by decide +kernel⟩,
   ⟨6, by decide +kernel⟩,
   ⟨7, by decide +kernel⟩,
   ⟨{ st [(.EVR_FREEZE_FREEZE, 0, 1), (.EVR_MODE_FOLD, 0, 0), (.TIM_TICK_TICK, 0, 9)] with evr := { deadline := 9 } }, by decide +kernel⟩,
   ⟨st [], by decide +kernel⟩,
   ⟨st [], 0, by decide +kernel⟩,
   ⟨st [(.EVR_FREEZE_FREEZE, 0, 1)], 0, by decide +kernel⟩,
   ⟨{ st [(.EVR_WRITTEN_COUNT, 0, 5), (.TIM_TICK_TICK, 0, 8)] with evr := { armed := some (5, 9) } }, 5, 9, by decide +kernel⟩,
   ⟨{ st [(.EVR_WRITTEN_COUNT, 0, 4), (.TIM_TICK_TICK, 0, 8)] with evr := { armed := some (5, 9) } }, 5, 3, by decide +kernel, .inr ⟨⟨9, by decide +kernel⟩, by decide +kernel⟩⟩,
   ⟨st [(.EVR_FREEZE_FREEZE, 0, 1)], by decide +kernel⟩,
   ⟨{ st [(.TIM_TICK_TICK, 0, 9)] with evr := { armed := some (5, 9) } }, 5, 9, by decide +kernel⟩,
   ⟨{ st [(.TIM_TICK_TICK, 0, 8)] with evr := { armed := some (5, 9) } }, fun q u e => by rw [show ({ st [(.TIM_TICK_TICK, 0, 8)] with evr := { armed := some (5, 9) } } : State).evr.armed = some (5, 9) from by decide +kernel] at e; cases e; decide +kernel⟩⟩

/-- The hypotheses of Boot can hold. -/
theorem witness_boot :
   (∃ (s : State), s.boot.powered = true)
    ∧ (∃ (s : State), s.boot.powered = false)
    ∧ (∃ (s : State), s.boot.powered = true ∧ s.boot.released = false ∧ holdsReset s.boot.tapInstr = false)
    ∧ (∃ (s : State), (s.boot.powered = false ∨ s.boot.released = true ∨ holdsReset s.boot.tapInstr = true))
    ∧ (∃ (s : State), s.inStage 1 = true)
    ∧ (∃ (s : State) (a b : Bool), s.inStage 2 = true ∧ s.boot.wait = false ∧ s.get .MBX_BOOT_BOOTSEL = 0 ∧ (a = true ∨ b = true))
    ∧ (∃ (s : State), s.inStage 2 = true ∧ s.boot.wait = false ∧ s.get .MBX_BOOT_BOOTSEL = 0)
    ∧ (∃ (s : State), s.inStage 2 = true ∧ s.boot.wait = false ∧ s.get .MBX_BOOT_BOOTSEL ≠ 0)
    ∧ (∃ (s : State) (who v : Nat), privileged who = true ∧ bit v 0 = true ∧ s.waitsPush = true ∧ s.is .MBX_PUSH_CTRL_BUSY = false ∧
      s.linkUp = true)
    ∧ (∃ (s : State) (who v : Nat), privileged who = true ∧ bit v 0 = true ∧ s.waitsPush = true ∧ s.is .MBX_PUSH_CTRL_BUSY = false ∧
      s.linkUp = false ∧ 0 < s.get .MBX_PUSH_LEN_LEN)
    ∧ (∃ (s : State) (who v : Nat), privileged who = true ∧ bit v 0 = true ∧ (s.waitsPush = false ∨ s.is .MBX_PUSH_CTRL_BUSY = true))
    ∧ (∃ (who v : Nat), privileged who = true ∧ bit v 0 = false)
    ∧ (∃ (who : Nat), privileged who = false)
    ∧ (∃ (s : State), s.waitsPush = true ∧ s.is .MBX_PUSH_CTRL_BUSY = true ∧ (∀ x ∈ s.hre.dma, x.2.purp ≠ .push) ∧ (∀ x ∈ s.hre.dmaWait,
      x.1 ≠ .push))
    ∧ (∃ (s : State), (s.waitsPush = false ∨ s.is .MBX_PUSH_CTRL_BUSY = false ∨ (∃ x ∈ s.hre.dma, x.2.purp = .push) ∨ (∃ x ∈ s.hre.dmaWait,
      x.1 = .push)))
    ∧ (∃ (s : State), s.inStage 3 = true ∧ (∀ k, ¬ DieBad s k))
    ∧ (∃ (s : State) (k : Nat), s.inStage 3 = true ∧ DieBad s k ∧ (∀ j < k, ¬ DieBad s j))
    ∧ (∃ (s : State), s.inStage 4 = true)
    ∧ (∃ (s : State), s.inStage 5 = true)
    ∧ (∃ (s : State), s.inStage 6 = true)
    ∧ (∃ (s : State) (who v : Nat), privileged who = true ∧ bit v 0 = true ∧ s.get .MBX_BOOT_STAGE = 7 ∧ s.is .LNK_COORD_RACKSET = true)
    ∧ (∃ (s : State) (who v : Nat), privileged who = true ∧ bit v 0 = true ∧ (s.get .MBX_BOOT_STAGE ≠ 7 ∨ s.is .LNK_COORD_RACKSET = false))
    ∧ (∃ (who v : Nat), privileged who = true ∧ bit v 0 = false) :=
  ⟨⟨st [], by decide +kernel⟩,
   ⟨{ st [] with boot := { powered := false } }, by decide +kernel⟩,
   ⟨st [], by decide +kernel⟩,
   ⟨{ st [] with boot := { tapInstr := 6 } }, by decide +kernel⟩,
   ⟨bt 1 [] {}, by decide +kernel⟩,
   ⟨bt 2 [] {}, false, true, by decide +kernel⟩,
   ⟨bt 2 [] {}, by decide +kernel⟩,
   ⟨bt 2 [(.MBX_BOOT_BOOTSEL, 0, 3)] {}, by decide +kernel⟩,
   ⟨bt 2 [(.PCX_LINK_RATE, 0, 5)] { wait := true }, 0, 1, by decide +kernel⟩,
   ⟨bt 2 [(.PCX_LINK_RATE, 0, 0), (.MBX_PUSH_LEN_LEN, 0, 32)] { wait := true }, 0, 1, by decide +kernel⟩,
   ⟨bt 2 [(.MBX_PUSH_CTRL_BUSY, 0, 1)] { wait := true }, 0, 1, by decide +kernel⟩,
   ⟨129, 4, by decide +kernel⟩,
   ⟨1, by decide +kernel⟩,
   ⟨{ bt 2 [(.MBX_PUSH_CTRL_BUSY, 0, 1)] { wait := true } with hre := { dma := [(6, { purp := .sub 0 0 1 })] } }, by decide +kernel⟩,
   ⟨bt 2 [] {}, .inl (by decide +kernel)⟩,
   ⟨bt 3 [] {}, by decide +kernel, fun k => by rintro ⟨hk, h⟩; revert h; revert k; unfold State.fusePos; decide +kernel⟩,
   ⟨bt 3 [] { fusePos := [(7, 8)] }, 7, by decide +kernel, ⟨by decide, .inr ⟨8, by decide +kernel⟩⟩, fun j hj h => by obtain ⟨_, h⟩ := h; revert h; revert j; unfold State.fusePos; decide +kernel⟩,
   ⟨bt 4 [] {}, by decide +kernel⟩,
   ⟨bt 5 [] {}, by decide +kernel⟩,
   ⟨bt 6 [] {}, by decide +kernel⟩,
   ⟨bt 7 [(.LNK_COORD_RACKSET, 0, 1)] {}, 129, 1, by decide +kernel⟩,
   ⟨bt 7 [] {}, 0, 1, by decide +kernel⟩,
   ⟨129, 2, by decide +kernel⟩⟩

/-- The hypotheses of Package can hold. -/
theorem witness_package :
   (∃ (s : State), s.boot.released = true)
    ∧ (∃ (s : State), s.boot.released = false)
    ∧ (∃ (s : State) (bs : List Byte), s.waitsPush = true ∧ bs.length = 36 ∧ fieldLE bs 0 4 % 32 = 0)
    ∧ (∃ (s : State) (bs : List Byte), (s.waitsPush = false ∨ bs.length ≠ 36 ∨ fieldLE bs 0 4 % 32 ≠ 0))
    ∧ (∃ (s : State) (n : Nat), s.waitsPush = true ∧ s.is .MBX_PUSH_CTRL_BUSY = false ∧ n < 256)
    ∧ (∃ (s : State) (n : Nat), (s.waitsPush = false ∨ s.is .MBX_PUSH_CTRL_BUSY = true ∨ 256 ≤ n))
    ∧ (∃ (s : State), s.boot.released = true ∧ (∀ q < 128, s.allotHeld q = false) ∧ s.is .LNK_CONF_STAT_BUSY = false ∧ s.get
      .PWR_SHELF_STATE = 0)
    ∧ (∃ (s : State), s.boot.released = true ∧ ((∃ q < 128, s.allotHeld q = true) ∨ s.is .LNK_CONF_STAT_BUSY = true ∨ s.get
      .PWR_SHELF_STATE ≠ 0))
    ∧ (∃ (s : State), s.boot.released = true ∧ s.get .PWR_SHELF_STATE = 2)
    ∧ (∃ (s : State), s.boot.released = true ∧ s.get .PWR_SHELF_STATE = 1)
    ∧ (∃ (s : State) (code : Nat), (s.boot.released = false ∨ (code ≠ 1 ∧ code ≠ 2) ∨ (code = 2 ∧ s.get .PWR_SHELF_STATE ≠ 1 ∧ s.get
      .PWR_SHELF_STATE ≠ 2)))
    ∧ (∃ (s : State) (die : Nat), s.boot.powered = true ∧ s.boot.tripped = false ∧ die ≤ 8)
    ∧ (∃ (s : State) (die : Nat), (s.boot.powered = false ∨ s.boot.tripped = true ∨ 8 < die))
    ∧ (∃ (s : State), s.boot.released = true)
    ∧ (∃ (s : State), s.boot.released = false)
    ∧ (∃ (s : State) (v : Nat), s.is .MBX_BOOT_TEST = true ∧ v % 16 ≤ 8)
    ∧ (∃ (s : State) (v : Nat), s.is .MBX_BOOT_TEST = true ∧ 9 ≤ v % 16)
    ∧ (∃ (s : State) (v : Nat), s.is .MBX_BOOT_TEST = true ∧ bits v 5 3 < 4 ∧ dieHas s.boot.tapDie (bits v 0 5) = true)
    ∧ (∃ (s : State) (v : Nat), s.is .MBX_BOOT_TEST = true ∧ bits v 5 3 < 4 ∧ dieHas s.boot.tapDie (bits v 0 5) = false)
    ∧ (∃ (s : State) (v : Nat), s.is .MBX_BOOT_TEST = true ∧ 4 ≤ bits v 5 3)
    ∧ (∃ (s : State), s.is .MBX_BOOT_TEST = true)
    ∧ (∃ (s : State) (tag : Nat), s.tapBusy = false ∧ s.boot.released = true ∧ s.freeRtag 19 = some tag)
    ∧ (∃ (s : State), (s.tapBusy = true ∨ s.boot.released = false ∨ s.freeRtag 19 = none)) :=
  ⟨⟨bt 9 [] {}, by decide +kernel⟩,
   ⟨st [], by decide +kernel⟩,
   ⟨bt 2 [] { wait := true }, toLE 4 (2 ^ 20 - 32) ++ List.replicate 32 7, by decide +kernel⟩,
   ⟨st [], [], by decide +kernel⟩,
   ⟨bt 2 [] { wait := true }, 255, by decide +kernel⟩,
   ⟨st [], 0, by decide +kernel⟩,
   ⟨bt 9 [] {}, by decide +kernel⟩,
   ⟨bt 9 [(.PWR_SHELF_STATE, 0, 1)] {}, by decide +kernel, .inr (.inr (by decide +kernel))⟩,
   ⟨bt 9 [(.PWR_SHELF_STATE, 0, 2)] {}, by decide +kernel⟩,
   ⟨bt 9 [(.PWR_SHELF_STATE, 0, 1)] {}, by decide +kernel⟩,
   ⟨st [], 1, by decide +kernel⟩,
   ⟨bt 9 [] {}, 8, by decide +kernel⟩,
   ⟨st [], 9, by decide +kernel⟩,
   ⟨bt 9 [] {}, by decide +kernel⟩,
   ⟨st [], by decide +kernel⟩,
   ⟨st [(.MBX_BOOT_TEST, 0, 1)], 8, by decide +kernel⟩,
   ⟨st [(.MBX_BOOT_TEST, 0, 1)], 9, by decide +kernel⟩,
   ⟨st [(.MBX_BOOT_TEST, 0, 1)], 21 + 3 * 32, by decide +kernel⟩,
   ⟨st [(.MBX_BOOT_TEST, 0, 1)], 31, by decide +kernel⟩,
   ⟨st [(.MBX_BOOT_TEST, 0, 1)], 128, by decide +kernel⟩,
   ⟨st [(.MBX_BOOT_TEST, 0, 1)], by decide +kernel⟩,
   ⟨bt 9 [] {}, 0, by decide +kernel⟩,
   ⟨st [], by decide +kernel⟩⟩

/-- The hypotheses of ResetKinds can hold. -/
theorem witness_resetKinds :
   (∃ (s : State), s.boot.powered = true) :=
  ⟨st [], by decide +kernel⟩

/-- The hypotheses of StepFront can hold. -/
theorem witness_stepFront :
   (∃ (s : State) (c : Instr) (rest : List Instr), s.pending = c :: rest)
    ∧ (∃ (s : State), s.pending = []) :=
  ⟨⟨{ st [] with pending := [.trefLost] }, .trefLost, [], by decide +kernel⟩,
   ⟨st [], by decide +kernel⟩⟩



/-- The hypotheses of InvStep can hold. -/
theorem witness_invStep :
   (∃ (s t : State), Inv s ∧ step s = .next t) :=
  ⟨st [], (st []).passSlot, ⟨by decide +kernel, by decide +kernel, by decide +kernel, by decide +kernel⟩, by unfold step; rfl⟩

/-- The hypotheses of PacketCodec can hold. -/
theorem witness_packetCodec :
   (∃ (own : Nat) (p : Packet), pkOk own p) :=
  ⟨0, rd8 5, ⟨by decide, by decide, by decide, by decide, rfl, fun _ => ⟨rfl, rfl⟩, nofun, nofun, nofun, show 0 < 2 ^ 48 ∧ 1 ≤ 8 ∧ 8 ≤ 1024 by decide⟩⟩
/-- What Answers supposes can hold. -/
theorem witness_answers :
   (∃ (c : Instr) (s : State) (e : Fault), exec c s = .fault e)
    ∧ (∃ (c : Instr) (s t : State), exec c s = .next t) :=
  ⟨⟨.diesel 9, st [(.MBX_BOOT_TEST, 0, 1)], .reservedOperand 9, rfl⟩,
   ⟨.nop 0, st [], st [], rfl⟩⟩

/-- A word of each kind that SeqAlu speaks of. -/
def aluWords : List (Nat × Nat) :=
  ((List.range 11).map (fun k => (k, enc k 1 2 (3 * 2 ^ 11))))
    ++ [0x40, 0x80, 0xC0, 0x100, 0x140, 0x180, 0x1C0].map (fun k => (k, enc k 1 2 63))

/-- The hypothesis of SeqAlu can hold for each of its instructions. -/
theorem witness_seqAluWords : ∀ e ∈ aluWords, SeqReady (seq e.2 [] {} {} []) 0 e.1 e.2 := fun e h =>
  seqReady_of ((by decide +kernel : ∀ e ∈ aluWords, readyB (seq e.2 [] {} {} []) 0 e.1 e.2 = true) e h)


end Sys2Proof.Tests
end

section
/-! Writes of registers whose word has no effect of its own, and the refutation of RegisterWrites. -/
namespace Sys2Proof.Machine

/-- Hardware's set of W1C bits is a fold over the elements of the word. -/
theorem State.hwSet_eq (s : State) (who off evs : Nat) :
    s.hwSet who off evs = (hitsAt off (fnOf who)).foldl (fun s x => setElem s x.1 x.2 evs) s := by
  unfold State.hwSet hitsAt
  rw [List.foldl_flatMap]
  congr 1
  funext s f
  split
  · rfl
  · rw [List.foldl_map]

/-- A W1C element of which hardware sets no bit is written back all the same, and so cut to its field's width. -/
theorem setElem_zero (s : State) {f : Fld} {i h : Nat} (hacc : f.info.acc = .W1C) (hcov : covers f i h = true) :
    setElem s f (i, h) 0 = s.set f (s.get f i) i := by
  simp [setElem, hacc, hcov, mergeWord]

/-- An element that the requester may not write is left as it is. -/
theorem writeElem_of_not_mayWrite {who : Nat} {s : State} {f : Fld} {ih : Nat × Nat} (w : Nat)
    (h : s.mayWrite who f ih.1 = false) : writeElem who s f ih w = s := by
  simp [writeElem, h]

/-- Which registers `writeOps` names does not depend on the write. -/
theorem writeOps_fst (who off v : Nat) : (writeOps who off v).map Prod.fst = (writeOps 0 off 0).map Prod.fst := by
  simp only [writeOps, List.map_cons, List.map_nil]

/-- A write of a register without an effect of its own only applies the access codes of its fields. -/
theorem State.writeReg_of_plainOff (s : State) (who v : Nat) {off : Nat} (h : plainOff off = true) :
    s.writeReg who off v = writeWord who s off v := by
  simp only [plainOff, Bool.and_eq_true, Bool.not_eq_true', Bool.and_eq_false_imp, decide_eq_true_eq, decide_eq_false_iff_not,
    bne_iff_ne, ne_eq] at h
  obtain ⟨⟨⟨⟨hmsix, hgran⟩, hevt⟩, hmem⟩, hops⟩ := h
  have hnone : (writeOps who off v).findSome? (fun h => (idxAt h.1 off).map (h.2 s)) = none := by
    rw [List.findSome?_eq_none_iff]
    intro e he
    have hfst : e.1 ∈ (writeOps 0 off 0).map Prod.fst := writeOps_fst who off v ▸ List.mem_map_of_mem he
    obtain ⟨e', he', hee⟩ := List.mem_map.1 hfst
    rw [← hee, Option.isNone_iff_eq_none.1 (List.all_eq_true.1 hops e' he'), Option.map_none]
  rw [State.writeReg, if_neg (fun hc => hmsix hc.1 hc.2), if_neg (fun hc => hgran ⟨hc.1, hc.2.1⟩ hc.2.2), if_neg hevt,
    if_neg hmem, hnone]

/-- A 4-byte REGISTER_WRITE of a register without an effect of its own. -/
theorem exec_registerWrite_of_plainOff (s : State) (who v evs : Nat) {off : Nat} (ho : off % 4 = 0) (h : plainOff off = true) :
    exec (.registerWrite who off 4 v evs) s = .next ((writeWord who s off (v % 2 ^ 32)).hwSet who off (evs % 2 ^ 32)) := by
  have hgood : badAccess off 4 = false := by simp [badAccess, ho]
  simp [exec, execRegisterWrite, State.writeBar0, hgood, s.writeReg_of_plainOff who _ h]

set_option maxRecDepth 20000 in
theorem hits_PWR_DOM_ERR_OVERRIDDEN (fn : Nat) :
    hitsAt (addrOf .PWR_DOM_ERR_OVERRIDDEN) fn = [(.PWR_DOM_ERR_OVERRIDDEN, 0, 0)] := by rfl

theorem plainOff_PWR_DOM_ERR : plainOff (addrOf .PWR_DOM_ERR_OVERRIDDEN) = true := by decide +kernel

/-- PWR_DOM_ERR stands in no virtual function's view (R386). -/
theorem State.mayWrite_PWR_DOM_ERR_OVERRIDDEN_vf (s : State) : s.mayWrite 1 .PWR_DOM_ERR_OVERRIDDEN 0 = false := rfl

/-- A virtual function's write of PWR_DOM_ERR, which it may not write, still writes OVERRIDDEN back. -/
theorem exec_registerWrite_PWR_DOM_ERR_vf (s : State) (v : Nat) :
    exec (.registerWrite 1 (addrOf .PWR_DOM_ERR_OVERRIDDEN) 4 v 0) s =
      .next (s.set .PWR_DOM_ERR_OVERRIDDEN (s.get .PWR_DOM_ERR_OVERRIDDEN)) := by
  rw [exec_registerWrite_of_plainOff s 1 v 0 (by decide) plainOff_PWR_DOM_ERR, writeWord_eq, State.hwSet_eq,
    hits_PWR_DOM_ERR_OVERRIDDEN]
  simp only [List.foldl_cons, List.foldl_nil, Nat.zero_mod]
  rw [writeElem_of_not_mayWrite _ s.mayWrite_PWR_DOM_ERR_OVERRIDDEN_vf, setElem_zero s rfl (by decide)]

/-- A state outside `Inv`: the one-bit field PWR_DOM_ERR.OVERRIDDEN holds 2. -/
def wideOverridden : State := { regs := [(Fld.key .PWR_DOM_ERR_OVERRIDDEN 0, 2)] }

/-- Refutes O6: the statement speaks of every state, also of one outside `Inv` whose W1C field holds more than its width. Hardware's
set of W1C bits writes such a field back cut to its width even where it sets no bit, so a write by a function that may not
write the field changes it. -/
theorem not_registerWrites : ¬ Obligations.RegisterWrites := by
  unfold Obligations.RegisterWrites
  rintro ⟨hword, -⟩
  obtain ⟨t, ht, -, hframe, -⟩ :=
    hword wideOverridden 1 (addrOf .PWR_DOM_ERR_OVERRIDDEN) 0 0 (by decide) (by decide) (by decide) plainOff_PWR_DOM_ERR
  rw [exec_registerWrite_PWR_DOM_ERR_vf] at ht
  obtain rfl := Host.Outcome.next.inj ht
  have hwas : wideOverridden.get .PWR_DOM_ERR_OVERRIDDEN = 2 := by decide
  obtain ⟨hmay, -⟩ := hframe rfl .PWR_DOM_ERR_OVERRIDDEN 0 (by rw [State.get_set_same, hwas]; decide)
  simp [State.mayWrite_PWR_DOM_ERR_OVERRIDDEN_vf] at hmay

end Sys2Proof.Machine
end

section
/-! Which reset kind resets which register fields (R722, R723): what registers read after a part of the register file is dropped, after
events alone, and after each reset. -/
namespace Sys2Proof.Machine

/-- `Fld.all` lists the fields in the order of their constructors. -/
theorem Fld.all_map_ctorIdx : Fld.all.map Fld.ctorIdx = List.range 362 := by decide +kernel

theorem Fld.ctorIdx_lt_length (f : Fld) : f.ctorIdx < 362 := by cases f <;> decide

/-- No field is missing in `Fld.all`. -/
theorem Fld.mem_all (f : Fld) : f ∈ Fld.all := by
  have hidx : f.ctorIdx ∈ Fld.all.map Fld.ctorIdx := Fld.all_map_ctorIdx ▸ List.mem_range.2 f.ctorIdx_lt_length
  obtain ⟨g, hg, hgf⟩ := List.mem_map.1 hidx
  exact ctorIdx_inj hgf ▸ hg

@[simp] theorem Fld.key_mod (f : Fld) (i : Nat) : f.key i % 512 = f.ctorIdx := by
  have := ctorIdx_lt f
  unfold Fld.key
  omega

/-- A lookup in a map that keeps the entries whose key satisfies `p`. -/
theorem look_filter_key {α : Type} (d : α) (m : SMap α) (p : Nat → Bool) (k : Nat) :
    look d (m.filter (fun e => p e.1)) k = if p k then look d m k else d := by
  induction m with
  | nil => simp [look]
  | cons e r ih =>
    obtain ⟨k', v⟩ := e
    by_cases hk : k' = k
    · subst hk
      cases hp : p k' <;> simp [look, hp, ih]
    · cases hp : p k' <;> simp [look, hp, hk, ih]

/-- What a field reads depends on the register file alone. -/
theorem State.get_congr_regs {s t : State} (h : t.regs = s.regs) (f : Fld) (i : Nat) : t.get f i = s.get f i := by
  rw [State.get, State.get, h]

/-- A field is reset when it is among the chosen ones, and left as it is otherwise. -/
theorem State.get_resetFields (s : State) (p : Fld → Bool) (f : Fld) (i : Nat) :
    (s.resetFields p).get f i = if p f then f.info.reset else s.get f i := by
  have hmem : f.ctorIdx ∈ (Fld.all.filter p).map Fld.ctorIdx ↔ p f = true := by
    constructor
    · intro h
      obtain ⟨g, hg, hgf⟩ := List.mem_map.1 h
      exact ctorIdx_inj hgf ▸ (List.mem_filter.1 hg).2
    · exact fun h => List.mem_map_of_mem (List.mem_filter.2 ⟨f.mem_all, h⟩)
  have hlook := look_filter_key f.info.reset s.regs
    (fun k => !decide (k % 512 ∈ (Fld.all.filter p).map Fld.ctorIdx)) (f.key i)
  refine hlook.trans ?_
  rw [Fld.key_mod]
  by_cases hp : p f = true
  · simp [hmem.2 hp, hp]
  · simp [mt hmem.1 hp, hp, State.get]

/-! Events and the stop of a function reset: only `evFlds` change. -/

theorem State.get_logPut_of_notMem_evFlds (s : State) (r : Rec) {g : Fld} (j : Nat) (h : g ∉ evFlds) :
    (s.logPut r).get g j = s.get g j := by
  simp only [evFlds, List.mem_cons, not_or] at h
  obtain ⟨hnext, hwritten, hovf, hdrop, -⟩ := h
  simp only [State.logPut]
  repeat' split
  · rw [State.get_set_ne _ _ _ _ (.inl (Ne.symm hwritten)), State.get_set_ne _ _ _ _ (.inl (Ne.symm hnext))]; rfl
  · rw [State.get_set_ne _ _ _ _ (.inl (Ne.symm hwritten))]; rfl
  · exact State.get_inc_ne s _ _ _ (.inl (Ne.symm hovf))
  · exact State.get_inc_ne s _ _ _ (.inl (Ne.symm hdrop))

theorem State.get_enter_of_notMem_evFlds (s : State) (r : Rec) {g : Fld} (j : Nat) (h : g ∉ evFlds) :
    (s.enter r).get g j = s.get g j := by
  simp only [State.enter]
  split
  · rfl
  · exact s.get_logPut_of_notMem_evFlds _ j h

/-- An event changes no register outside `evFlds`. -/
theorem State.get_raiseEv_of_notMem_evFlds (s : State) (e : Ev) {g : Fld} (j : Nat) (h : g ∉ evFlds) :
    (s.raiseEv e).get g j = s.get g j := by
  have hne := h
  simp only [evFlds, List.mem_cons, not_or] at hne
  obtain ⟨-, -, hovf, -, hfrz, hdidx, -⟩ := hne
  simp only [State.raiseEv]
  repeat' split
  · exact State.get_offer s _ g j hdidx
  · rw [State.get_inc_ne _ _ _ _ (.inl (Ne.symm hovf)), State.get_offer _ _ _ _ hdidx]
  · rw [State.get_inc_ne _ _ _ _ (.inl (Ne.symm hfrz)), State.get_offer _ _ _ _ hdidx]
  · exact s.get_enter_of_notMem_evFlds _ j h
  · rw [State.get_offer _ _ _ _ hdidx, s.get_enter_of_notMem_evFlds _ j h]

theorem State.get_hreFault_of_notMem_evFlds (s : State) (q fn code : Nat) (step : Option Nat) (d : Nat) {g : Fld} (j : Nat)
    (h : g ∉ evFlds) : (s.hreFault q fn code step d).get g j = s.get g j := by
  rw [State.hreFault, State.raiseFault_eq]
  exact s.get_raiseEv_of_notMem_evFlds _ j h

/-- The stop of a partition at a reset changes registers only through the event of a running one (R725). -/
theorem State.get_resetStop_of_notMem_evFlds (s : State) (pcie : Bool) (q : Nat) {g : Fld} (j : Nat) (h : g ∉ evFlds) :
    (s.resetStop pcie q).get g j = s.get g j := by
  simp only [State.resetStop]
  split
  · rfl
  · rfl
  · exact State.get_hreFault_of_notMem_evFlds _ _ _ _ _ _ j h
  · rfl

theorem State.get_foldl_resetStop_of_notMem_evFlds (s : State) (pcie : Bool) (qs : List Nat) {g : Fld} (j : Nat) (h : g ∉ evFlds) :
    (qs.foldl (fun s q => s.resetStop pcie q) s).get g j = s.get g j := by
  induction qs generalizing s with
  | nil => rfl
  | cons q r ih => exact (ih _).trans (s.get_resetStop_of_notMem_evFlds pcie q j h)

/-! The resets. -/

theorem State.get_resetPcie (s : State) (f : Fld) (i : Nat) :
    s.resetPcie.get f i = if f.info.blk = .HRE ∨ f.info.blk = .PCX then f.info.reset else s.get f i :=
  (s.get_resetFields _ f i).trans (by simp only [Bool.or_eq_true, beq_iff_eq])

/-- PCIE_RESET stops the partitions and then resets HRE and PCX. -/
theorem exec_pcieReset (s : State) : ∃ t, exec .pcieReset s = .next t
    ∧ t.regs = ((List.range 128).foldl (fun s q => s.resetStop true q) s).resetPcie.regs := by
  simp only [exec, execPcieReset]
  exact ⟨_, rfl, by dsimp only⟩

/-- The fields that a system reset leaves as they are (table Block reset kinds): those that only a cold reset resets, and
MBX_FAULT.TRIP while PWR_OK stays high. -/
def keptBySystemReset (pwrOk : Bool) (f : Fld) : Bool :=
  f.info.blk == .EVR || f == .TIM_TALLY_TALLY || f == .TIM_TICK_TICK || f == .PNL_HOOD_FENCED || (f == .MBX_FAULT_TRIP && pwrOk)

/-- The pins that a system reset drives show in no register. -/
theorem State.systemReset_regs (s : State) (pwrOk : Bool) :
    (s.systemReset pwrOk).regs = (s.fresh.resetFields (fun f => !keptBySystemReset pwrOk f)).regs := by
  simp only [State.systemReset]
  split_ifs <;> rfl

theorem State.systemReset_tripped (s : State) (pwrOk : Bool) :
    (s.systemReset pwrOk).boot.tripped = (s.boot.tripped && pwrOk) := by
  simp only [State.systemReset]
  split_ifs <;> rfl

theorem State.get_systemReset (s : State) (pwrOk : Bool) (f : Fld) (i : Nat) :
    (s.systemReset pwrOk).get f i = if keptBySystemReset pwrOk f then s.get f i else f.info.reset := by
  rw [State.get_congr_regs (s.systemReset_regs pwrOk), State.get_resetFields]
  cases keptBySystemReset pwrOk f <;> rfl

theorem exec_systemReset (s : State) (pwrOk : Bool) (h : s.boot.powered = true) :
    exec (.systemReset pwrOk) s = .next (s.systemReset pwrOk) := if_pos h

/-- Settles O55: each reset is `resetFields` of the fields that the table Block reset kinds names, and before a PCIe reset only events
change registers. -/
theorem resetKinds : Obligations.ResetKinds := by
  unfold Obligations.ResetKinds
  refine ⟨fun s => ⟨s.powerLost true, rfl, fun _ _ => rfl, rfl⟩, fun s pwrOk hpow => ?_, fun s => ?_, fun _ _ => rfl⟩
  · refine ⟨_, exec_systemReset s pwrOk hpow, fun f i hevr htally htick hfenced htrip => ?_, fun f i hkept => ?_, ?_, ?_⟩
    · rw [State.get_systemReset, if_neg (by simp [keptBySystemReset, hevr, htally, htick, hfenced, htrip])]
    · rw [State.get_systemReset, if_pos]
      simp only [keptBySystemReset, Bool.or_eq_true, beq_iff_eq, or_assoc]
      exact hkept.imp_right (Or.imp_right (Or.imp_right Or.inl))
    · rintro rfl
      exact ⟨s.get_systemReset true _ _, by rw [State.systemReset_tripped, Bool.and_true]⟩
    · rintro rfl
      exact ⟨s.get_systemReset false _ _, by rw [State.systemReset_tripped, Bool.and_false]⟩
  · obtain ⟨t, hexec, hregs⟩ := exec_pcieReset s
    have hget := State.get_congr_regs hregs
    refine ⟨t, hexec, fun f i hblk => ?_, fun f i hhre hpcx hev => ?_⟩
    · rw [hget, State.get_resetPcie, if_pos hblk]
    · rw [hget, State.get_resetPcie, if_neg (not_or.2 ⟨hhre, hpcx⟩), State.get_foldl_resetStop_of_notMem_evFlds _ _ _ _ hev]

end Sys2Proof.Machine
end

section
/-! Reads of registers (R13, R19, R760, R761): the frame of a read, what it leaves of what a requester sees, and the RC counters that it
sets to the events of its cycle. -/
namespace Sys2Proof.Machine

/-! Frames. -/

theorem Comp.same_refl (c : Comp) (s : State) : c.same s s := by
  cases c <;> simp [Comp.same]

theorem Comp.same_trans {c : Comp} {s t u : State} (hst : c.same s t) (htu : c.same t u) : c.same s u := by
  cases c
  case mem =>
    obtain ⟨hb, hp, hs, hsc, hr, hrec⟩ := hst
    obtain ⟨hb', hp', hs', hsc', hr', hrec'⟩ := htu
    exact ⟨fun a => (hb' a).trans (hb a), fun w => (hp' w).trans (hp w), fun a => (hs' a).trans (hs a), hsc'.trans hsc,
      hr'.trans hr, hrec'.trans hrec⟩
  case parts | panels | nodes | ports | ctxs | stitch | caps => trivial
  all_goals exact Eq.trans htu hst

theorem OnlyChanges.get_eq {l : List Fld} {k : List Comp} {s t : State} (h : OnlyChanges l k s t) {f : Fld} (i : Nat) (hf : f ∉ l) :
    t.get f i = s.get f i :=
  h.1 f i hf List.not_mem_nil

theorem OnlyChanges.same {l : List Fld} {k : List Comp} {s t : State} (h : OnlyChanges l k s t) {c : Comp} (hc : c ∉ k)
    (hg : c.group ∉ k) : c.same s t :=
  h.2.1 c hc hg

theorem OnlyChanges.refl (l : List Fld) (k : List Comp) (s : State) : OnlyChanges l k s s :=
  ⟨fun _ _ _ _ => rfl, fun c _ _ => c.same_refl s, rfl⟩

theorem OnlyChanges.trans {l : List Fld} {k : List Comp} {s t u : State} (hst : OnlyChanges l k s t) (htu : OnlyChanges l k t u) :
    OnlyChanges l k s u := by
  obtain ⟨hget, hsame, hpend⟩ := hst
  obtain ⟨hget', hsame', hpend'⟩ := htu
  exact ⟨fun f i hf hi => (hget' f i hf hi).trans (hget f i hf hi),
    fun c hc hg => Comp.same_trans (hsame c hc hg) (hsame' c hc hg), hpend'.trans hpend⟩

/-- A frame holds along a fold when each of its steps keeps it. -/
theorem OnlyChanges.foldl {β : Type} {l : List Fld} {k : List Comp} {g : State → β → State} (h : ∀ s x, OnlyChanges l k s (g s x))
    (s : State) (xs : List β) : OnlyChanges l k s (xs.foldl g s) := by
  induction xs generalizing s with
  | nil => exact .refl l k s
  | cons x xs ih => exact (h s x).trans (ih _)

theorem OnlyChanges.mono {l : List Fld} {k k' : List Comp} {s t : State} (h : OnlyChanges l k s t) (hk : k ⊆ k') :
    OnlyChanges l k' s t :=
  ⟨h.1, fun c hc hg => h.2.1 c (fun hm => hc (hk hm)) (fun hm => hg (hk hm)), h.2.2⟩

/-- A write of one field leaves every other field and every part of the state. -/
theorem State.set_onlyChanges (s : State) {f : Fld} {l : List Fld} (k : List Comp) (v i : Nat) (hf : f ∈ l) :
    OnlyChanges l k s (s.set f v i) :=
  ⟨fun g j hg _ => s.get_set_ne v i j (.inl (fun h => hg (h ▸ hf))), fun c _ _ => by cases c <;> simp [Comp.same], rfl⟩

/-- An output leaves all the rest. -/
theorem State.emit_onlyChanges (s : State) (l : List Fld) {k : List Comp} (o : Out) (hk : .out ∈ k) :
    OnlyChanges l k s (s.emit o) := by
  refine ⟨fun _ _ _ _ => rfl, fun c hc _ => ?_, rfl⟩
  cases c
  case out => exact absurd hk hc
  all_goals simp [Comp.same]

/-! The registers that a read changes, and what a requester sees after it. -/

/-- The counters that a read clears. -/
abbrev rcFlds : List Fld := Fld.all.filter (fun f => f.info.acc == .RC)

theorem mem_rcFlds {f : Fld} : f ∈ rcFlds ↔ f.info.acc = .RC := by
  simp [rcFlds, Fld.mem_all]

theorem look_eq_look?_getD {α : Type} (d : α) (m : SMap α) (k : Nat) : look d m k = (look? m k).getD d := by
  induction m with
  | nil => rfl
  | cons e r ih => simp only [look, look?, ih]; split <;> rfl

section
variable {s t : State} (h : OnlyChanges rcFlds [.tb] s t)
include h

theorem OnlyChanges.get_of_not_rc {f : Fld} (i : Nat) (hf : f.info.acc ≠ .RC) : t.get f i = s.get f i :=
  h.get_eq i (mt mem_rcFlds.1 hf)

theorem OnlyChanges.panel_eq (w : Nat) : t.panel w = s.panel w := by
  have hw : look? t.panels w = look? s.panels w := h.same (c := .panel w) (by simp) (by simp [Comp.group])
  rw [State.panel, State.panel, look_eq_look?_getD, hw, ← look_eq_look?_getD]

/-- What a requester sees hangs on no counter that a read clears. -/
theorem OnlyChanges.sees_eq (who : Nat) (f : Fld) (i : Nat) : t.sees who f i = s.sees who f i := by
  have hbound := h.get_of_not_rc (f := .SEQ_CTX_BIND_BOUND) i (by decide)
  have hpart := h.get_of_not_rc (f := .SEQ_CTX_BIND_PART) i (by decide)
  have hports := h.get_of_not_rc (f := .PRT_PORTS_PORTS) (who - 1) (by decide)
  have hscope := h.get_of_not_rc (f := .CU_CTRL_PSCOPE) (i / f.info.n2) (by decide)
  have hcu := h.get_of_not_rc (f := .CU_CTRL_PART) (i / f.info.n2) (by decide)
  simp only [State.sees, State.vfSees, State.is, State.getBit, State.ownsPanel, hbound, hpart, hports, hscope, hcu, h.panel_eq]

/-- Which registers answer hangs on no counter that a read clears. -/
theorem OnlyChanges.live_eq (f : Fld) (i : Nat) : t.live f i = s.live f i := by
  have hdom (d : Nat) : t.domOn d = s.domOn d := by
    rw [State.domOn, State.domOn, State.getBit, State.getBit, h.get_of_not_rc (f := .PWR_DOM_STAT_ON) _ (by decide)]
  simp only [State.live, State.panelLive, hdom, h.panel_eq]

end

/-! Which elements lie at an offset. -/

theorem mem_hitsAt {off fn i j : Nat} {f : Fld} :
    (f, i, j) ∈ hitsAt off fn ↔ blkBase f.info.blk ≤ off ∧ (i, j) ∈ elems f (off - blkBase f.info.blk) fn := by
  simp only [hitsAt, List.mem_flatMap]
  constructor
  · rintro ⟨g, -, hg⟩
    split at hg
    · simp at hg
    · obtain ⟨e, he, heq⟩ := List.mem_map.1 hg
      obtain ⟨rfl, rfl⟩ := Prod.mk.inj heq
      exact ⟨by omega, he⟩
  · rintro ⟨hle, he⟩
    refine ⟨f, f.mem_all, ?_⟩
    rw [if_neg (by omega)]
    exact List.mem_map_of_mem he

/-- Half `j` of the register of element `i` lies at one offset only. -/
theorem offset_of_mem_elems {f : Fld} {o fn i j : Nat} (he : (i, j) ∈ elems f o fn) :
    o = f.info.base + f.info.s1 * (i / f.info.n2) + f.info.s2 * (i % f.info.n2) + 4 * j := by
  simp only [elems, List.mem_flatMap, List.mem_filterMap, List.mem_range] at he
  obtain ⟨c, hc, d, -, hif⟩ := he
  have hdiv (q : Nat) : (q * f.info.n2 + c) / f.info.n2 = q := by
    rw [Nat.mul_comm, Nat.mul_add_div (by omega), Nat.div_eq_of_lt hc, Nat.add_zero]
  have hmod (q : Nat) : (q * f.info.n2 + c) % f.info.n2 = c := by
    rw [Nat.mul_comm, Nat.mul_add_mod, Nat.mod_eq_of_lt hc]
  generalize (if f.info.n1 = 129 then fn else 0) = q at hif
  split_ifs at hif with hlt hs1 ho hset
  · obtain ⟨rfl, rfl⟩ := Prod.mk.inj (Option.some.inj hif)
    rw [hmod, hs1]
    omega
  · obtain ⟨rfl, rfl⟩ := Prod.mk.inj (Option.some.inj hif)
    rw [hdiv, hmod, Nat.mul_div_cancel' (Nat.dvd_of_mod_eq_zero hset.1)]
    omega

theorem offset_of_mem_hitsAt {f : Fld} {off fn i j : Nat} (h : (f, i, j) ∈ hitsAt off fn) : off = addrOf f i + 4 * j := by
  obtain ⟨hle, he⟩ := mem_hitsAt.1 h
  have := offset_of_mem_elems he
  simp only [addrOf]
  omega

/-! The side effects of a read. -/

/-- A read by `who` that covers the elements `xs` sets element `i` of `f`: an RC counter at its main place, which the reader sees and
which answers (R13, R761). -/
abbrev State.Clears (s : State) (who : Nat) (xs : List (Fld × Nat × Nat)) (f : Fld) (i : Nat) : Prop :=
  f.info.acc = .RC ∧ (f, i, loOf f i / 32) ∈ xs ∧ s.sees who f i = true ∧ s.live f i = true

theorem State.popAt_onlyChanges (s : State) (who off : Nat) : OnlyChanges rcFlds [.tb] s (s.popAt who off) := by
  unfold State.popAt
  split
  · refine ⟨fun _ _ _ _ => rfl, fun c hc _ => ?_, rfl⟩
    cases c
    case tb => exact absurd (List.mem_singleton_self _) hc
    all_goals simp [Comp.same]
  · exact .refl _ _ s

theorem State.clearElem_onlyChanges (s : State) (who : Nat) (f : Fld) (ih : Nat × Nat) (evs : Nat) :
    OnlyChanges rcFlds [.tb] s (s.clearElem who f ih evs) := by
  unfold State.clearElem
  split
  next hc =>
    have hf := mem_rcFlds.2 hc.1
    exact (s.set_onlyChanges _ 0 ih.1 hf).trans (State.set_onlyChanges _ _ _ ih.1 hf)
  next => exact .refl _ _ s

theorem State.foldl_clearElem_onlyChanges (s : State) (who evs : Nat) (xs : List (Fld × Nat × Nat)) :
    OnlyChanges rcFlds [.tb] s (xs.foldl (fun s x => s.clearElem who x.1 x.2 evs) s) :=
  .foldl (fun s (x : Fld × Nat × Nat) => s.clearElem_onlyChanges who x.1 x.2 evs) s xs

theorem State.readEffect_onlyChanges (s : State) (who off evs : Nat) : OnlyChanges rcFlds [.tb] s (s.readEffect who off evs) := by
  rw [State.readEffect_eq]
  exact (s.popAt_onlyChanges who off).trans (State.foldl_clearElem_onlyChanges _ who evs _)

/-- Which counters a read sets is settled before its side effects begin. -/
theorem OnlyChanges.clears_iff {s t : State} (h : OnlyChanges rcFlds [.tb] s t) (who : Nat) (xs : List (Fld × Nat × Nat)) (f : Fld)
    (i : Nat) : t.Clears who xs f i ↔ s.Clears who xs f i := by
  simp only [State.Clears, h.sees_eq, h.live_eq]

/-- A counter that is cleared and then counts. -/
theorem State.get_inc_set_zero (s : State) (f : Fld) (i n : Nat) :
    ((s.set f 0 i).inc f i n).get f i = min n (2 ^ f.info.width - 1) := by
  have hpos := Nat.two_pow_pos f.info.width
  rw [State.inc_eq, State.get_set_same, State.get_set_same, Nat.zero_mod, satAdd, Nat.zero_add, Nat.mod_eq_of_lt (by omega)]

theorem State.get_clearElem (s : State) (who : Nat) (x : Fld × Nat × Nat) (f : Fld) (i evs : Nat) :
    (s.clearElem who x.1 x.2 evs).get f i = if s.Clears who [x] f i then min evs (2 ^ f.info.width - 1) else s.get f i := by
  obtain ⟨g, j, d⟩ := x
  by_cases hsame : f = g ∧ i = j
  · obtain ⟨rfl, rfl⟩ := hsame
    simp only [State.clearElem, State.Clears, List.mem_singleton, Prod.mk.injEq, true_and, eq_comm (a := d)]
    split_ifs
    · exact s.get_inc_set_zero f i evs
    · rfl
  · have hnot : ¬ s.Clears who [(g, j, d)] f i := by
      simp only [State.Clears, List.mem_singleton, Prod.mk.injEq]
      exact fun ⟨_, ⟨hf, hi, _⟩, _⟩ => hsame ⟨hf, hi⟩
    have hne : g ≠ f ∨ j ≠ i := by
      rw [← not_and_or]
      exact fun h => hsame ⟨h.1.symm, h.2.symm⟩
    rw [if_neg hnot, State.clearElem]
    split_ifs
    · rw [State.get_inc_ne _ _ _ _ hne, State.get_set_ne _ _ _ _ hne]
    · rfl

theorem State.get_foldl_clearElem (s : State) (who evs : Nat) (f : Fld) (i : Nat) (xs : List (Fld × Nat × Nat)) :
    (xs.foldl (fun s x => s.clearElem who x.1 x.2 evs) s).get f i =
      if s.Clears who xs f i then min evs (2 ^ f.info.width - 1) else s.get f i := by
  induction xs using List.reverseRecOn with
  | nil => simp [State.Clears]
  | append_singleton xs x ih =>
    have hframe := s.foldl_clearElem_onlyChanges who evs xs
    have happ : s.Clears who (xs ++ [x]) f i ↔ s.Clears who xs f i ∨ s.Clears who [x] f i := by
      simp only [State.Clears, List.mem_append]
      tauto
    rw [List.foldl_append, List.foldl_cons, List.foldl_nil, State.get_clearElem, ih]
    simp only [hframe.clears_iff, happ]
    by_cases hx : s.Clears who [x] f i
    · rw [if_pos hx, if_pos (.inr hx)]
    · simp only [hx, or_false, if_false]

/-- The registers after the side effects of a read. -/
theorem State.get_readEffect (s : State) (who off evs : Nat) (f : Fld) (i : Nat) :
    (s.readEffect who off evs).get f i =
      if s.Clears who (hitsAt off (fnOf who)) f i then min evs (2 ^ f.info.width - 1) else s.get f i := by
  have hpop : (s.popAt who off).get f i = s.get f i := by
    unfold State.popAt
    split <;> rfl
  rw [State.readEffect_eq, State.get_foldl_clearElem, hpop]
  simp only [(s.popAt_onlyChanges who off).clears_iff]

/-- The two words of a read of 8 bytes set different counters. -/
theorem State.not_clears_of_clears {s : State} {who off : Nat} {f : Fld} {i : Nat}
    (h : s.Clears who (hitsAt off (fnOf who)) f i) : ¬ s.Clears who (hitsAt (off + 4) (fnOf who)) f i := by
  rintro ⟨-, hhit', -⟩
  obtain ⟨-, hhit, -⟩ := h
  have := offset_of_mem_hitsAt hhit
  have := offset_of_mem_hitsAt hhit'
  omega

theorem State.readEffects_onlyChanges (s : State) (who off len evs : Nat) :
    OnlyChanges rcFlds [.tb] s (s.readEffects who off len evs) := by
  unfold State.readEffects
  split
  · exact (s.readEffect_onlyChanges who off _).trans (State.readEffect_onlyChanges _ who (off + 4) _)
  · exact s.readEffect_onlyChanges who off _

/-! Reads and accesses of a bad size as commands. -/

theorem badAccess_eq_false_iff {off len : Nat} : badAccess off len = false ↔ (len = 4 ∨ len = 8) ∧ off % len = 0 := by
  simp only [badAccess, Bool.not_eq_false', Bool.and_eq_true, Bool.or_eq_true, beq_iff_eq]

theorem badAccess_of_not {off len : Nat} (h : ¬ ((len = 4 ∨ len = 8) ∧ off % len = 0)) : badAccess off len = true := by
  rwa [← badAccess_eq_false_iff, Bool.not_eq_false] at h

theorem exec_rcCounterRead (s : State) (who evs : Nat) {off len : Nat} (h : badAccess off len = false) :
    exec (.rcCounterRead who off len evs) s =
      .next ((s.readEffects who off len evs).emit (.readData who off len (s.readValue who off len))) := by
  simp [exec, execRcCounterRead, State.readBar0, h]

theorem exec_rcCounterRead_of_bad (s : State) (who evs : Nat) {off len : Nat} (h : badAccess off len = true) :
    exec (.rcCounterRead who off len evs) s = .next (s.refuseAccess false off len) := by
  simp [exec, execRcCounterRead, State.readBar0, h]

theorem exec_registerWrite_of_bad (s : State) (who v evs : Nat) {off len : Nat} (h : badAccess off len = true) :
    exec (.registerWrite who off len v evs) s = .next (s.refuseAccess true off len) := by
  simp [exec, execRegisterWrite, State.writeBar0, h]

theorem exec_bar0BadAccess (s : State) (write : Bool) {off len : Nat} (h : badAccess off len = true) :
    exec (.bar0BadAccess write off len) s = .next (s.refuseAccess write off len) := by
  simp [exec, execBar0BadAccess, h]

theorem State.refuseAccess_onlyChanges (s : State) (write : Bool) (off len : Nat) :
    OnlyChanges [.PCX_UR_COUNT] [.out] s (s.refuseAccess write off len) := by
  have hinc : OnlyChanges [.PCX_UR_COUNT] [.out] s (s.inc .PCX_UR_COUNT) := s.set_onlyChanges _ _ _ (by simp)
  unfold State.refuseAccess
  split
  · exact hinc
  · exact hinc.trans (State.emit_onlyChanges _ _ _ (by simp))

theorem State.out_refuseAccess (s : State) (write : Bool) (off len : Nat) :
    (s.refuseAccess write off len).out = s.out ++ (if write then [] else [.unsupported off len]) := by
  cases write
  · rfl
  · exact (List.append_nil _).symm

theorem State.get_refuseAccess_PCX_UR_COUNT (s : State) (write : Bool) (off len : Nat) :
    (s.refuseAccess write off len).get .PCX_UR_COUNT = satAdd 32 (s.get .PCX_UR_COUNT) 1 := by
  have hinc : (s.inc .PCX_UR_COUNT).get .PCX_UR_COUNT = satAdd 32 (s.get .PCX_UR_COUNT) 1 := by
    rw [State.inc_eq, State.get_set_same]
    exact Nat.mod_eq_of_lt (by simp only [Fld.info, satAdd]; omega)
  cases write <;> exact hinc

/-- A read of 4 or 8 aligned bytes puts out the words as they stood before its side effects, and changes registers by these alone. -/
theorem exec_rcCounterRead_frame (s : State) (who evs : Nat) {off len : Nat} (h : badAccess off len = false) :
    ∃ t, exec (.rcCounterRead who off len evs) s = .next t
      ∧ t.out = s.out ++ ([.readData who off len (s.readValue who off len)] : List Out)
      ∧ (∀ f i, t.get f i = (s.readEffects who off len evs).get f i)
      ∧ OnlyChanges rcFlds [.tb, .out] s t := by
  have hframe := s.readEffects_onlyChanges who off len evs
  have hout : (s.readEffects who off len evs).out = s.out := hframe.same (c := .out) (by simp) (by simp [Comp.group])
  refine ⟨_, exec_rcCounterRead s who evs h, ?_, fun _ _ => rfl, ?_⟩
  · rw [State.emit, hout]
  · exact (hframe.mono (by simp)).trans (State.emit_onlyChanges _ _ _ (by simp))

/-- Settles O5: the side effects of a read are a fold of clears over the elements of its words, no clear changes what the requester sees,
and no counter lies in both words. -/
theorem registerReads : Obligations.RegisterReads := by
  unfold Obligations.RegisterReads
  refine ⟨fun s who off evs hoff hevs => ?_, fun s who off evs hoff => ?_, fun s write off len hbad => ?_,
    fun s who off len v evs hbad => ?_⟩
  · obtain ⟨t, hexec, hout, hget, hframe⟩ :=
      exec_rcCounterRead_frame s who evs (badAccess_eq_false_iff.2 ⟨.inl rfl, hoff⟩)
    refine ⟨t, hexec, hout, fun f i h hle hmem hrc hh hsees hlive => ?_, hframe⟩
    have hclears : s.Clears who (hitsAt off (fnOf who)) f i := ⟨hrc, mem_hitsAt.2 ⟨hle, hh ▸ hmem⟩, hsees, hlive⟩
    have heff : s.readEffects who off 4 evs = s.readEffect who off evs := by
      rw [State.readEffects, if_neg (by decide), Nat.mod_eq_of_lt hevs]
    rw [hget, heff, State.get_readEffect, if_pos hclears]
  · obtain ⟨t, hexec, hout, hget, hframe⟩ :=
      exec_rcCounterRead_frame s who evs (badAccess_eq_false_iff.2 ⟨.inr rfl, hoff⟩)
    refine ⟨t, hexec, hout, fun f i h k hk hle hmem hrc hh hsees hlive => ?_, hframe⟩
    have hclears : s.Clears who (hitsAt (off + 4 * k) (fnOf who)) f i := ⟨hrc, mem_hitsAt.2 ⟨hle, hh ▸ hmem⟩, hsees, hlive⟩
    have heff : s.readEffects who off 8 evs = (s.readEffect who off (evs % 2 ^ 32)).readEffect who (off + 4) (evs / 2 ^ 32) := rfl
    have hfirst := s.readEffect_onlyChanges who off (evs % 2 ^ 32)
    rw [hget, heff, State.get_readEffect, State.get_readEffect]
    simp only [hfirst.clears_iff]
    obtain rfl | rfl : k = 0 ∨ k = 1 := by omega
    · rw [Nat.mul_zero, Nat.add_zero] at hclears
      rw [if_neg (State.not_clears_of_clears hclears), if_pos hclears, if_pos rfl]
    · rw [if_pos hclears, if_neg one_ne_zero]
  · exact ⟨_, exec_bar0BadAccess s write (badAccess_of_not hbad), s.get_refuseAccess_PCX_UR_COUNT write off len,
      s.out_refuseAccess write off len, s.refuseAccess_onlyChanges write off len⟩
  · have hb := badAccess_of_not hbad
    rw [exec_registerWrite_of_bad s who v evs hb, exec_rcCounterRead_of_bad s who evs hb, exec_bar0BadAccess s true hb,
      exec_bar0BadAccess s false hb]
    exact ⟨rfl, rfl⟩

end Sys2Proof.Machine
end
